-- ==== Sys2Proof/Word.lean ====
section
/-! DEFINITION. The words and the plain data that every layer of the model shares: bytes, 32-bit set-up words, the name
of a register field, the shape of the register table (Table 0.1), frames (Table 12.2) and the return address of a
completion (R412). -/

namespace Sys2Proof

/-- One byte. -/
abbrev Byte := BitVec 8

/-- One set-up register word, or one Ivler register. -/
abbrev W32 := BitVec 32

/-- The name of a register field: the offset of its word and its bit range. -/
structure Fd where
  off : Nat
  hi  : Nat
  lo  : Nat
  deriving DecidableEq, Repr

/-- The access codes of Table 0.1 (R11). -/
inductive Acc where
  | rw | ro | wo | w1c | w1s | so | rsv
  deriving DecidableEq, Repr

/-- One field of a register: bits, access code, reset value. -/
structure FieldSpec where
  hi    : Nat
  lo    : Nat
  acc   : Acc
  reset : Nat
  deriving DecidableEq, Repr

/-- A register, or a replicated set of `count` registers `stride` apart. -/
structure RegSpec where
  base   : Nat
  stride : Nat
  count  : Nat
  flds   : List FieldSpec
  deriving DecidableEq, Repr

/-- Where the completion of a frame goes (R412): the port, sub-port and device the request came from, its class and its
operation tag. `mc` marks a multicast copy, for which a block sends no completion (R438). -/
structure Req where
  port  : Nat
  sub   : Nat
  dev   : Nat
  cls   : Nat
  optag : Nat
  mc    : Bool
  deriving DecidableEq, Repr

/-- A frame: the header of Table 12.2 and the payload. FH_LEN is 16 plus the payload's length and FH_HCRC is computed
from the other fields, so neither is held. `dirIdx` is the directory index that an internal source hands over beside the
frame (R431). -/
structure Frame where
  typ     : Nat
  cls     : Nat
  cm      : Bool
  mc      : Bool
  revChk  : Bool
  dport   : Nat
  sport   : Nat
  dsub    : Nat
  ssub    : Nat
  dev     : Nat
  dir     : Bool
  seq     : Nat
  epoch   : Nat
  mgrp    : Nat
  optag   : Nat
  payload : List Byte
  dirIdx  : Option Nat
  deriving DecidableEq, Repr

/-- Who writes a set-up register (R21, R790): BAR0 or QSPI, a MGMT frame from a host port, the Ivler window, a MGMT
frame from P12, or the debug port. -/
inductive Src where
  | host | mgmtHost | fw | mgmtFw | debug
  deriving DecidableEq, Repr

/-- A term result frame at P14 as Saddle takes it (R43): its FH_TYPE, FH_OPTAG and payload, and for a coil job the job's
DIRGRP and the tags that completed the handshake in it with their channels, which Saddle reads from their directory
entries (R475). -/
structure TermRes where
  typ     : Nat
  optag   : Nat
  payload : List Byte
  dirgrp  : Nat
  keys    : List (Nat × List Byte)
  deriving DecidableEq, Repr

/-- Whose draw or read has waited 2 ms (R360): the n-th waiting reader of the random number unit, the n-th cipher request
waiting for its masks, the n-th waiting token, a Cloade transaction's challenge, the sweep's SEED, the n-th vehicle frame waiting for
its masks, or the n-th security command. -/
inductive StallWho where
  | reader (n : Nat)
  | cipher (n : Nat)
  | token (n : Nat)
  | cloade (n : Nat)
  | sweep
  | can (n : Nat)
  | sec (n : Nat)
  deriving DecidableEq, Repr

/-- The event source and flag bit of Table 20.1. -/
structure EvFlag where
  src : Nat
  bit : Nat
  deriving DecidableEq, Repr

end Sys2Proof
end

