-- ==== Sys2Proof/Syntax.lean ====
section
/-! DEFINITION. The commands of the block: one constructor per row of spec/opcode_table.json. Each docstring is the row's
rule and what the command stands for; the operands are what the occurrence brings with it (a value written, a frame,
a measured quantity). -/

namespace Sys2Proof

/-- The commands. -/
inductive Instr where
  /-- R13: A write to a set-up register with no row of its own updates each defined field under its access code, refusing the fields that may not change with CFG_REJECT. -/
  | registerWrite (src : Src) (off be : Nat) (v : W32)
  /-- R23: A stopping block reports itself stopped once all its units are idle, which completes the pending CONFIG_STOP. -/
  | blockStopped (blk : Nat)
  /-- R33: Each 10 µs Saddle samples its LIVE terms, takes the inputs that reached P14 and applies the transitions of Table 2.2 by the precedence of Table 2.3. -/
  | sadEvaluationCycle
  /-- R43: A term result frame reaches P14 and is taken by the next evaluation cycle. -/
  | sadTermResult (r : TermRes)
  /-- R38: Expiry of ARM_TIMEOUT in ARMING returns Saddle to LOCKED with TIMEOUT. -/
  | sadArmTimeout
  /-- R37: PARKED held continuously for PARK_DWELL ends HOLDING into LOCKED. -/
  | sadParkDwell
  /-- R36: No vehicle status frame for VEH_STALE × 10 ms makes the status stale, which counts as motion. -/
  | sadVehStale
  /-- R55: An AGED hold term reaching its maximum age in RELEASED is requested again. -/
  | sadTermMaxage (term : Nat)
  /-- R64: REL_FB not confirmed within SAD_FB.WINDOW sets FB_FAULT and leaves RELEASED. -/
  | sadFbWindowExpiry
  /-- R65: A debounced change of REL_FB updates FB_CLOSED and term 13 and may raise FB_FAULT. -/
  | sadRelFbChange (level : Bool)
  /-- R40: SAD_CMD.REQUEST is a release request, accepted from firmware and from the host only with HOSTREQ_EN. -/
  | sadRequest (src : Src)
  /-- R34: SAD_CMD.END is an end request. -/
  | sadEnd
  /-- R32: SAD_CMD.FORCE_CLEAR leaves FORCED_LOCK when terms 7 and 9 are true and no force cause is recorded. -/
  | sadForceClear
  /-- R51: SAD_CMD.SAVE_POLICY saves the policy slots through the dual-copy record service in BLANK or PROVISIONED. -/
  | sadSavePolicy (src : Src)
  /-- R43: SAD_CMD.RECHECK requests every AGED term of the active slot at once. -/
  | sadRecheck
  /-- R737: A VEHICLE frame of KIND 1 sets the vehicle condition and context at Saddle. -/
  | sadVehicleStatus (req : Req) (parked : Bool) (ctx : Nat)
  /-- R737: A VEHICLE frame of KIND 2 is a release request and makes term 2 true. -/
  | sadVehicleStart (req : Req)
  /-- R737: A VEHICLE frame of KIND 3 is an end request. -/
  | sadVehicleStop (req : Req)
  /-- R40: A SADDLE_REQ frame with OP 1 is the host's release request, denied unless HOSTREQ_EN is set. -/
  | saddleReqRelease (req : Req) (payload : List Byte)
  /-- R512: A SADDLE_REQ frame with OP 2 is the host's end request. -/
  | saddleReqEnd (req : Req) (payload : List Byte)
  /-- R93: A SADDLE_REQ frame with OP 3 makes the ledger build a CMAC-sealed report carrying the host nonce. -/
  | saddleReqReport (req : Req) (payload : List Byte)
  /-- R68: The ledger converts each qualified meter pulse into Wh, credit and lease counts, and evaluates its flags. -/
  | ledPulseApply
  /-- R88: 24 h after the last save, a checkpoint is started. -/
  | ledCheckpointDue
  /-- R88: LED_CMD.CHECKPOINT starts a checkpoint. -/
  | ledCheckpoint
  /-- R81: A lease token frame is checked in the order of Table 3.3, then applied and checkpointed. -/
  | ledTokenFrame (req : Req) (token : List Byte)
  /-- R132: The coil program starts its next entry once the previous entry's job has completed. -/
  | coilProgramEntry
  /-- R130: Expiry of the TIME of a WAIT entry lets the program go on. -/
  | coilProgWait
  /-- R130: A CENSUS job frame at P0 sub-port 0xFF creates one census task per channel in CHMASK. -/
  | coilJobCensus (req : Req) (port sub : Nat) (payload : List Byte)
  /-- R130: An AUTH job frame creates one task per channel that handshakes with the tags found again. -/
  | coilJobAuth (req : Req) (port sub : Nat) (payload : List Byte)
  /-- R130: A CENSUS_AUTH job frame creates one census-and-handshake task per channel. -/
  | coilJobCensusAuth (req : Req) (port sub : Nat) (payload : List Byte)
  /-- R130: A SWEEP job frame creates exclusive resonance-sweep tasks. -/
  | coilJobSweep (req : Req) (port sub : Nat) (payload : List Byte)
  /-- R130: A MAP_ROW job frame creates exclusive row-measurement tasks. -/
  | coilJobMapRow (req : Req) (port sub : Nat) (payload : List Byte)
  /-- R123: In the cycle after a task ends, a job arrives, a grant changes or a channel comes up, the scheduler admits the ready tasks that meet R121 and the arbiter grants. -/
  | coilAdmissionPass
  /-- R128: A revoked C2 task finishes its current Cloade exchange, stops its drive, returns its grant and becomes ready again. -/
  | coilTaskPreempt (ch : Nat)
  /-- R103: The coil current reaches 95% of its target and field stable is signalled to the Cloade engine, or OPEN is declared at 1 ms. -/
  | coilFieldStable (ch : Nat) (ok : Bool)
  /-- R106: A carrier-follows-coil loop update moves FACT towards phase zero, limited by the MINSEP clamp. -/
  | coilFollowUpdate (us : Nat) (targets : List (Nat × Nat))
  /-- R136: A task ends with its field off, returns its grant and synthesiser, and completes the job when it is the job's last task. -/
  | coilTaskComplete (ch : Nat)
  /-- R136: A task that exceeds its TIME limit completes TIMEOUT. -/
  | coilTaskTimeout (ch : Nat)
  /-- R110: A resonance sweep ends and writes FRES, Q, RS and FACT, or ends DETUNED. -/
  | coilSweepDone (ch : Nat) (fres : Option Nat) (q rs : Nat)
  /-- R114: A 3 ms row measurement writes its row and column of the coupling map. -/
  | coilMapRowDone (ch cur : Nat) (volts : List (Nat × Nat))
  /-- R116: Every REFRESH seconds the scheduler queues a map row as a C2 exclusive task. -/
  | coilMapRefresh
  /-- R118: Within 24 h of a refresh that changed an entry across KTH, the map is saved. -/
  | coilMapSaveDue
  /-- R138: A detected OPEN, SHORT, DETUNED or OVERCURRENT stops the drive, puts the channel down and flushes its tasks and frames. -/
  | coilChannelFault (ch code : Nat)
  /-- R141: VDRV out of range or an overheated driver die puts a group down and flushes its sub-ports. -/
  | coilGroupDown (group : Nat) (uv ov hot : Bool) (vdrv : Nat)
  /-- R141: A down group comes back up after 10 ms in range or cooling. -/
  | coilGroupUp (group vdrv : Nat)
  /-- R140: A retry sweep of an OPEN or DETUNED channel becomes ready 10, 20 or 40 s after the previous attempt. -/
  | coilAutoretry (ch : Nat)
  /-- R115: COIL_CMD.MAP_FULL sweeps and maps every enabled channel exclusively, then saves the map. -/
  | coilMapFull (src : Src)
  /-- R120: COIL_CMD.MAP_SAVE saves the map and sweep results and sets MAP_VALID, refused while the block is stopped. -/
  | coilMapSave (src : Src)
  /-- R134: COIL_CMD.PROG_START starts the program at entry 0. -/
  | coilProgStart
  /-- R134: COIL_CMD.PROG_HALT stops the program after the job in progress. -/
  | coilProgHalt
  /-- R134: COIL_CMD.PROG_SAVE saves the program and COIL_PGCFG to NV. -/
  | coilProgSave (src : Src)
  /-- R110: COIL_CMD.SWEEP queues a C1 sweep of channel CH. -/
  | coilSweep (src : Src) (ch : Nat)
  /-- R139: COIL_CMD.RETRY queues a recovery sweep of channel CH. -/
  | coilRetry (src : Src) (ch : Nat)
  /-- R114: COIL_CMD.MAP_ROW queues a row measurement of channel CH. -/
  | coilMapRow (src : Src) (ch : Nat)
  /-- R154: TPOR after field stable, or TWAKE after WAKE, the engine sends its first CENSUS. -/
  | cldTporElapsed (ch : Nat)
  /-- R154: The last cell of a downlink frame or mark has been sent, and the response window opens. -/
  | cldDownlinkSent (ch : Nat)
  /-- R165: A census slot reply is received and classed SINGLE or COLLIDED. -/
  | cldSlotReply (ch : Nat) (reply : Option (List Byte))
  /-- R185: A handle-addressed response is received and judged, with DROP and a new round on collision. -/
  | cldTagResponse (ch : Nat) (resp : Option (List Byte)) (collided : Bool)
  /-- R165: No header by TNORESP makes a slot EMPTY or a command unanswered, leading to a retry or TAG_NO_RESPONSE. -/
  | cldTnorespExpiry (ch : Nat)
  /-- R187: A tag-access frame is queued for its tag and starts an AUTH job when WAIT is 0. -/
  | cldTagAccess (req : Req) (data : List Byte)
  /-- R189: A tag-access request not secured within TIME completes TIMEOUT. -/
  | cldTagAccessTimeout (n : Nat)
  /-- R193: Vpk rising above VACT brings the passport tag out of POWER_OFF and resolves its commit pairs. -/
  | ptFieldOn
  /-- R147: The field absent for more than 40 Tc, or below VREL, puts the tag into POWER_OFF. -/
  | ptFieldOff
  /-- R213: Vpk crossing VHV switches HVOUT on or off. -/
  | ptHvThreshold (above : Bool)
  /-- R195: The passport tag takes WAKE with no effect. -/
  | ptWake
  /-- R164: A READY passport tag draws a slot and answers CENSUS in it. -/
  | ptFieldCensus (frame : List Byte)
  /-- R164: A MARK opens the next census slot for the tag. -/
  | ptMark
  /-- R160: A MARK_ACK after its valid slot reply halts the tag with its handle. -/
  | ptMarkAck
  /-- R160: DROP with its handle returns the tag to READY. -/
  | ptFieldDrop (frame : List Byte)
  /-- R217: A field READ returns a passport page if the state allows it. -/
  | ptFieldRead (frame : List Byte)
  /-- R206: A field WRITE runs the passport anti-tearing write transaction. -/
  | ptFieldWrite (frame : List Byte) (vwr : Bool)
  /-- R195: The passport tag answers KEY_LOAD with PARAM. -/
  | ptFieldKeyLoad (frame : List Byte)
  /-- R199: AUTH_A starts the LONG handshake under KP, or is answered ACCESS while the key cells are clear. -/
  | ptFieldAuthA (frame : List Byte)
  /-- R170: AUTH_B with the correct TA secures the tag, and a wrong TA halts it. -/
  | ptFieldAuthB (frame : List Byte)
  /-- R195: The passport tag answers FIELD_REPORT with PARAM. -/
  | ptFieldReportCmd (frame : List Byte)
  /-- R198: Within 10 ms of a domain key change, the cipher engine writes or clears KP in the tag's key cells. -/
  | ptKeyLoad
  /-- R221: PT_CMD READ reads a passport page as a wired transaction. -/
  | ptCmdRead (src : Src) (page : Nat)
  /-- R221: PT_CMD WRITE writes a passport page from PT_WDATA as a wired transaction. -/
  | ptCmdWrite (src : Src) (page : Nat)
  /-- R226: PT_CMD.SAVE_CFG writes PT_CFG bits 0, 2 and 3 to the passport header. -/
  | ptSaveCfg (src : Src)
  /-- R234: A TX packet request is taken up, checked against the regulatory and duty limits, and tuned. -/
  | rfRadioTx (req : Req) (payload : List Byte)
  /-- R235: An RX window request is taken up and tuned. -/
  | rfRadioRx (req : Req) (payload : List Byte)
  /-- R231: A CW request is taken up under CW_EN and tuned. -/
  | rfRadioCw (req : Req) (payload : List Byte)
  /-- R238: The synthesiser locks and the radio moves to RXSETTLE or TXRAMP. -/
  | rfCalLocked (vco us : Nat)
  /-- R239: An attempt unlocked at 40 µs restarts, and after 100 µs in all the request completes TX_NOLOCK. -/
  | rfCalAttemptTimeout (us : Nat)
  /-- R243: RXSETTLE ends and the RX window opens. -/
  | rfRxSettled (temp : Int)
  /-- R234: A packet that matched SYNC has been received to its end and is accepted or discarded by CRC. -/
  | rfRxPacket (body crc : List Byte)
  /-- R235: An RX window expiring without a packet completes TIMEOUT. -/
  | rfRxWindowExpiry
  /-- R246: The 8 µs PA ramp ends and transmission begins. -/
  | rfTxrampDone
  /-- R248: The packet bits, or the CW duration, end and TXRAMPDOWN starts. -/
  | rfTxDone
  /-- R248: The PA ramp-down ends and the request completes. -/
  | rfTxrampdownDone
  /-- R242: Loss of lock during TX, CW or RX ends the request with TX_NOLOCK. -/
  | rfLockLoss
  /-- R262: A held request whose TIME passes completes DUTY_DEFERRED. -/
  | rfDutyHeldTimeout (n : Nat)
  /-- R260: At each RTC minute boundary the duty bins age, held requests are rechecked, USED is kept and MINUTE is set. -/
  | rfRtcMinute
  /-- R252: RF_CMD.REG_SAVE stores the regulatory block image, which the radio then uses. -/
  | rfRegSave (src : Src)
  /-- R253: RF_CMD.REG_LOCK with KEY 0xA5 checks the entries, writes the MAC and blows the REG_LOCK fuse. -/
  | rfRegLock (src : Src) (key : Nat)
  /-- R244: RF_CMD.DC_FLUSH invalidates every cached offset set. -/
  | rfDcFlush
  /-- R269: RF_CMD.CLR_CNT clears the radio counters. -/
  | rfClrCnt
  /-- R270: A sweep request frame is validated and queued, or, for a key card, answered at once with the LF-only verdict. -/
  | prxSweepRequest (req : Req) (payload : List Byte)
  /-- R276: The radio takes up a UHF sweep, refuses it or derives RK, orders the hops and sends START. -/
  | prxSweepTakeUp (temp : Int)
  /-- R281: One ranging hop calibrates, sends a tone and measures the fob's reply. -/
  | prxHop (locked : Bool) (lost : Nat) (reply : Option (Nat × Nat × Nat))
  /-- R291: The CONFIRM packet is received and the verdict is computed and completed. -/
  | prxConfirmReceived (frame : List Byte)
  /-- R291: The CONFIRM window closes without a packet and the verdict is computed with NOCONFIRM. -/
  | prxConfirmTimeout
  /-- R296: PRX_CMD.SAVE stores the proximity settings and calibration. -/
  | prxSave (src : Src)
  /-- R299: PRX_CMD.CLR_CNT clears the proximity counters. -/
  | prxClrCnt
  /-- R320: A GCM segment starts on a core. -/
  | cphGcm (req : Req) (sub : Nat) (data : List Byte)
  /-- R302: A CCM operation starts on a core. -/
  | cphCcm (req : Req) (sub : Nat) (data : List Byte)
  /-- R302: A CMAC generate or verify segment starts on a core. -/
  | cphCmac (req : Req) (sub : Nat) (data : List Byte)
  /-- R328: A CTR segment starts on a core. -/
  | cphCtr (req : Req) (sub : Nat) (data : List Byte)
  /-- R303: A single-block internal ECB runs. -/
  | cphEcb (req : Req) (sub : Nat) (data : List Byte)
  /-- R302: One block is encrypted and loaded into KH_B as a SESSION key. -/
  | cphEcbKey (req : Req) (sub : Nat) (data : List Byte)
  /-- R304: The SP 800-108 KDF derives a key into KH_B. -/
  | cphDerive (req : Req) (sub : Nat) (data : List Byte)
  /-- R302: A clear key is loaded into KH_B as SESSION_CLEAR. -/
  | cphLoadKey (req : Req) (sub : Nat) (data : List Byte)
  /-- R302: A handle is zeroised and freed. -/
  | cphFreeKey (req : Req) (sub : Nat) (data : List Byte)
  /-- R314: The key in KH_B is wrapped under a KEK. -/
  | cphWrap (req : Req) (sub : Nat) (data : List Byte)
  /-- R302: A blob is unwrapped into an IMPORTED handle if its integrity check passes. -/
  | cphUnwrap (req : Req) (sub : Nat) (data : List Byte)
  /-- R324: A nonce counter is bound to a handle with a fresh fixed field. -/
  | cphNonceAlloc (req : Req) (sub : Nat) (data : List Byte)
  /-- R302: A nonce counter is freed. -/
  | cphNonceFree (req : Req) (sub : Nat) (data : List Byte)
  /-- R338: An open stream is detached and returned as a context blob. -/
  | cphSaveCtx (req : Req) (sub : Nat) (data : List Byte)
  /-- R340: A context blob with the outstanding SERIAL is reattached as a stream. -/
  | cphRestoreCtx (req : Req) (sub : Nat) (data : List Byte)
  /-- R315: The lessor domain key is wrapped and stored, and installed when copy A is written. -/
  | cphDomainInstall (req : Req) (sub : Nat) (data : List Byte)
  /-- R316: The lessor domain key is removed and lessor-derived handles are freed. -/
  | cphDomainClear (req : Req) (sub : Nat) (data : List Byte)
  /-- R323: A core finishes an operation, sends its completion, and resumes any suspended segment. -/
  | cphCipherOpDone (core : Nat)
  /-- R341: A wait for a handle, for spill or for a counter save that exceeds WAITMAX completes TIMEOUT. -/
  | cphCipherWaitTimeout (n : Nat)
  /-- R343: A parity mismatch zeroises the operation, completes it INTERNAL_FAULT and takes the core off. -/
  | cphCoreFault (core : Nat)
  /-- R347: CPH_CMD.CLR_CNT clears the cipher counters. -/
  | cphClrCnt
  /-- R349: A 1,024-bit source block finishes its health tests and seeds, feeds the pool, or fails. -/
  | rngBlockTested (jasper opal : Option (List Byte))
  /-- R360: A read or draw waiting 2 ms completes with the error value and sets STALL_TO. -/
  | rngStallTimeout (who : StallWho)
  /-- R366: A read of RNG_DATA consumes 32 fresh bits of the reader's instance. -/
  | rngData (host : Bool)
  /-- R369: A read of RNG_RAW returns 32 tested raw bits. -/
  | rngRaw (host : Bool)
  /-- R368: A random-number frame request returns LEN bytes from its instance. -/
  | rngFrame (req : Req) (payload : List Byte)
  /-- R373: RNG_CMD.CLR_STALL clears STALL_TO. -/
  | rngClrStall
  /-- R358: RNG_CMD.RESTART ends a fatal alarm and reruns start-up. -/
  | rngRestart
  /-- R373: RNG_CMD.CLR_CNT clears the failure and reseed counters. -/
  | rngClrCnt
  /-- R405: NV_CMD READ reads up to 128 bytes into NV_RBUF. -/
  | nvRead (src : Src)
  /-- R405: NV_CMD WRITE writes up to 128 bytes from NV_WBUF as whole pages. -/
  | nvWrite (src : Src)
  /-- R405: NV_CMD REC_READ selects and repairs a user record and returns part of it. -/
  | nvRecRead (src : Src)
  /-- R392: NV_CMD REC_WRITE writes a user record, copy A then copy B. -/
  | nvRecWrite (src : Src)
  /-- R402: NV_CMD.SCRUB_NOW starts a scrub pass. -/
  | nvScrubNow
  /-- R409: NV_CMD.CLR_CNT clears NV_CNT. -/
  | nvClrCnt
  /-- R793: NV_CMD.SAVE_CFG saves record 0x0001 and then record 0x0045. -/
  | nvSaveCfg (src : Src)
  /-- R407: An NV frame request with OP READ reads bytes. -/
  | nvFrameRead (req : Req) (data : List Byte)
  /-- R407: An NV frame request with OP WRITE writes bytes. -/
  | nvFrameWrite (req : Req) (data : List Byte)
  /-- R407: An NV frame request with OP REC_READ reads a user record. -/
  | nvFrameRecRead (req : Req) (data : List Byte)
  /-- R407: An NV frame request with OP REC_WRITE writes a user record. -/
  | nvFrameRecWrite (req : Req) (data : List Byte)
  /-- R399: A write of NV_PROT.BP raises protection at once and saves it, or lowers it only in BLANK or PROVISIONED. -/
  | nvProtWrite (src : Src) (bp : Nat)
  /-- R377: A page write ends, and the next page, the next request or the request's completion follows. -/
  | nvPageWriteDone (found : Option (List Byte))
  /-- R402: The RTC reaching NV_SCRUBLAST plus one year starts a scrub pass. -/
  | nvScrubDue
  /-- R400: Every PACE × 10 ms the next page is margin-read and written back. -/
  | nvScrubPage (weak : Nat)
  /-- R413: A frame entering a port is checked, restamped and queued, or completed at ingress. -/
  | swFrameIngress (port sub origin : Nat) (bytes : List Byte)
  /-- R421: Each 128 ns the scheduler matches inputs to outputs and moves one cell per pair. -/
  | swCellSlot
  /-- R419: A free output port picks its next frame, checks its epoch and starts egress or discards it STALE_DISCARD. -/
  | swEgressStart (port : Nat)
  /-- R420: The destination sub-port accepts a frame's last byte and its cells return to the pool. -/
  | swFrameDelivered (port : Nat)
  /-- R430: A resequencer gap held for 2 ms releases the held frames and raises SEQ_GAP. -/
  | swSeqGap (id : Nat)
  /-- R442: A port or sub-port goes down and every frame queued for it completes PORT_DOWN. -/
  | swPortDown (port : Nat) (sub : Option Nat)
  /-- R445: A port or sub-port comes back up with empty queues. -/
  | swPortUp (port : Nat) (sub : Option Nat)
  /-- R446: SW_CMD.STOP closes ingress while egress drains. -/
  | swStop
  /-- R447: SW_CMD.START checks the quota sum and restarts the switch, or refuses. -/
  | swStart (src : Src)
  /-- R450: SW_CMD.SAVE saves the switch settings and the multicast groups. -/
  | swSave (src : Src)
  /-- R451: SW_CMD.CLR_CNT clears every switch counter. -/
  | swClrCnt
  /-- R451: SW_MGCMD READ loads a group entry into SW_MGBUF. -/
  | swMgRead (group : Nat)
  /-- R435: SW_MGCMD WRITE applies a group entry as one unit and advances its EPOCH, revoking if asked. -/
  | swMgWrite (src : Src) (group : Nat) (revoke : Bool)
  /-- R453: BSN_CMD.APPLY checks the new partition sizes and starts applying them. -/
  | bsnApply (src : Src)
  /-- R454: The partition change ends, with changed partitions zeroised and APPLIED set. -/
  | bsnApplyDone
  /-- R454: BSN_CMD.SAVE saves the partition sizes. -/
  | bsnSave (src : Src)
  /-- R486: BSN_CMD.CAP_FLUSH frees every capture record. -/
  | bsnCapFlush
  /-- R486: BSN_CMD.CLR_CNT clears BSN_CAPSTAT.OVER. -/
  | bsnClrCnt
  /-- R460: A CAPTURE STORE frame writes a record to the capture ring, or waits for room. -/
  | bsnStore (req : Req) (payload : List Byte)
  /-- R461: A CAPTURE READ frame returns and frees the oldest record. -/
  | bsnCaptureRead (req : Req) (payload : List Byte)
  /-- R461: A CAPTURE FLUSH frame frees every record. -/
  | bsnCaptureFlush (req : Req) (payload : List Byte)
  /-- R467: A directory LOOKUP finds a UID's entry in its two candidate buckets. -/
  | dirLookup (req : Option Req) (data : List Byte)
  /-- R468: A cache miss completes its Basin read and fills the cache. -/
  | dirCacheFill
  /-- R477: A directory READ returns the entry at INDEX. -/
  | dirRead (req : Option Req) (data : List Byte)
  /-- R477: A directory NEXT returns the first valid entry at or after INDEX in the group. -/
  | dirNext (req : Option Req) (data : List Byte)
  /-- R467: A directory ADD places a new entry in the emptier candidate bucket and writes it through. -/
  | dirAdd (req : Option Req) (data : List Byte)
  /-- R470: A directory MODIFY changes an entry, advancing its EPOCH and revoking where R470 requires. -/
  | dirModify (req : Option Req) (data : List Byte)
  /-- R471: A directory DELETE frees an entry, keeping its EPOCH and REVOKE_AT. -/
  | dirDelete (req : Option Req) (data : List Byte)
  /-- R481: Gathered tag-result changes are written to the image page once WT_MIN has passed. -/
  | dirWriteThrough (page : Nat)
  /-- R483: Once Basin is READY after losing its content, the directory loads from its NV image. -/
  | dirLoad
  /-- R496: ID_DRVSTAT.FEATURES checks the driver's feature choice and sets FEATURES_OK or FEATURE_FAIL. -/
  | hostFeatures
  /-- R497: ID_DRVSTAT.DRIVER_OK puts P8 up and starts descriptor fetch. -/
  | hostDriverOk
  /-- R494: ID_DRVSTAT.RESET returns the host interface to set-up. -/
  | hostDrvstatReset (src : Src)
  /-- R500: Writing a ring's EN enables or disables it and resets its indices. -/
  | hostRingEnable (src : Src) (ring n : Nat) (v : W32)
  /-- R501: A submission-ring tail doorbell makes new descriptors available. -/
  | hostSqTailDoorbell (n idx : Nat)
  /-- R501: A completion-ring head doorbell releases records and lets waiting completions in. -/
  | hostCqHeadDoorbell (n idx : Nat)
  /-- R501: The event-ring head doorbell releases records and writes held ones. -/
  | hostEventHeadDoorbell (idx : Nat)
  /-- R509: Descriptor opcode NOP completes OK at once. -/
  | hostNop (desc : List Byte) (input : Option (List Byte))
  /-- R509: Descriptor opcode FRAME sends its payload as a frame of TYPE. -/
  | hostFrame (desc : List Byte) (input : Option (List Byte))
  /-- R509: Descriptor opcode REG_READ sends an MGMT READ. -/
  | hostRegRead (desc : List Byte) (input : Option (List Byte))
  /-- R509: Descriptor opcode REG_WRITE sends an MGMT WRITE. -/
  | hostRegWrite (desc : List Byte) (input : Option (List Byte))
  /-- R523: Descriptor opcode CONFIG_STOP stops the named block and completes when it is stopped. -/
  | hostConfigStop (desc : List Byte) (input : Option (List Byte))
  /-- R523: CONFIG_STOP's TIMEOUT passing completes it TIMEOUT, with the block left stopping. -/
  | hostConfigStopTimeout (n : Nat)
  /-- R524: Descriptor opcode CONFIG_START restarts the named block. -/
  | hostConfigStart (desc : List Byte) (input : Option (List Byte))
  /-- R509: Descriptor opcode RELEASE_REQ sends SADDLE_REQ OP 1. -/
  | hostReleaseReq (desc : List Byte) (input : Option (List Byte))
  /-- R509: Descriptor opcode RELEASE_END sends SADDLE_REQ OP 2. -/
  | hostReleaseEnd (desc : List Byte) (input : Option (List Byte))
  /-- R509: Descriptor opcode TOKEN sends the lease token to the ledger. -/
  | hostToken (desc : List Byte) (input : Option (List Byte))
  /-- R509: Descriptor opcode LEDGER_REPORT sends SADDLE_REQ OP 3 with the nonce. -/
  | hostLedgerReport (desc : List Byte) (input : Option (List Byte))
  /-- R600: An extension opcode is sent to firmware on P12 when its IVC_FWEXT bit is set. -/
  | hostFwExt (desc : List Byte) (input : Option (List Byte))
  /-- R511: An MGMT READ frame reads a set-up word of its block. -/
  | hostMgmtRead (req : Req) (sub : Nat) (payload : List Byte)
  /-- R511: An MGMT WRITE frame writes a set-up word of its block. -/
  | hostMgmtWrite (req : Req) (sub : Nat) (payload : List Byte)
  /-- R23: An MGMT STOP frame starts stopping its block. -/
  | hostMgmtStop (req : Req) (sub : Nat) (payload : List Byte)
  /-- R524: An MGMT START frame restarts its block. -/
  | hostMgmtStart (req : Req) (sub : Nat) (payload : List Byte)
  /-- R513: A completion frame at P8 is written to the output buffer and as a record in its CQ. -/
  | hostCompletionRecord (sub : Nat) (f : Frame)
  /-- R526: A failed DMA read stops its ring, or a failed write disables its CQ. -/
  | hostDmaFail (write : Bool) (ring : Nat)
  /-- R527: PERST_N falling, a link down or D3hot resets the host interface to set-up. -/
  | hostIfReset (cause : Nat)
  /-- R490: A QSPI READ transaction returns words. -/
  | hostQspiRead (addr n : Nat) (gap : Bool)
  /-- R490: A QSPI QREAD transaction returns words on four lines. -/
  | hostQread (addr n : Nat) (gap : Bool)
  /-- R492: A QSPI WRITE transaction writes words in address order. -/
  | hostQspiWrite (addr : Nat) (ws : List W32) (cut : Bool)
  /-- R492: A QSPI QWRITE transaction writes words on four lines. -/
  | hostQwrite (addr : Nat) (ws : List W32) (cut : Bool)
  /-- R492: RDSR returns the status byte and clears ERR. -/
  | hostRdsr
  /-- R535: A Peluk link finishes training, and a neighbour ENUM is sent if needed. -/
  | plLinkUp (link role id : Nat)
  /-- R536: A Peluk link is declared lost, LSTAT is sent and routes change. -/
  | plLinkDown (link : Nat)
  /-- R540: A cell is received in LSEQ order, acknowledged, forwarded or delivered to the switch. -/
  | plCellReceived (link : Nat) (hdr data crc : List Byte) (stomped : Bool)
  /-- R540: An ACK releases acknowledged cells from the sender. -/
  | plAck (link lseq : Nat)
  /-- R540: A NAK makes the sender replay from the cell named. -/
  | plNak (link lseq : Nat)
  /-- R539: A CRED control set returns credit for a class. -/
  | plCred (link cls count : Nat)
  /-- R540: 20 µs without an ACK makes the sender replay. -/
  | plReplayTimeout (link : Nat)
  /-- R546: An LSTAT updates the set of down links, and is relayed if it changed that set. -/
  | plLstat (link lk : Nat) (up : Bool)
  /-- R543: An ENUM assigns an ID and is passed on, returned or closes the ring. -/
  | plEnum (link id dir : Nat) (endd : Bool) (ndev : Nat)
  /-- R543: Enumeration not ended within 1 ms raises ENUM_TIMEOUT. -/
  | plEnumTimeout
  /-- R552: A return slot idle for 10 ms with its frames completed is released. -/
  | plSlotRelease (slot : Nat)
  /-- R555: A member's forwarded event is posted to the head's event ring. -/
  | plEventFwd (req : Req) (payload : List Byte)
  /-- R543: PL_CMD.ENUM makes the head enumerate. -/
  | plEnumCmd
  /-- R547: PL_CMD.REROUTE sends every member a fresh shortest-route choice. -/
  | plReroute
  /-- R560: PL_CMD.CLR_CNT clears the cascade counters. -/
  | plClrCnt
  /-- R597: A frame to P12 sub-port n is written whole into receive ring n, or waits for room. -/
  | ivcFwQueueFrame (n : Nat) (f : Frame)
  /-- R599: IVC_TXCTL.GO sends a frame from SRAM into the switch. -/
  | ivcTxGo (len queue : Nat)
  /-- R601: Writing KEY 0x5A to IVC_WDKICK restarts the watchdog count. -/
  | ivcWdkick (key : Nat)
  /-- R592: The watchdog at TIMEOUT/2 takes the warning vector. -/
  | ivcWdtWarn
  /-- R601: The watchdog at TIMEOUT resets the core. -/
  | ivcWdtReset
  /-- R602: A write of IVC_CTRL.RUN holds the core in reset or releases it. -/
  | ivcRun (src : Src) (run : Bool)
  /-- R591: At a boundary a pending interrupt above IPL is taken. -/
  | ivcInterruptEntry
  /-- R615: Copy a register. -/
  | ivMov (rd ra : Nat) (short : Bool)
  /-- R615: Add with carry. -/
  | ivAdc (rd ra rb : Nat) (short : Bool)
  /-- R615: Subtract. -/
  | ivSub (rd ra rb : Nat) (short : Bool)
  /-- R615: Subtract with borrow. -/
  | ivSbc (rd ra rb : Nat) (short : Bool)
  /-- R615: Bitwise AND. -/
  | ivAnd (rd ra rb : Nat) (short : Bool)
  /-- R615: Bitwise OR. -/
  | ivOr (rd ra rb : Nat) (short : Bool)
  /-- R615: Bitwise XOR. -/
  | ivXor (rd ra rb : Nat) (short : Bool)
  /-- R615: Bitwise NOT. -/
  | ivNot (rd ra : Nat) (short : Bool)
  /-- R615: Negate. -/
  | ivNeg (rd ra : Nat) (short : Bool)
  /-- R615: Compare and set flags. -/
  | ivCmp (ra rb : Nat) (short : Bool)
  /-- R615: AND and set flags. -/
  | ivTst (ra rb : Nat) (short : Bool)
  /-- R616: Shift left by register. -/
  | ivShl (rd ra rb : Nat) (short : Bool)
  /-- R616: Logical shift right by register. -/
  | ivShr (rd ra rb : Nat) (short : Bool)
  /-- R616: Arithmetic shift right by register. -/
  | ivSar (rd ra rb : Nat) (short : Bool)
  /-- R616: Rotate right by register. -/
  | ivRor (rd ra rb : Nat) (short : Bool)
  /-- R615: Shift left by immediate. -/
  | ivShli (rd ra n : Nat) (short : Bool)
  /-- R615: Logical shift right by immediate. -/
  | ivShri (rd ra n : Nat) (short : Bool)
  /-- R615: Arithmetic shift right by immediate. -/
  | ivSari (rd ra n : Nat) (short : Bool)
  /-- R615: Rotate right by immediate. -/
  | ivRori (rd ra n : Nat) (short : Bool)
  /-- R615: Sign-extend a byte. -/
  | ivSxb (rd ra : Nat) (short : Bool)
  /-- R615: Sign-extend a halfword. -/
  | ivSxh (rd ra : Nat) (short : Bool)
  /-- R615: Zero-extend a byte. -/
  | ivZxb (rd ra : Nat) (short : Bool)
  /-- R615: Zero-extend a halfword. -/
  | ivZxh (rd ra : Nat) (short : Bool)
  /-- R615: Add an immediate. -/
  | ivAddi (rd ra : Nat) (imm : Int) (short : Bool)
  /-- R615: AND an immediate. -/
  | ivAndi (rd ra imm : Nat)
  /-- R615: OR an immediate. -/
  | ivOri (rd ra imm : Nat)
  /-- R615: XOR an immediate. -/
  | ivXori (rd ra imm : Nat)
  /-- R615: Compare with an immediate. -/
  | ivCmpi (ra : Nat) (imm : Int) (short : Bool)
  /-- R615: Load an upper immediate. -/
  | ivLui (rd imm : Nat)
  /-- R615: Load a sign-extended immediate. -/
  | ivMovi (rd : Nat) (imm : Int) (short : Bool)
  /-- R617: Load a word. -/
  | ivLdw (rd ra : Nat) (imm : Int) (short : Bool)
  /-- R617: Load a signed halfword. -/
  | ivLdh (rd ra : Nat) (imm : Int)
  /-- R617: Load an unsigned halfword. -/
  | ivLdhu (rd ra : Nat) (imm : Int)
  /-- R617: Load a signed byte. -/
  | ivLdb (rd ra : Nat) (imm : Int)
  /-- R617: Load an unsigned byte. -/
  | ivLdbu (rd ra : Nat) (imm : Int) (short : Bool)
  /-- R617: Store a word. -/
  | ivStw (rd ra : Nat) (imm : Int) (short : Bool)
  /-- R617: Store a halfword. -/
  | ivSth (rd ra : Nat) (imm : Int)
  /-- R617: Store a byte. -/
  | ivStb (rd ra : Nat) (imm : Int) (short : Bool)
  /-- R617: Load a word from the data stack. -/
  | ivLdd (rd imm : Nat)
  /-- R617: Store a word to the data stack. -/
  | ivStd (rd imm : Nat)
  /-- R571: Push a register onto the data stack. -/
  | ivPush (ra : Nat) (short : Bool)
  /-- R571: Pop the data stack into a register. -/
  | ivPop (rd : Nat) (short : Bool)
  /-- R619: BA takes a bit. -/
  | ivLdbit (baddr : Nat) (x : Option Nat) (short : Bool)
  /-- R619: BA takes a bit inverted. -/
  | ivLdbitn (baddr : Nat) (x : Option Nat)
  /-- R619: BA ANDed with a bit. -/
  | ivAndb (baddr : Nat) (x : Option Nat) (short : Bool)
  /-- R619: BA ANDed with an inverted bit. -/
  | ivAndbn (baddr : Nat) (x : Option Nat)
  /-- R619: BA ORed with a bit. -/
  | ivOrb (baddr : Nat) (x : Option Nat) (short : Bool)
  /-- R619: BA ORed with an inverted bit. -/
  | ivOrbn (baddr : Nat) (x : Option Nat)
  /-- R619: BA XORed with a bit. -/
  | ivXorb (baddr : Nat) (x : Option Nat) (short : Bool)
  /-- R620: Store BA to a bit. -/
  | ivStbit (baddr : Nat) (x : Option Nat) (short : Bool)
  /-- R620: Store BA inverted to a bit. -/
  | ivStbitn (baddr : Nat) (x : Option Nat)
  /-- R620: Set a bit. -/
  | ivSetb (baddr : Nat) (x : Option Nat) (short : Bool)
  /-- R620: Clear a bit, including an event flag. -/
  | ivClrb (baddr : Nat) (x : Option Nat) (short : Bool)
  /-- R620: Invert a bit. -/
  | ivNotb (baddr : Nat) (x : Option Nat) (short : Bool)
  /-- R620: Test a bit into BA and then set it. -/
  | ivTstset (baddr : Nat) (x : Option Nat)
  /-- R619: Clear, set or invert BA. -/
  | ivBacc (n : Nat)
  /-- R622: Conditional branch with a delay slot. -/
  | ivBcc (cond : Nat) (disp : Int) (short : Bool)
  /-- R622: Jump with a delay slot. -/
  | ivJmp (disp : Int) (short : Bool)
  /-- R622: Push the return address and jump. -/
  | ivCall (disp : Int) (short : Bool)
  /-- R622: Jump to a register. -/
  | ivJr (ra : Nat) (short : Bool)
  /-- R622: Call to a register. -/
  | ivCallr (ra : Nat) (short : Bool)
  /-- R575: Pop a CALL entry into PC. -/
  | ivRet (short : Bool)
  /-- R595: Trap return: pop TST and TPC, resuming any repeat. -/
  | ivTret (short : Bool)
  /-- R624: Interlocked multiply, low word. -/
  | ivMul (rd ra rb : Nat)
  /-- R624: Signed multiply, high word. -/
  | ivMulhs (rd ra rb : Nat)
  /-- R624: Unsigned multiply, high word. -/
  | ivMulhu (rd ra rb : Nat)
  /-- R625: Legacy signed multiply into MDH:MDL. -/
  | ivMls (ra rb : Nat) (short : Bool)
  /-- R625: Legacy unsigned multiply into MDH:MDL. -/
  | ivMlu (ra rb : Nat) (short : Bool)
  /-- R626: CRC step over one byte. -/
  | ivCrcb (rd ra : Nat) (mem short : Bool)
  /-- R626: CRC step over two bytes. -/
  | ivCrch (rd ra : Nat) (mem short : Bool)
  /-- R626: CRC step over four bytes. -/
  | ivCrcw (rd ra : Nat) (mem short : Bool)
  /-- R623: BA takes the parity of a register. -/
  | ivPar (ra : Nat) (short : Bool)
  /-- R623: Bit-reverse a byte. -/
  | ivBrevB (rd ra : Nat) (short : Bool)
  /-- R623: Bit-reverse a halfword. -/
  | ivBrevH (rd ra : Nat) (short : Bool)
  /-- R623: Bit-reverse a word. -/
  | ivBrevW (rd ra : Nat) (short : Bool)
  /-- R628: Read a special register. -/
  | ivMfs (rd sr : Nat) (short : Bool)
  /-- R629: Write a special register. -/
  | ivMts (sr ra : Nat) (short : Bool)
  /-- R580: Repeat the next instruction n times without interrupt. -/
  | ivRpt (n : Nat) (reg short : Bool)
  /-- R580: Repeat the next instruction with interrupts between iterations. -/
  | ivRpti (n : Nat) (reg : Bool)
  /-- R640: Request entry to KEEPER, HIBERNATE or STANDBY. -/
  | ivSleep (mode : Nat) (short : Bool)
  /-- R588: Trap BREAK. -/
  | ivBreak (imm : Nat) (short : Bool)
  /-- R588: Trap SYSCALL. -/
  | ivSyscall (imm : Nat) (short : Bool)
  /-- R628: No operation. -/
  | ivNop (short : Bool)
  /-- R630: Stop fetching until an interrupt or warning. -/
  | ivWait
  /-- R618: Wait until earlier stores take effect. -/
  | ivSync
  /-- R634: A write of PM_MODE.TARGET moves between LISTEN, POLL and RUN, or is refused. -/
  | pmTargetWrite (v : Nat)
  /-- R640: The blocks go idle during sleep entry and the entry proceeds past AP2. -/
  | pmSleepDrainDone
  /-- R640: DRAIN_MAX passing before the drain ends abandons the sleep entry. -/
  | pmDrainTimeout
  /-- R640: The last steps of sleep entry end and mode m is entered. -/
  | pmEntryComplete
  /-- R647: An enabled wake source abandons an entry or wakes the device from a low mode. -/
  | pmWakeEvent (w : Nat)
  /-- R637: Every PERIOD ms in LISTEN the power manager sniffs each masked coil and opens a radio window. -/
  | pmSniffRound (currents : List (Nat × Nat))
  /-- R638: A sync word detected in the sniff window raises the SNIFF wake. -/
  | pmSniffRfSync (temp : Int)
  /-- R650: A brown-out cause enters HOLDUP, stopping every block and driving the release outputs low. -/
  | pmHoldupEntry (cause : Nat)
  /-- R655: At the end of HOLDUP the device resets, enters KEEPER or goes OFF. -/
  | pmHoldupExit (us vend vbat : Nat) (clear : Bool)
  /-- R654: VHOLD below 5.0 V stops the keeper at once and records CUT. -/
  | pmKeeperCut
  /-- R659: VHOLD crossing its thresholds asserts or withdraws HOLD_READY, and term 8 follows. -/
  | pmHoldReadyChange (vhold : Nat)
  /-- R660: Every 24 h the charger measures the VHOLD capacitance and sets or clears HOLD_FAULT. -/
  | pmCaptest (cap : Nat) (test : Bool)
  /-- R691: A write of PM_ALARM arms the alarm once, firing at once if the time has passed. -/
  | pmAlarmWrite (v : W32)
  /-- R691: The RTC reaching PM_ALARM sets ALARM and the RTC wake. -/
  | pmRtcAlarm
  /-- R664: CLK_CTRL.SYSPLL_EN starts SYSPLL once XTAL is good. -/
  | clkSyspllEn
  /-- R664: SYSPLL locks and sets PLL_LOCK. -/
  | clkPllLock
  /-- R664: CLK_CTRL.SEL moves the core and the system blocks to SYSPLL. -/
  | clkSel
  /-- R484: Basin becomes READY after SYSPLL is enabled, and the switch unparks. -/
  | clkBasinReady
  /-- R666: No XTAL edge for 2 µs moves the device to HFRC and stops XTAL-clocked work. -/
  | clkXtalFail
  /-- R666: 1 ms of good XTAL edges sets XTAL_OK again. -/
  | clkXtalOk
  /-- R667: An RTC crystal stopped for 1 ms is replaced by the LFRC. -/
  | clkRtcCrystalStop
  /-- R667: Every 60 s the LFRC is calibrated against XTAL. -/
  | clkLfrcCalibration (ppm : Int)
  /-- R670: CLK_RST.DEVRST with KEY 0x3C resets the device unless Saddle forbids it. -/
  | clkDevrst (key : Nat)
  /-- R669: A reset cause resets the domains of Table 19.2. -/
  | clkDeviceReset (cause : Nat)
  /-- R671: On release of reset the device runs the start-up of Table 19.3. -/
  | clkDeviceStart (hostsel xtalOk : Bool) (unfed : Nat)
  /-- R690: EV_CMD.SAVE stores the routing registers. -/
  | evSave (src : Src)
  /-- R683: EV_CMD.OCC_CLR clears the counters of one source. -/
  | evOccClr
  /-- R691: A write of EV_TMR restarts the timers. -/
  | evTmrWrite (v : W32)
  /-- R691: A timer period ends, sets its flag and reloads. -/
  | evTimerExpiry (n : Nat)
  /-- R692: SNP_CMD.TRIG takes a snapshot if armed. -/
  | evSnpTrig
  /-- R692: SNAP_IN rising takes a snapshot if armed. -/
  | evSnapIn
  /-- R693: SNP_CMD.ARM arms the snapshot. -/
  | evSnpArm
  /-- R693: Reading SEQ through SNP_STAT rearms the snapshot under AUTOARM. -/
  | evSnpStatRead
  /-- R704: SNP_CMD.CLR_CNT clears SNP_CNT. -/
  | evSnpClrCnt
  /-- R700: A write of an arbiter budget takes effect, revoking C2 grants on a cut. -/
  | evBudgetWrite (sys : Bool) (v : W32)
  /-- R704: ARB_CMD.CLR clears ARB_CNT and ARB_PEAK. -/
  | evArbClr
  /-- R708: PROVISION moves BLANK to PROVISIONED. -/
  | secProvision (req : Req) (payload : List Byte)
  /-- R714: KEY_INSTALL installs a clear or wrapped lessor domain key and resets AUTHSEQ. -/
  | secKeyInstall (req : Req) (payload : List Byte)
  /-- R709: DEPLOY moves PROVISIONED or TRANSFER to DEPLOYED. -/
  | secDeploy (req : Req) (payload : List Byte)
  /-- R709: An authorisation with OP 1 moves DEPLOYED to TRANSFER and records the decommission cause. -/
  | secAuthTransfer (req : Req) (payload : List Byte)
  /-- R710: An authorisation with OP 2 retires the device and freezes NV. -/
  | secAuthRetire (req : Req) (payload : List Byte)
  /-- R724: An authorisation with OP 3 clears the tamper latches. -/
  | secAuthTamperClear (req : Req) (payload : List Byte)
  /-- R725: An authorisation with OP 4 opens a debug level. -/
  | secAuthDebug (req : Req) (payload : List Byte)
  /-- R720: FW_BEGIN opens a firmware install. -/
  | secFwBegin (req : Req) (payload : List Byte)
  /-- R720: FW_WRITE writes image pages. -/
  | secFwWrite (req : Req) (payload : List Byte)
  /-- R720: FW_COMMIT verifies the image and writes the sealed header. -/
  | secFwCommit (req : Req) (payload : List Byte)
  /-- R722: FW_RESEAL verifies the installed image and rewrites its seal. -/
  | secFwReseal (req : Req) (payload : List Byte)
  /-- R723: A tamper input active for 122 µs sets its latch and records the tamper force cause. -/
  | secTamperDetect (n : Nat)
  /-- R745: A filtered tamper input returning inactive sets INACTIVE. -/
  | secTamperInactive (n : Nat)
  /-- R724: SEC_TAMP.CLEAR in BLANK or PROVISIONED clears the latches when the inputs are inactive. -/
  | secTamperClearWrite (src : Src)
  /-- R726: Debug ID returns the identity, lifecycle, AUTHSEQ and open level. -/
  | dbgId
  /-- R725: Debug AUTH presents a debug authorisation. -/
  | dbgAuth (auth : List Byte)
  /-- R725: Debug CLOSE ends the open level. -/
  | dbgClose
  /-- R727: Debug RD reads Ivler address space words. -/
  | dbgRd (addr n : Nat)
  /-- R727: Debug WR writes words as firmware. -/
  | dbgWr (addr : Nat) (ws : List W32)
  /-- R727: Debug HALT stops Ivler. -/
  | dbgHalt
  /-- R726: Debug RUN resumes Ivler. -/
  | dbgRun
  /-- R726: Debug STEP runs one instruction. -/
  | dbgStep
  /-- R727: Debug RESET is reset cause 7, subject to R670. -/
  | dbgReset (key : Nat)
  /-- R727: Debug TEST sets WLOCK and TEST in BLANK. -/
  | dbgTest
  /-- R734: A CAN frame with SID or RID is verified and forwarded as a VEHICLE frame, or discarded. -/
  | vioCanFrame (n : Nat) (ide : Bool) (id : Nat) (fd : Bool) (data : List Byte)
  /-- R730: A controller reaches bus-off and raises BUSOFF. -/
  | vioBusoff (n tec rxc : Nat)
  /-- R730: After 128 × 11 recessive bits the controller recovers and raises RECOVERED. -/
  | vioBusoffRecovery (n : Nat)
  /-- R739: A meter input edge starts or ends an active period, raising GLITCH or RATE where it applies. -/
  | vioMeterEdge (c active : Bool)
  /-- R739: An input held active for MINON qualifies a pulse, advancing the meter counter. -/
  | vioMeterPulse (c : Bool)
  /-- R742: A release pad reading other than its driven level for 2 µs sets REL_FAULT. -/
  | vioRelFault (b : Bool)
  /-- R749: VIO_CMD.CLR_CNT clears VIO_CANn_CNT. -/
  | vioClrCnt
  /-- R191: CLD_CMD.CLR_CNT clears the Cloade counters. -/
  | cldClrCnt
  /-- R615: The ADD instruction sets Rd to Ra + Rb and writes ZNCV. -/
  | ivAdd (rd ra rb : Nat) (short : Bool)
  /-- R235: During an RX window the radio detects the profile's sync word, stamps TSTAMP and commits to receiving the packet to its end even past TIME. -/
  | rfSyncDetected (rssi ferr : Nat)
  /-- R165: The Cloade reader detects a tag's 0xFE header, which stops the TNORESP count, holds FACT under R106 and commits the slot or command to SINGLE or COLLIDED. -/
  | cldUplinkHeader (ch : Nat)
  /-- R542: A Peluk member receives a cell's SOC and first code groups and begins forwarding the frame within 1.2 µs, before its CRC is known. -/
  | plSocReceived (link : Nat) (hdr head : List Byte)
  /-- R599: The Ivler transmit engine reads the last byte of its frame from SRAM and clears TXBUSY, so a new GO is accepted. -/
  | ivcTransmitEngineDone
  /-- R364: An expander instance finishes its 10 µs reseed from a full seed pool and resumes delivery to its waiting readers. -/
  | rngReseedDone (inst : Nat)
  /-- R502: The host engine's DMA read of a descriptor, and of its input buffer, completes; the engine assigns a slot, advances HEAD and sends the frame. -/
  | hostDescriptorFetch (desc : List Byte) (input : Option (List Byte))
  /-- R442: The PCI Express link finishes training; with DRIVER_OK set P8 comes up again and the LINK flag is raised. -/
  | hostPcieLinkUp
  /-- R649: PERST_N rising releases WAKE_N and starts PCI Express link training while the device is awake. -/
  | pmPerstNRise
  /-- R730: A CAN controller's error counters pass the error-passive limit under ISO 11898-1, which updates STATE and raises ERR_PASSIVE. -/
  | vioErrorPassive (n tec rxc : Nat)
  /-- R667: A fitted RTC crystal starts or resumes oscillating and, with RTC_LFRC at 0, the RTC moves back to it, setting RTC_XTAL and raising RTC_SRC. -/
  | clkRtcCrystalRunning
  /-- R483: The directory load from the NV image ends, clearing LOADING, raising LOADED and LOST, and releasing the waiting lookups and requests. -/
  | dirLoadEnd
  /-- R55: In RELEASED, an AGED hold term re-requested at its maximum age gets no result within ARM_TIMEOUT and is counted as lost. -/
  | sadTermRefreshTimeout (term : Nat)
  deriving DecidableEq, Repr

end Sys2Proof
end

