-- ==== Sys2Proof/Decode.lean ====
section
/-! DEFINITION. The command that a word spells by the table's bits. The block takes commands, not instruction words:
spec/opcode_table.json gives no row any bits, so no word spells a command. (The instruction words of the Ivler-2 core are decoded in
Machine/IvDecode.lean, where the debug port's STEP reads them.) -/

namespace Sys2Proof

/-- No row of the table has bits, so every word is turned down. -/
def decodeTableWord (_nbits _w : Nat) : Option Instr := none

end Sys2Proof
end

