-- ==== Sys2Proof/Machine/RegMap.lean ====
section
/-! DEFINITION. The register map of Table 25.2: the offset of every set-up register (`W`), every named field of the
register tables of the block chapters (`F`), and per block the list of registers with each field's bits, access code
(Table 0.1) and reset value. A field whose reset is loaded from a record carries its factory value here, and 0 where
its chapter states none. The SAD_PSLOTn and RF_PROFn words are numbered from the slot or profile base. -/

namespace Sys2Proof.Machine

abbrev W.idVendor : Nat := 0x0000
abbrev W.idRev : Nat := 0x0004
abbrev W.idDevnum : Nat := 0x0008
abbrev W.idDrvstat : Nat := 0x000C
abbrev W.idFeatDev (n : Nat) : Nat := 0x0010 + 0x4 * n
abbrev W.idFeatDrv (n : Nat) : Nat := 0x0020 + 0x4 * n
abbrev W.hrStat : Nat := 0x0400
abbrev W.hrErrcode : Nat := 0x0404
abbrev W.hrRej : Nat := 0x0408
abbrev W.hrCnt : Nat := 0x040C
abbrev W.hrEvf : Nat := 0x0410
abbrev W.hrEqBaseLo : Nat := 0x0440
abbrev W.hrEqBaseHi : Nat := 0x0444
abbrev W.hrEqCfg : Nat := 0x0448
abbrev W.hrEqStat : Nat := 0x044C
abbrev W.hrSqBaseLo (n : Nat) : Nat := 0x0500 + 0x40 * n
abbrev W.hrSqBaseHi (n : Nat) : Nat := 0x0504 + 0x40 * n
abbrev W.hrSqCfg (n : Nat) : Nat := 0x0508 + 0x40 * n
abbrev W.hrSqStat (n : Nat) : Nat := 0x050C + 0x40 * n
abbrev W.hrCqBaseLo (n : Nat) : Nat := 0x0510 + 0x40 * n
abbrev W.hrCqBaseHi (n : Nat) : Nat := 0x0514 + 0x40 * n
abbrev W.hrCqCfg (n : Nat) : Nat := 0x0518 + 0x40 * n
abbrev W.hrCqStat (n : Nat) : Nat := 0x051C + 0x40 * n
abbrev W.evSrc (n : Nat) : Nat := 0x1000 + 0x4 * n
abbrev W.evCmd : Nat := 0x1200
abbrev W.evOccidx : Nat := 0x1204
abbrev W.evOcc : Nat := 0x1208
abbrev W.evTmr : Nat := 0x120C
abbrev W.evRtcevf : Nat := 0x1210
abbrev W.evTmrevf : Nat := 0x1214
abbrev W.evPend (n : Nat) : Nat := 0x1220 + 0x4 * n
abbrev W.snpCtrl : Nat := 0x1800
abbrev W.snpCmd : Nat := 0x1804
abbrev W.snpStat : Nat := 0x1808
abbrev W.snpCnt : Nat := 0x180C
abbrev W.snpEvf : Nat := 0x1810
abbrev W.snpData (n : Nat) : Nat := 0x1900 + 0x4 * n
abbrev W.arbCoilbud : Nat := 0x1C00
abbrev W.arbSysbud : Nat := 0x1C04
abbrev W.arbCoilstat : Nat := 0x1C08
abbrev W.arbSysstat : Nat := 0x1C0C
abbrev W.arbCnt : Nat := 0x1C10
abbrev W.arbPeak : Nat := 0x1C14
abbrev W.arbCmd : Nat := 0x1C18
abbrev W.pmMode : Nat := 0x2000
abbrev W.pmStat : Nat := 0x2004
abbrev W.pmCtrl : Nat := 0x2008
abbrev W.pmLastentry : Nat := 0x200C
abbrev W.pmWakeen : Nat := 0x2010
abbrev W.pmWakesrc : Nat := 0x2014
abbrev W.pmAlarm : Nat := 0x2018
abbrev W.pmLsncfg : Nat := 0x201C
abbrev W.pmLsnmaskLo : Nat := 0x2020
abbrev W.pmLsnmaskHi : Nat := 0x2024
abbrev W.pmLsnrf : Nat := 0x2028
abbrev W.pmVhold : Nat := 0x202C
abbrev W.pmHoldcap : Nat := 0x2030
abbrev W.pmHoldinfo : Nat := 0x2034
abbrev W.pmEvf : Nat := 0x2038
abbrev W.pmWevf : Nat := 0x203C
abbrev W.clkCtrl : Nat := 0x2100
abbrev W.clkStat : Nat := 0x2104
abbrev W.clkRstcause : Nat := 0x2108
abbrev W.clkRst : Nat := 0x210C
abbrev W.clkLfrc : Nat := 0x2110
abbrev W.clkBoot : Nat := 0x2114
abbrev W.clkEvf : Nat := 0x2118
abbrev W.swCtrl : Nat := 0x3000
abbrev W.swStat : Nat := 0x3004
abbrev W.swCmd : Nat := 0x3008
abbrev W.swCnt0 : Nat := 0x300C
abbrev W.swCnt1 : Nat := 0x3010
abbrev W.swMgcmd : Nat := 0x3020
abbrev W.swMgbuf (n : Nat) : Nat := 0x3040 + 0x4 * n
abbrev W.swPCtrl (n : Nat) : Nat := 0x3100 + 0x40 * n
abbrev W.swPQ01 (n : Nat) : Nat := 0x3104 + 0x40 * n
abbrev W.swPQ23 (n : Nat) : Nat := 0x3108 + 0x40 * n
abbrev W.swPC0cfg (n : Nat) : Nat := 0x310C + 0x40 * n
abbrev W.swPStat (n : Nat) : Nat := 0x3110 + 0x40 * n
abbrev W.swPSdown (n : Nat) : Nat := 0x3114 + 0x40 * n
abbrev W.swPOcc01 (n : Nat) : Nat := 0x3118 + 0x40 * n
abbrev W.swPOcc23 (n : Nat) : Nat := 0x311C + 0x40 * n
abbrev W.swPCnt0 (n : Nat) : Nat := 0x3120 + 0x40 * n
abbrev W.swPCnt1 (n : Nat) : Nat := 0x3124 + 0x40 * n
abbrev W.swPEvf (n : Nat) : Nat := 0x3128 + 0x40 * n
abbrev W.bsnCtrl : Nat := 0x3800
abbrev W.bsnStat : Nat := 0x3804
abbrev W.bsnCmd : Nat := 0x3808
abbrev W.bsnPart0 : Nat := 0x3810
abbrev W.bsnPart1 : Nat := 0x3814
abbrev W.bsnPart2 : Nat := 0x3818
abbrev W.bsnPart3 : Nat := 0x381C
abbrev W.bsnPart4 : Nat := 0x3820
abbrev W.bsnFree : Nat := 0x3830
abbrev W.bsnCapfree : Nat := 0x3834
abbrev W.bsnCapstat : Nat := 0x3838
abbrev W.bsnEvf : Nat := 0x383C
abbrev W.dirCtrl : Nat := 0x3900
abbrev W.dirStat : Nat := 0x3904
abbrev W.dirCmd : Nat := 0x3908
abbrev W.dirResult : Nat := 0x390C
abbrev W.dirRindex : Nat := 0x3910
abbrev W.dirLost : Nat := 0x3914
abbrev W.dirCache : Nat := 0x3918
abbrev W.dirGrpidx : Nat := 0x391C
abbrev W.dirGrpcnt : Nat := 0x3920
abbrev W.dirEvf : Nat := 0x3924
abbrev W.dirBuf (n : Nat) : Nat := 0x3940 + 0x4 * n
abbrev W.coilCtrl : Nat := 0x4000
abbrev W.coilSep : Nat := 0x4004
abbrev W.coilStat : Nat := 0x4008
abbrev W.coilCmd : Nat := 0x400C
abbrev W.coilMapcfg : Nat := 0x4010
abbrev W.coilMapidx : Nat := 0x4014
abbrev W.coilMapdata : Nat := 0x4018
abbrev W.coilPgidx : Nat := 0x401C
abbrev W.coilPgdata : Nat := 0x4020
abbrev W.coilPgcfg : Nat := 0x4024
abbrev W.coilGrant : Nat := 0x4028
abbrev W.coilGrpCfg (n : Nat) : Nat := 0x4080 + 0x10 * n
abbrev W.coilGrpStat (n : Nat) : Nat := 0x4084 + 0x10 * n
abbrev W.coilGrpEvf (n : Nat) : Nat := 0x4088 + 0x10 * n
abbrev W.coilChCtrl (n : Nat) : Nat := 0x4100 + 0x20 * n
abbrev W.coilChFnom (n : Nat) : Nat := 0x4104 + 0x20 * n
abbrev W.coilChRes (n : Nat) : Nat := 0x4108 + 0x20 * n
abbrev W.coilChAct (n : Nat) : Nat := 0x410C + 0x20 * n
abbrev W.coilChStat (n : Nat) : Nat := 0x4110 + 0x20 * n
abbrev W.coilChEvf (n : Nat) : Nat := 0x4114 + 0x20 * n
abbrev W.cldCfg : Nat := 0x4800
abbrev W.cldWakemaskLo : Nat := 0x4804
abbrev W.cldWakemaskHi : Nat := 0x4808
abbrev W.cldStat : Nat := 0x480C
abbrev W.cldCnt0 : Nat := 0x4810
abbrev W.cldCnt1 : Nat := 0x4814
abbrev W.cldCmd : Nat := 0x4818
abbrev W.cldTx (n : Nat) : Nat := 0x4840 + 0x4 * n
abbrev W.rfCtrl : Nat := 0x5000
abbrev W.rfStat : Nat := 0x5004
abbrev W.rfCmd : Nat := 0x5008
abbrev W.rfAntmap : Nat := 0x500C
abbrev W.rfRegidx : Nat := 0x5010
abbrev W.rfRegdata : Nat := 0x5014
abbrev W.rfFreq : Nat := 0x5018
abbrev W.rfCal : Nat := 0x501C
abbrev W.rfRssi : Nat := 0x5020
abbrev W.rfCnt0 : Nat := 0x5024
abbrev W.rfCnt1 : Nat := 0x5028
abbrev W.rfDcstat : Nat := 0x502C
abbrev W.rfTstamp : Nat := 0x5030
abbrev W.rfEvf : Nat := 0x5034
abbrev W.rfDuty (n : Nat) : Nat := 0x5040 + 0x4 * n
abbrev W.rfProfW0 (n : Nat) : Nat := 0x5080 + 0x10 * n
abbrev W.rfProfW1 (n : Nat) : Nat := 0x5084 + 0x10 * n
abbrev W.rfProfW2 (n : Nat) : Nat := 0x5088 + 0x10 * n
abbrev W.rfProfW3 (n : Nat) : Nat := 0x508C + 0x10 * n
abbrev W.rfPwrtab (n : Nat) : Nat := 0x5100 + 0x4 * n
abbrev W.prxCtrl : Nat := 0x5800
abbrev W.prxStat : Nat := 0x5804
abbrev W.prxCmd : Nat := 0x5808
abbrev W.prxSweepid : Nat := 0x580C
abbrev W.prxPlan : Nat := 0x5810
abbrev W.prxFl : Nat := 0x5814
abbrev W.prxFh : Nat := 0x5818
abbrev W.prxStep : Nat := 0x581C
abbrev W.prxThr0 : Nat := 0x5820
abbrev W.prxThr1 : Nat := 0x5824
abbrev W.prxThr2 : Nat := 0x5828
abbrev W.prxCal0 : Nat := 0x582C
abbrev W.prxCal1 : Nat := 0x5830
abbrev W.prxLfcal (n : Nat) : Nat := 0x5840 + 0x4 * n
abbrev W.prxLast (n : Nat) : Nat := 0x5850 + 0x4 * n
abbrev W.prxCnt0 : Nat := 0x5878
abbrev W.prxCnt1 : Nat := 0x587C
abbrev W.prxEvf : Nat := 0x5880
abbrev W.cphCtrl : Nat := 0x6000
abbrev W.cphStat : Nat := 0x6004
abbrev W.cphRes : Nat := 0x6008
abbrev W.cphCmd : Nat := 0x600C
abbrev W.cphNcidx : Nat := 0x6010
abbrev W.cphNcstat : Nat := 0x6014
abbrev W.cphNcinv : Nat := 0x6018
abbrev W.cphNcsaved : Nat := 0x601C
abbrev W.cphCnt0 : Nat := 0x6020
abbrev W.cphCnt1 : Nat := 0x6024
abbrev W.cphBoot : Nat := 0x6028
abbrev W.cphEvf0 : Nat := 0x602C
abbrev W.cphEvf1 : Nat := 0x6030
abbrev W.cphCc (n : Nat) : Nat := 0x6040 + 0x4 * n
abbrev W.cphCcEvf (n : Nat) : Nat := 0x6060 + 0x4 * n
abbrev W.rngCtrl : Nat := 0x6800
abbrev W.rngStat : Nat := 0x6804
abbrev W.rngData : Nat := 0x6808
abbrev W.rngRaw : Nat := 0x680C
abbrev W.rngCmd : Nat := 0x6810
abbrev W.rngFailcnt : Nat := 0x6814
abbrev W.rngHtcfg : Nat := 0x6818
abbrev W.rngRscnt : Nat := 0x681C
abbrev W.rngEvf : Nat := 0x6820
abbrev W.nvCtrl : Nat := 0x7000
abbrev W.nvStat : Nat := 0x7004
abbrev W.nvProt : Nat := 0x7008
abbrev W.nvCmd : Nat := 0x700C
abbrev W.nvAddr : Nat := 0x7010
abbrev W.nvXfer : Nat := 0x7014
abbrev W.nvResult : Nat := 0x7018
abbrev W.nvRecseq : Nat := 0x701C
abbrev W.nvTorncnt : Nat := 0x7020
abbrev W.nvTornidx : Nat := 0x7024
abbrev W.nvTornpg : Nat := 0x7028
abbrev W.nvAbcnt : Nat := 0x702C
abbrev W.nvScrublast : Nat := 0x7030
abbrev W.nvScrubpos : Nat := 0x7034
abbrev W.nvCnt : Nat := 0x7038
abbrev W.nvEvf : Nat := 0x703C
abbrev W.nvAbandon (n : Nat) : Nat := 0x7040 + 0x4 * n
abbrev W.nvRecdA (n : Nat) : Nat := 0x7080 + 0x10 * n
abbrev W.nvRecdB (n : Nat) : Nat := 0x7084 + 0x10 * n
abbrev W.nvRecdCfg (n : Nat) : Nat := 0x7088 + 0x10 * n
abbrev W.nvWbuf (n : Nat) : Nat := 0x7100 + 0x4 * n
abbrev W.nvRbuf (n : Nat) : Nat := 0x7180 + 0x4 * n
abbrev W.ptCfg : Nat := 0x7800
abbrev W.ptStat : Nat := 0x7804
abbrev W.ptUidLo : Nat := 0x7808
abbrev W.ptUidHi : Nat := 0x780C
abbrev W.ptCmd : Nat := 0x7810
abbrev W.ptResult : Nat := 0x7814
abbrev W.ptWdata (n : Nat) : Nat := 0x7820 + 0x4 * n
abbrev W.ptRdata (n : Nat) : Nat := 0x7830 + 0x4 * n
abbrev W.ptMbox : Nat := 0x7840
abbrev W.ptEvf : Nat := 0x7844
abbrev W.ptCnt : Nat := 0x7848
abbrev W.sadCtrl : Nat := 0x8000
abbrev W.sadStat : Nat := 0x8004
abbrev W.sadCtx : Nat := 0x8008
abbrev W.sadCmd : Nat := 0x800C
abbrev W.sadCause : Nat := 0x8010
abbrev W.sadTerms : Nat := 0x8014
abbrev W.sadPulse : Nat := 0x8018
abbrev W.sadFb : Nat := 0x801C
abbrev W.sadEvf : Nat := 0x8020
abbrev W.sadAge (n : Nat) : Nat := 0x8040 + 0x4 * n
abbrev W.sadPslotW0 (n : Nat) : Nat := 0x8100 + 0x40 * n
abbrev W.sadPslotW1 (n : Nat) : Nat := 0x8104 + 0x40 * n
abbrev W.sadPslotW2 (n : Nat) : Nat := 0x8108 + 0x40 * n
abbrev W.sadPslotW3 (n : Nat) : Nat := 0x810C + 0x40 * n
abbrev W.sadPslotW4 (n : Nat) : Nat := 0x8110 + 0x40 * n
abbrev W.sadPslotW5 (n : Nat) : Nat := 0x8114 + 0x40 * n
abbrev W.sadPslotW6 (n : Nat) : Nat := 0x8118 + 0x40 * n
abbrev W.sadPslotW7 (n : Nat) : Nat := 0x811C + 0x40 * n
abbrev W.sadPslotW8 (n : Nat) : Nat := 0x8120 + 0x40 * n
abbrev W.sadPslotW9 (n : Nat) : Nat := 0x8124 + 0x40 * n
abbrev W.sadPslotW10 (n : Nat) : Nat := 0x8128 + 0x40 * n
abbrev W.ledCtrl : Nat := 0x8800
abbrev W.ledStat : Nat := 0x8804
abbrev W.ledCredit : Nat := 0x8808
abbrev W.ledAvail : Nat := 0x880C
abbrev W.ledGrace : Nat := 0x8810
abbrev W.ledGcap : Nat := 0x8814
abbrev W.ledLowmark : Nat := 0x8818
abbrev W.ledDpulseLo : Nat := 0x8820
abbrev W.ledDpulseHi : Nat := 0x8824
abbrev W.ledCpulseLo : Nat := 0x8828
abbrev W.ledCpulseHi : Nat := 0x882C
abbrev W.ledLeasewh : Nat := 0x8830
abbrev W.ledSeqLo : Nat := 0x8834
abbrev W.ledSeqHi : Nat := 0x8838
abbrev W.ledLease : Nat := 0x883C
abbrev W.ledWstart : Nat := 0x8840
abbrev W.ledWend : Nat := 0x8844
abbrev W.ledKseq : Nat := 0x8848
abbrev W.ledCmd : Nat := 0x884C
abbrev W.ledEvf : Nat := 0x8850
abbrev W.plCtrl : Nat := 0x9000
abbrev W.plStat : Nat := 0x9004
abbrev W.plCmd : Nat := 0x9008
abbrev W.plLink0 : Nat := 0x900C
abbrev W.plLink1 : Nat := 0x9010
abbrev W.plReach0Lo : Nat := 0x9014
abbrev W.plReach0Hi : Nat := 0x9018
abbrev W.plReach1Lo : Nat := 0x901C
abbrev W.plReach1Hi : Nat := 0x9020
abbrev W.plCnt0 : Nat := 0x9024
abbrev W.plCnt1 : Nat := 0x9028
abbrev W.plSlots : Nat := 0x902C
abbrev W.plEvf : Nat := 0x9030
abbrev W.vioStat : Nat := 0x9800
abbrev W.vioCmd : Nat := 0x9804
abbrev W.vioDest : Nat := 0x9808
abbrev W.vioMtrcfg : Nat := 0x980C
abbrev W.vioCanCfg (n : Nat) : Nat := 0x9810 + 0x20 * n
abbrev W.vioCanSid (n : Nat) : Nat := 0x9814 + 0x20 * n
abbrev W.vioCanRid (n : Nat) : Nat := 0x9818 + 0x20 * n
abbrev W.vioCanStat (n : Nat) : Nat := 0x981C + 0x20 * n
abbrev W.vioCanCnt (n : Nat) : Nat := 0x9820 + 0x20 * n
abbrev W.vioCanEvf (n : Nat) : Nat := 0x9824 + 0x20 * n
abbrev W.vioStsctr : Nat := 0x9850
abbrev W.vioReqctr : Nat := 0x9854
abbrev W.vioEpdcnt : Nat := 0x9858
abbrev W.vioEpccnt : Nat := 0x985C
abbrev W.vioEpdevf : Nat := 0x9860
abbrev W.vioEpcevf : Nat := 0x9864
abbrev W.vioTampevf (n : Nat) : Nat := 0x9870 + 0x4 * n
abbrev W.vioGpcfg0 : Nat := 0x9880
abbrev W.vioGpcfg1 : Nat := 0x9884
abbrev W.secStat : Nat := 0xA000
abbrev W.secEpoch : Nat := 0xA004
abbrev W.secAuthseqLo : Nat := 0xA008
abbrev W.secAuthseqHi : Nat := 0xA00C
abbrev W.secDevid (n : Nat) : Nat := 0xA010 + 0x4 * n
abbrev W.secTampcfg : Nat := 0xA020
abbrev W.secTamp : Nat := 0xA024
abbrev W.secFw : Nat := 0xA028
abbrev W.secFwver : Nat := 0xA02C
abbrev W.ivcCtrl : Nat := 0xA800
abbrev W.ivcStat : Nat := 0xA804
abbrev W.ivcTrap : Nat := 0xA808
abbrev W.ivcTrappc : Nat := 0xA80C
abbrev W.ivcFwext : Nat := 0xA810
abbrev W.ivcWdt : Nat := 0xA814
abbrev W.ivcWdkick : Nat := 0xA818
abbrev W.ivcTxaddr : Nat := 0xA81C
abbrev W.ivcTxctl : Nat := 0xA820
abbrev W.ivcEvf : Nat := 0xA824
abbrev W.ivcQBase (n : Nat) : Nat := 0xA900 + 0x10 * n
abbrev W.ivcQCfg (n : Nat) : Nat := 0xA904 + 0x10 * n
abbrev W.ivcQHead (n : Nat) : Nat := 0xA908 + 0x10 * n
abbrev W.ivcQTail (n : Nat) : Nat := 0xA90C + 0x10 * n

abbrev F.idVendor_vendor : Fd := ⟨0x0000, 15, 0⟩
abbrev F.idVendor_device : Fd := ⟨0x0000, 31, 16⟩
abbrev F.idRev_step : Fd := ⟨0x0004, 7, 0⟩
abbrev F.idDevnum_devid : Fd := ⟨0x0008, 5, 0⟩
abbrev F.idDevnum_head : Fd := ⟨0x0008, 6, 6⟩
abbrev F.idDevnum_hostsel : Fd := ⟨0x0008, 7, 7⟩
abbrev F.idDrvstat_features : Fd := ⟨0x000C, 0, 0⟩
abbrev F.idDrvstat_driverOk : Fd := ⟨0x000C, 1, 1⟩
abbrev F.idDrvstat_reset : Fd := ⟨0x000C, 2, 2⟩
abbrev F.idDrvstat_featuresOk : Fd := ⟨0x000C, 8, 8⟩
abbrev F.idDrvstat_featureFail : Fd := ⟨0x000C, 9, 9⟩
abbrev F.idFeatDev_bits (n : Nat) : Fd := ⟨0x0010 + 0x4 * n, 31, 0⟩
abbrev F.idFeatDrv_bits (n : Nat) : Fd := ⟨0x0020 + 0x4 * n, 31, 0⟩
abbrev F.hrStat_slots : Fd := ⟨0x0400, 6, 0⟩
abbrev F.hrErrcode_cause : Fd := ⟨0x0404, 3, 0⟩
abbrev F.hrErrcode_ring : Fd := ⟨0x0404, 7, 4⟩
abbrev F.hrRej_offset : Fd := ⟨0x0408, 15, 0⟩
abbrev F.hrRej_src : Fd := ⟨0x0408, 17, 16⟩
abbrev F.hrCnt_staleCpl : Fd := ⟨0x040C, 15, 0⟩
abbrev F.hrCnt_dbIgn : Fd := ⟨0x040C, 31, 16⟩
abbrev F.hrEvf_ringErr : Fd := ⟨0x0410, 0, 0⟩
abbrev F.hrEvf_cfgReject : Fd := ⟨0x0410, 1, 1⟩
abbrev F.hrEvf_link : Fd := ⟨0x0410, 2, 2⟩
abbrev F.hrEvf_feature : Fd := ⟨0x0410, 3, 3⟩
abbrev F.hrEqBaseLo_base : Fd := ⟨0x0440, 31, 0⟩
abbrev F.hrEqBaseHi_base : Fd := ⟨0x0444, 31, 0⟩
abbrev F.hrEqCfg_size : Fd := ⟨0x0448, 3, 0⟩
abbrev F.hrEqCfg_en : Fd := ⟨0x0448, 4, 4⟩
abbrev F.hrEqCfg_irqEn : Fd := ⟨0x0448, 5, 5⟩
abbrev F.hrEqCfg_vector : Fd := ⟨0x0448, 12, 8⟩
abbrev F.hrEqStat_tail : Fd := ⟨0x044C, 11, 0⟩
abbrev F.hrEqStat_phase : Fd := ⟨0x044C, 12, 12⟩
abbrev F.hrEqStat_head : Fd := ⟨0x044C, 27, 16⟩
abbrev F.hrEqStat_overflow : Fd := ⟨0x044C, 31, 31⟩
abbrev F.hrSqBaseLo_base (n : Nat) : Fd := ⟨0x0500 + 0x40 * n, 31, 0⟩
abbrev F.hrSqBaseHi_base (n : Nat) : Fd := ⟨0x0504 + 0x40 * n, 31, 0⟩
abbrev F.hrSqCfg_size (n : Nat) : Fd := ⟨0x0508 + 0x40 * n, 3, 0⟩
abbrev F.hrSqCfg_en (n : Nat) : Fd := ⟨0x0508 + 0x40 * n, 4, 4⟩
abbrev F.hrSqCfg_cq (n : Nat) : Fd := ⟨0x0508 + 0x40 * n, 11, 8⟩
abbrev F.hrSqStat_head (n : Nat) : Fd := ⟨0x050C + 0x40 * n, 11, 0⟩
abbrev F.hrSqStat_tail (n : Nat) : Fd := ⟨0x050C + 0x40 * n, 27, 16⟩
abbrev F.hrSqStat_err (n : Nat) : Fd := ⟨0x050C + 0x40 * n, 28, 28⟩
abbrev F.hrCqBaseLo_base (n : Nat) : Fd := ⟨0x0510 + 0x40 * n, 31, 0⟩
abbrev F.hrCqBaseHi_base (n : Nat) : Fd := ⟨0x0514 + 0x40 * n, 31, 0⟩
abbrev F.hrCqCfg_size (n : Nat) : Fd := ⟨0x0518 + 0x40 * n, 3, 0⟩
abbrev F.hrCqCfg_en (n : Nat) : Fd := ⟨0x0518 + 0x40 * n, 4, 4⟩
abbrev F.hrCqCfg_irqEn (n : Nat) : Fd := ⟨0x0518 + 0x40 * n, 5, 5⟩
abbrev F.hrCqCfg_vector (n : Nat) : Fd := ⟨0x0518 + 0x40 * n, 12, 8⟩
abbrev F.hrCqStat_tail (n : Nat) : Fd := ⟨0x051C + 0x40 * n, 11, 0⟩
abbrev F.hrCqStat_phase (n : Nat) : Fd := ⟨0x051C + 0x40 * n, 12, 12⟩
abbrev F.hrCqStat_head (n : Nat) : Fd := ⟨0x051C + 0x40 * n, 27, 16⟩
abbrev F.hrCqStat_full (n : Nat) : Fd := ⟨0x051C + 0x40 * n, 28, 28⟩
abbrev F.evSrc_fmask (n : Nat) : Fd := ⟨0x1000 + 0x4 * n, 15, 0⟩
abbrev F.evSrc_level (n : Nat) : Fd := ⟨0x1000 + 0x4 * n, 18, 16⟩
abbrev F.evSrc_post (n : Nat) : Fd := ⟨0x1000 + 0x4 * n, 19, 19⟩
abbrev F.evSrc_log (n : Nat) : Fd := ⟨0x1000 + 0x4 * n, 20, 20⟩
abbrev F.evSrc_saddle (n : Nat) : Fd := ⟨0x1000 + 0x4 * n, 21, 21⟩
abbrev F.evCmd_save : Fd := ⟨0x1200, 0, 0⟩
abbrev F.evCmd_occClr : Fd := ⟨0x1200, 1, 1⟩
abbrev F.evOccidx_src : Fd := ⟨0x1204, 6, 0⟩
abbrev F.evOccidx_flag : Fd := ⟨0x1204, 11, 8⟩
abbrev F.evOcc_srcOcc : Fd := ⟨0x1208, 7, 0⟩
abbrev F.evOcc_flagOcc : Fd := ⟨0x1208, 15, 8⟩
abbrev F.evTmr_period0 : Fd := ⟨0x120C, 15, 0⟩
abbrev F.evTmr_period1 : Fd := ⟨0x120C, 31, 16⟩
abbrev F.evRtcevf_alarm : Fd := ⟨0x1210, 0, 0⟩
abbrev F.evRtcevf_minute : Fd := ⟨0x1210, 1, 1⟩
abbrev F.evTmrevf_tmr0 : Fd := ⟨0x1214, 0, 0⟩
abbrev F.evTmrevf_tmr1 : Fd := ⟨0x1214, 1, 1⟩
abbrev F.evPend_pend (n : Nat) : Fd := ⟨0x1220 + 0x4 * n, 31, 0⟩
abbrev F.snpCtrl_inEn : Fd := ⟨0x1800, 0, 0⟩
abbrev F.snpCtrl_outEn : Fd := ⟨0x1800, 1, 1⟩
abbrev F.snpCtrl_evEn : Fd := ⟨0x1800, 2, 2⟩
abbrev F.snpCtrl_autoarm : Fd := ⟨0x1800, 3, 3⟩
abbrev F.snpCtrl_evsrc : Fd := ⟨0x1800, 10, 4⟩
abbrev F.snpCmd_trig : Fd := ⟨0x1804, 0, 0⟩
abbrev F.snpCmd_arm : Fd := ⟨0x1804, 1, 1⟩
abbrev F.snpCmd_clrCnt : Fd := ⟨0x1804, 2, 2⟩
abbrev F.snpStat_armed : Fd := ⟨0x1808, 0, 0⟩
abbrev F.snpStat_valid : Fd := ⟨0x1808, 1, 1⟩
abbrev F.snpStat_cause : Fd := ⟨0x1808, 4, 2⟩
abbrev F.snpStat_seq : Fd := ⟨0x1808, 31, 16⟩
abbrev F.snpCnt_missed : Fd := ⟨0x180C, 15, 0⟩
abbrev F.snpCnt_taken : Fd := ⟨0x180C, 31, 16⟩
abbrev F.snpEvf_taken : Fd := ⟨0x1810, 0, 0⟩
abbrev F.snpEvf_missed : Fd := ⟨0x1810, 1, 1⟩
abbrev F.snpData_data (n : Nat) : Fd := ⟨0x1900 + 0x4 * n, 31, 0⟩
abbrev F.arbCoilbud_budget : Fd := ⟨0x1C00, 10, 0⟩
abbrev F.arbSysbud_budget : Fd := ⟨0x1C04, 8, 0⟩
abbrev F.arbCoilstat_held : Fd := ⟨0x1C08, 10, 0⟩
abbrev F.arbCoilstat_resvC0 : Fd := ⟨0x1C08, 26, 16⟩
abbrev F.arbSysstat_held : Fd := ⟨0x1C0C, 8, 0⟩
abbrev F.arbCnt_refused : Fd := ⟨0x1C10, 15, 0⟩
abbrev F.arbCnt_revoked : Fd := ⟨0x1C10, 31, 16⟩
abbrev F.arbPeak_coil : Fd := ⟨0x1C14, 10, 0⟩
abbrev F.arbPeak_sys : Fd := ⟨0x1C14, 24, 16⟩
abbrev F.arbCmd_clr : Fd := ⟨0x1C18, 0, 0⟩
abbrev F.pmMode_target : Fd := ⟨0x2000, 2, 0⟩
abbrev F.pmStat_current : Fd := ⟨0x2004, 2, 0⟩
abbrev F.pmStat_holdReady : Fd := ⟨0x2004, 3, 3⟩
abbrev F.pmStat_holdFault : Fd := ⟨0x2004, 4, 4⟩
abbrev F.pmStat_charging : Fd := ⟨0x2004, 5, 5⟩
abbrev F.pmStat_keepDirty : Fd := ⟨0x2004, 6, 6⟩
abbrev F.pmStat_captest : Fd := ⟨0x2004, 7, 7⟩
abbrev F.pmStat_lastcause : Fd := ⟨0x2004, 10, 8⟩
abbrev F.pmCtrl_pfailEn : Fd := ⟨0x2008, 0, 0⟩
abbrev F.pmCtrl_wakenEn : Fd := ⟨0x2008, 1, 1⟩
abbrev F.pmCtrl_captestEn : Fd := ⟨0x2008, 2, 2⟩
abbrev F.pmCtrl_vbo : Fd := ⟨0x2008, 15, 8⟩
abbrev F.pmCtrl_drainMax : Fd := ⟨0x2008, 31, 16⟩
abbrev F.pmLastentry_result : Fd := ⟨0x200C, 2, 0⟩
abbrev F.pmLastentry_mode : Fd := ⟨0x200C, 4, 3⟩
abbrev F.pmLastentry_wakesrc : Fd := ⟨0x200C, 15, 8⟩
abbrev F.pmWakeen_tamper : Fd := ⟨0x2010, 0, 0⟩
abbrev F.pmWakeen_vbatret : Fd := ⟨0x2010, 1, 1⟩
abbrev F.pmWakeen_srcen : Fd := ⟨0x2010, 9, 2⟩
abbrev F.pmWakeen_gp : Fd := ⟨0x2010, 17, 10⟩
abbrev F.pmWakeen_custody : Fd := ⟨0x2010, 18, 18⟩
abbrev F.pmWakesrc_src : Fd := ⟨0x2014, 18, 0⟩
abbrev F.pmAlarm_time : Fd := ⟨0x2018, 31, 0⟩
abbrev F.pmLsncfg_period : Fd := ⟨0x201C, 11, 0⟩
abbrev F.pmLsncfg_step : Fd := ⟨0x201C, 15, 12⟩
abbrev F.pmLsncfg_thr : Fd := ⟨0x201C, 23, 16⟩
abbrev F.pmLsncfg_rfprof : Fd := ⟨0x201C, 26, 24⟩
abbrev F.pmLsncfg_rfEn : Fd := ⟨0x201C, 27, 27⟩
abbrev F.pmLsnmaskLo_mask : Fd := ⟨0x2020, 31, 0⟩
abbrev F.pmLsnmaskHi_mask : Fd := ⟨0x2024, 15, 0⟩
abbrev F.pmLsnrf_freq : Fd := ⟨0x2028, 19, 0⟩
abbrev F.pmLsnrf_win : Fd := ⟨0x2028, 31, 20⟩
abbrev F.pmVhold_vhold : Fd := ⟨0x202C, 7, 0⟩
abbrev F.pmHoldcap_cap : Fd := ⟨0x2030, 9, 0⟩
abbrev F.pmHoldcap_cmin : Fd := ⟨0x2030, 25, 16⟩
abbrev F.pmHoldinfo_timeUs : Fd := ⟨0x2034, 12, 0⟩
abbrev F.pmHoldinfo_saved : Fd := ⟨0x2034, 13, 13⟩
abbrev F.pmHoldinfo_skipped : Fd := ⟨0x2034, 14, 14⟩
abbrev F.pmHoldinfo_cut : Fd := ⟨0x2034, 15, 15⟩
abbrev F.pmHoldinfo_vend : Fd := ⟨0x2034, 23, 16⟩
abbrev F.pmEvf_holdReady : Fd := ⟨0x2038, 0, 0⟩
abbrev F.pmEvf_holdFault : Fd := ⟨0x2038, 1, 1⟩
abbrev F.pmEvf_holdupSeen : Fd := ⟨0x2038, 2, 2⟩
abbrev F.pmEvf_captest : Fd := ⟨0x2038, 3, 3⟩
abbrev F.pmWevf_wake : Fd := ⟨0x203C, 0, 0⟩
abbrev F.pmWevf_abandon : Fd := ⟨0x203C, 1, 1⟩
abbrev F.pmWevf_refused : Fd := ⟨0x203C, 2, 2⟩
abbrev F.pmWevf_modeChg : Fd := ⟨0x203C, 3, 3⟩
abbrev F.clkCtrl_syspllEn : Fd := ⟨0x2100, 0, 0⟩
abbrev F.clkCtrl_sel : Fd := ⟨0x2100, 1, 1⟩
abbrev F.clkCtrl_rtcLfrc : Fd := ⟨0x2100, 2, 2⟩
abbrev F.clkCtrl_xinClipped : Fd := ⟨0x2100, 3, 3⟩
abbrev F.clkStat_xtalOk : Fd := ⟨0x2104, 0, 0⟩
abbrev F.clkStat_pllLock : Fd := ⟨0x2104, 1, 1⟩
abbrev F.clkStat_onPll : Fd := ⟨0x2104, 2, 2⟩
abbrev F.clkStat_rtcXtal : Fd := ⟨0x2104, 3, 3⟩
abbrev F.clkStat_cfgDone : Fd := ⟨0x2104, 4, 4⟩
abbrev F.clkStat_selErr : Fd := ⟨0x2104, 5, 5⟩
abbrev F.clkStat_xtalFail : Fd := ⟨0x2104, 6, 6⟩
abbrev F.clkRstcause_cause : Fd := ⟨0x2108, 3, 0⟩
abbrev F.clkRst_devrst : Fd := ⟨0x210C, 0, 0⟩
abbrev F.clkRst_key : Fd := ⟨0x210C, 15, 8⟩
abbrev F.clkLfrc_ppm : Fd := ⟨0x2110, 15, 0⟩
abbrev F.clkBoot_result : Fd := ⟨0x2114, 1, 0⟩
abbrev F.clkBoot_wide16 : Fd := ⟨0x2114, 2, 2⟩
abbrev F.clkBoot_authUs : Fd := ⟨0x2114, 31, 16⟩
abbrev F.clkEvf_xtalFail : Fd := ⟨0x2118, 0, 0⟩
abbrev F.clkEvf_bootFail : Fd := ⟨0x2118, 1, 1⟩
abbrev F.clkEvf_rtcSrc : Fd := ⟨0x2118, 2, 2⟩
abbrev F.swCtrl_age : Fd := ⟨0x3000, 7, 0⟩
abbrev F.swStat_stopped : Fd := ⟨0x3004, 0, 0⟩
abbrev F.swStat_parked : Fd := ⟨0x3004, 1, 1⟩
abbrev F.swStat_quotaErr : Fd := ⟨0x3004, 2, 2⟩
abbrev F.swStat_poolFree : Fd := ⟨0x3004, 25, 8⟩
abbrev F.swCmd_stop : Fd := ⟨0x3008, 0, 0⟩
abbrev F.swCmd_start : Fd := ⟨0x3008, 1, 1⟩
abbrev F.swCmd_save : Fd := ⟨0x3008, 2, 2⟩
abbrev F.swCmd_clrCnt : Fd := ⟨0x3008, 3, 3⟩
abbrev F.swCnt0_hcrc : Fd := ⟨0x300C, 15, 0⟩
abbrev F.swCnt0_baddesc : Fd := ⟨0x300C, 31, 16⟩
abbrev F.swCnt1_gap : Fd := ⟨0x3010, 15, 0⟩
abbrev F.swCnt1_orphan : Fd := ⟨0x3010, 31, 16⟩
abbrev F.swMgcmd_group : Fd := ⟨0x3020, 7, 0⟩
abbrev F.swMgcmd_read : Fd := ⟨0x3020, 8, 8⟩
abbrev F.swMgcmd_write : Fd := ⟨0x3020, 9, 9⟩
abbrev F.swMgcmd_revoke : Fd := ⟨0x3020, 10, 10⟩
abbrev F.swMgbuf_data (n : Nat) : Fd := ⟨0x3040 + 0x4 * n, 31, 0⟩
abbrev F.swPCtrl_en (n : Nat) : Fd := ⟨0x3100 + 0x40 * n, 0, 0⟩
abbrev F.swPCtrl_ct (n : Nat) : Fd := ⟨0x3100 + 0x40 * n, 4, 1⟩
abbrev F.swPQ01_q0 (n : Nat) : Fd := ⟨0x3104 + 0x40 * n, 15, 0⟩
abbrev F.swPQ01_q1 (n : Nat) : Fd := ⟨0x3104 + 0x40 * n, 31, 16⟩
abbrev F.swPQ23_q2 (n : Nat) : Fd := ⟨0x3108 + 0x40 * n, 15, 0⟩
abbrev F.swPQ23_q3 (n : Nat) : Fd := ⟨0x3108 + 0x40 * n, 31, 16⟩
abbrev F.swPC0cfg_mark (n : Nat) : Fd := ⟨0x310C + 0x40 * n, 15, 0⟩
abbrev F.swPC0cfg_headroom (n : Nat) : Fd := ⟨0x310C + 0x40 * n, 31, 16⟩
abbrev F.swPStat_down (n : Nat) : Fd := ⟨0x3110 + 0x40 * n, 0, 0⟩
abbrev F.swPStat_bp (n : Nat) : Fd := ⟨0x3110 + 0x40 * n, 4, 1⟩
abbrev F.swPSdown_sub (n : Nat) : Fd := ⟨0x3114 + 0x40 * n, 31, 0⟩
abbrev F.swPOcc01_c0 (n : Nat) : Fd := ⟨0x3118 + 0x40 * n, 15, 0⟩
abbrev F.swPOcc01_c1 (n : Nat) : Fd := ⟨0x3118 + 0x40 * n, 31, 16⟩
abbrev F.swPOcc23_c2 (n : Nat) : Fd := ⟨0x311C + 0x40 * n, 15, 0⟩
abbrev F.swPOcc23_c3 (n : Nat) : Fd := ⟨0x311C + 0x40 * n, 31, 16⟩
abbrev F.swPCnt0_flushed (n : Nat) : Fd := ⟨0x3120 + 0x40 * n, 15, 0⟩
abbrev F.swPCnt0_stale (n : Nat) : Fd := ⟨0x3120 + 0x40 * n, 31, 16⟩
abbrev F.swPCnt1_marked (n : Nat) : Fd := ⟨0x3124 + 0x40 * n, 15, 0⟩
abbrev F.swPCnt1_mcfail (n : Nat) : Fd := ⟨0x3124 + 0x40 * n, 31, 16⟩
abbrev F.swPEvf_down (n : Nat) : Fd := ⟨0x3128 + 0x40 * n, 0, 0⟩
abbrev F.swPEvf_up (n : Nat) : Fd := ⟨0x3128 + 0x40 * n, 1, 1⟩
abbrev F.swPEvf_bp (n : Nat) : Fd := ⟨0x3128 + 0x40 * n, 2, 2⟩
abbrev F.swPEvf_c0Mark (n : Nat) : Fd := ⟨0x3128 + 0x40 * n, 3, 3⟩
abbrev F.swPEvf_c0Bp (n : Nat) : Fd := ⟨0x3128 + 0x40 * n, 4, 4⟩
abbrev F.swPEvf_seqGap (n : Nat) : Fd := ⟨0x3128 + 0x40 * n, 5, 5⟩
abbrev F.swPEvf_stale (n : Nat) : Fd := ⟨0x3128 + 0x40 * n, 6, 6⟩
abbrev F.swPEvf_mcFail (n : Nat) : Fd := ⟨0x3128 + 0x40 * n, 7, 7⟩
abbrev F.swPEvf_hcrc (n : Nat) : Fd := ⟨0x3128 + 0x40 * n, 8, 8⟩
abbrev F.bsnCtrl_capmode : Fd := ⟨0x3800, 0, 0⟩
abbrev F.bsnStat_ready : Fd := ⟨0x3804, 0, 0⟩
abbrev F.bsnStat_retained : Fd := ⟨0x3804, 1, 1⟩
abbrev F.bsnStat_stopped : Fd := ⟨0x3804, 2, 2⟩
abbrev F.bsnStat_applying : Fd := ⟨0x3804, 3, 3⟩
abbrev F.bsnStat_applied : Fd := ⟨0x3804, 4, 4⟩
abbrev F.bsnCmd_apply : Fd := ⟨0x3808, 0, 0⟩
abbrev F.bsnCmd_save : Fd := ⟨0x3808, 1, 1⟩
abbrev F.bsnCmd_capFlush : Fd := ⟨0x3808, 2, 2⟩
abbrev F.bsnCmd_clrCnt : Fd := ⟨0x3808, 3, 3⟩
abbrev F.bsnPart0_size : Fd := ⟨0x3810, 5, 0⟩
abbrev F.bsnPart0_base : Fd := ⟨0x3810, 21, 16⟩
abbrev F.bsnPart1_size : Fd := ⟨0x3814, 5, 0⟩
abbrev F.bsnPart1_base : Fd := ⟨0x3814, 21, 16⟩
abbrev F.bsnPart2_size : Fd := ⟨0x3818, 5, 0⟩
abbrev F.bsnPart2_base : Fd := ⟨0x3818, 21, 16⟩
abbrev F.bsnPart3_size : Fd := ⟨0x381C, 5, 0⟩
abbrev F.bsnPart3_base : Fd := ⟨0x381C, 21, 16⟩
abbrev F.bsnPart4_size : Fd := ⟨0x3820, 5, 0⟩
abbrev F.bsnPart4_base : Fd := ⟨0x3820, 21, 16⟩
abbrev F.bsnFree_cells : Fd := ⟨0x3830, 17, 0⟩
abbrev F.bsnCapfree_bytes : Fd := ⟨0x3834, 24, 0⟩
abbrev F.bsnCapstat_records : Fd := ⟨0x3838, 15, 0⟩
abbrev F.bsnCapstat_over : Fd := ⟨0x3838, 31, 16⟩
abbrev F.bsnEvf_applyDone : Fd := ⟨0x383C, 0, 0⟩
abbrev F.bsnEvf_capFull : Fd := ⟨0x383C, 1, 1⟩
abbrev F.bsnEvf_allocFault : Fd := ⟨0x383C, 2, 2⟩
abbrev F.dirCtrl_wtMin : Fd := ⟨0x3900, 15, 0⟩
abbrev F.dirStat_loading : Fd := ⟨0x3904, 0, 0⟩
abbrev F.dirStat_stopped : Fd := ⟨0x3904, 1, 1⟩
abbrev F.dirStat_unsaved : Fd := ⟨0x3904, 2, 2⟩
abbrev F.dirStat_overrun : Fd := ⟨0x3904, 3, 3⟩
abbrev F.dirStat_count : Fd := ⟨0x3904, 29, 16⟩
abbrev F.dirCmd_op : Fd := ⟨0x3908, 2, 0⟩
abbrev F.dirCmd_revoke : Fd := ⟨0x3908, 3, 3⟩
abbrev F.dirCmd_checkEpoch : Fd := ⟨0x3908, 4, 4⟩
abbrev F.dirCmd_epochExp : Fd := ⟨0x3908, 15, 8⟩
abbrev F.dirCmd_index : Fd := ⟨0x3908, 29, 16⟩
abbrev F.dirResult_valid : Fd := ⟨0x390C, 0, 0⟩
abbrev F.dirResult_status : Fd := ⟨0x390C, 15, 8⟩
abbrev F.dirResult_seq : Fd := ⟨0x390C, 31, 16⟩
abbrev F.dirRindex_index : Fd := ⟨0x3910, 13, 0⟩
abbrev F.dirLost_count : Fd := ⟨0x3914, 13, 0⟩
abbrev F.dirLost_first : Fd := ⟨0x3914, 29, 16⟩
abbrev F.dirCache_hits : Fd := ⟨0x3918, 15, 0⟩
abbrev F.dirCache_misses : Fd := ⟨0x3918, 31, 16⟩
abbrev F.dirGrpidx_group : Fd := ⟨0x391C, 7, 0⟩
abbrev F.dirGrpcnt_members : Fd := ⟨0x3920, 13, 0⟩
abbrev F.dirEvf_loaded : Fd := ⟨0x3924, 0, 0⟩
abbrev F.dirEvf_lost : Fd := ⟨0x3924, 1, 1⟩
abbrev F.dirEvf_full : Fd := ⟨0x3924, 2, 2⟩
abbrev F.dirEvf_unsaved : Fd := ⟨0x3924, 3, 3⟩
abbrev F.dirBuf_data (n : Nat) : Fd := ⟨0x3940 + 0x4 * n, 31, 0⟩
abbrev F.coilCtrl_maxconc : Fd := ⟨0x4000, 3, 0⟩
abbrev F.coilCtrl_kth : Fd := ⟨0x4000, 15, 8⟩
abbrev F.coilCtrl_mapstep : Fd := ⟨0x4000, 19, 16⟩
abbrev F.coilCtrl_skipMax : Fd := ⟨0x4000, 23, 20⟩
abbrev F.coilSep_minsep : Fd := ⟨0x4004, 11, 0⟩
abbrev F.coilStat_mapValid : Fd := ⟨0x4008, 0, 0⟩
abbrev F.coilStat_mapBusy : Fd := ⟨0x4008, 1, 1⟩
abbrev F.coilStat_progRun : Fd := ⟨0x4008, 2, 2⟩
abbrev F.coilStat_progErr : Fd := ⟨0x4008, 3, 3⟩
abbrev F.coilStat_stopped : Fd := ⟨0x4008, 4, 4⟩
abbrev F.coilStat_active : Fd := ⟨0x4008, 11, 8⟩
abbrev F.coilStat_pc : Fd := ⟨0x4008, 17, 12⟩
abbrev F.coilStat_ready : Fd := ⟨0x4008, 31, 18⟩
abbrev F.coilCmd_mapFull : Fd := ⟨0x400C, 0, 0⟩
abbrev F.coilCmd_mapSave : Fd := ⟨0x400C, 1, 1⟩
abbrev F.coilCmd_progStart : Fd := ⟨0x400C, 2, 2⟩
abbrev F.coilCmd_progHalt : Fd := ⟨0x400C, 3, 3⟩
abbrev F.coilCmd_progSave : Fd := ⟨0x400C, 4, 4⟩
abbrev F.coilCmd_sweep : Fd := ⟨0x400C, 5, 5⟩
abbrev F.coilCmd_retry : Fd := ⟨0x400C, 6, 6⟩
abbrev F.coilCmd_mapRow : Fd := ⟨0x400C, 7, 7⟩
abbrev F.coilCmd_ch : Fd := ⟨0x400C, 21, 16⟩
abbrev F.coilMapcfg_refresh : Fd := ⟨0x4010, 15, 0⟩
abbrev F.coilMapidx_idx : Fd := ⟨0x4014, 11, 0⟩
abbrev F.coilMapdata_data : Fd := ⟨0x4018, 31, 0⟩
abbrev F.coilPgidx_idx : Fd := ⟨0x401C, 9, 0⟩
abbrev F.coilPgdata_data : Fd := ⟨0x4020, 31, 0⟩
abbrev F.coilPgcfg_autostart : Fd := ⟨0x4024, 0, 0⟩
abbrev F.coilGrant_held : Fd := ⟨0x4028, 15, 0⟩
abbrev F.coilGrant_short : Fd := ⟨0x4028, 31, 16⟩
abbrev F.coilGrpCfg_uv (n : Nat) : Fd := ⟨0x4080 + 0x10 * n, 7, 0⟩
abbrev F.coilGrpCfg_ov (n : Nat) : Fd := ⟨0x4080 + 0x10 * n, 15, 8⟩
abbrev F.coilGrpStat_syn0Ch (n : Nat) : Fd := ⟨0x4084 + 0x10 * n, 5, 0⟩
abbrev F.coilGrpStat_syn0On (n : Nat) : Fd := ⟨0x4084 + 0x10 * n, 6, 6⟩
abbrev F.coilGrpStat_syn1Ch (n : Nat) : Fd := ⟨0x4084 + 0x10 * n, 13, 8⟩
abbrev F.coilGrpStat_syn1On (n : Nat) : Fd := ⟨0x4084 + 0x10 * n, 14, 14⟩
abbrev F.coilGrpStat_down (n : Nat) : Fd := ⟨0x4084 + 0x10 * n, 15, 15⟩
abbrev F.coilGrpStat_uv (n : Nat) : Fd := ⟨0x4084 + 0x10 * n, 16, 16⟩
abbrev F.coilGrpStat_ov (n : Nat) : Fd := ⟨0x4084 + 0x10 * n, 17, 17⟩
abbrev F.coilGrpStat_hot (n : Nat) : Fd := ⟨0x4084 + 0x10 * n, 18, 18⟩
abbrev F.coilGrpStat_vdrv (n : Nat) : Fd := ⟨0x4084 + 0x10 * n, 31, 24⟩
abbrev F.coilGrpEvf_uv (n : Nat) : Fd := ⟨0x4088 + 0x10 * n, 0, 0⟩
abbrev F.coilGrpEvf_ov (n : Nat) : Fd := ⟨0x4088 + 0x10 * n, 1, 1⟩
abbrev F.coilGrpEvf_hot (n : Nat) : Fd := ⟨0x4088 + 0x10 * n, 2, 2⟩
abbrev F.coilGrpEvf_up (n : Nat) : Fd := ⟨0x4088 + 0x10 * n, 3, 3⟩
abbrev F.coilChCtrl_en (n : Nat) : Fd := ⟨0x4100 + 0x20 * n, 0, 0⟩
abbrev F.coilChCtrl_follow (n : Nat) : Fd := ⟨0x4100 + 0x20 * n, 1, 1⟩
abbrev F.coilChCtrl_autoretry (n : Nat) : Fd := ⟨0x4100 + 0x20 * n, 2, 2⟩
abbrev F.coilChCtrl_step (n : Nat) : Fd := ⟨0x4100 + 0x20 * n, 7, 4⟩
abbrev F.coilChFnom_fnom (n : Nat) : Fd := ⟨0x4104 + 0x20 * n, 17, 0⟩
abbrev F.coilChRes_fres (n : Nat) : Fd := ⟨0x4108 + 0x20 * n, 17, 0⟩
abbrev F.coilChRes_q (n : Nat) : Fd := ⟨0x4108 + 0x20 * n, 25, 18⟩
abbrev F.coilChAct_fact (n : Nat) : Fd := ⟨0x410C + 0x20 * n, 17, 0⟩
abbrev F.coilChAct_rs (n : Nat) : Fd := ⟨0x410C + 0x20 * n, 25, 18⟩
abbrev F.coilChStat_fault (n : Nat) : Fd := ⟨0x4110 + 0x20 * n, 2, 0⟩
abbrev F.coilChStat_active (n : Nat) : Fd := ⟨0x4110 + 0x20 * n, 3, 3⟩
abbrev F.coilChStat_down (n : Nat) : Fd := ⟨0x4110 + 0x20 * n, 4, 4⟩
abbrev F.coilChStat_clamp (n : Nat) : Fd := ⟨0x4110 + 0x20 * n, 5, 5⟩
abbrev F.coilChStat_retries (n : Nat) : Fd := ⟨0x4110 + 0x20 * n, 7, 6⟩
abbrev F.coilChStat_skips (n : Nat) : Fd := ⟨0x4110 + 0x20 * n, 15, 8⟩
abbrev F.coilChEvf_fault (n : Nat) : Fd := ⟨0x4114 + 0x20 * n, 0, 0⟩
abbrev F.coilChEvf_sweepDone (n : Nat) : Fd := ⟨0x4114 + 0x20 * n, 1, 1⟩
abbrev F.coilChEvf_mapChange (n : Nat) : Fd := ⟨0x4114 + 0x20 * n, 2, 2⟩
abbrev F.coilChEvf_recovered (n : Nat) : Fd := ⟨0x4114 + 0x20 * n, 3, 3⟩
abbrev F.cldCfg_retries : Fd := ⟨0x4800, 1, 0⟩
abbrev F.cldCfg_rounds : Fd := ⟨0x4800, 5, 2⟩
abbrev F.cldCfg_fastEn : Fd := ⟨0x4800, 6, 6⟩
abbrev F.cldCfg_twake : Fd := ⟨0x4800, 15, 8⟩
abbrev F.cldCfg_gap : Fd := ⟨0x4800, 19, 16⟩
abbrev F.cldWakemaskLo_mask : Fd := ⟨0x4804, 31, 0⟩
abbrev F.cldWakemaskHi_mask : Fd := ⟨0x4808, 15, 0⟩
abbrev F.cldStat_active : Fd := ⟨0x480C, 3, 0⟩
abbrev F.cldStat_stopped : Fd := ⟨0x480C, 4, 4⟩
abbrev F.cldStat_accq : Fd := ⟨0x480C, 15, 8⟩
abbrev F.cldCnt0_crcerr : Fd := ⟨0x4810, 15, 0⟩
abbrev F.cldCnt0_coll : Fd := ⟨0x4810, 31, 16⟩
abbrev F.cldCnt1_authfail : Fd := ⟨0x4814, 15, 0⟩
abbrev F.cldCnt1_tear : Fd := ⟨0x4814, 31, 16⟩
abbrev F.cldCmd_clrCnt : Fd := ⟨0x4818, 0, 0⟩
abbrev F.cldTx_ch (n : Nat) : Fd := ⟨0x4840 + 0x4 * n, 5, 0⟩
abbrev F.cldTx_busy (n : Nat) : Fd := ⟨0x4840 + 0x4 * n, 6, 6⟩
abbrev F.cldTx_op (n : Nat) : Fd := ⟨0x4840 + 0x4 * n, 15, 8⟩
abbrev F.cldTx_handle (n : Nat) : Fd := ⟨0x4840 + 0x4 * n, 23, 16⟩
abbrev F.cldTx_phase (n : Nat) : Fd := ⟨0x4840 + 0x4 * n, 27, 24⟩
abbrev F.cldTx_round (n : Nat) : Fd := ⟨0x4840 + 0x4 * n, 31, 28⟩
abbrev F.rfCtrl_en : Fd := ⟨0x5000, 0, 0⟩
abbrev F.rfCtrl_cwEn : Fd := ⟨0x5000, 1, 1⟩
abbrev F.rfCtrl_dcTemp : Fd := ⟨0x5000, 11, 8⟩
abbrev F.rfCtrl_dutywarn : Fd := ⟨0x5000, 22, 16⟩
abbrev F.rfStat_state : Fd := ⟨0x5004, 2, 0⟩
abbrev F.rfStat_locked : Fd := ⟨0x5004, 3, 3⟩
abbrev F.rfStat_stopped : Fd := ⟨0x5004, 4, 4⟩
abbrev F.rfStat_regLocked : Fd := ⟨0x5004, 5, 5⟩
abbrev F.rfStat_regValid : Fd := ⟨0x5004, 6, 6⟩
abbrev F.rfStat_queued : Fd := ⟨0x5004, 15, 8⟩
abbrev F.rfStat_held : Fd := ⟨0x5004, 19, 16⟩
abbrev F.rfCmd_regSave : Fd := ⟨0x5008, 0, 0⟩
abbrev F.rfCmd_regLock : Fd := ⟨0x5008, 1, 1⟩
abbrev F.rfCmd_dcFlush : Fd := ⟨0x5008, 2, 2⟩
abbrev F.rfCmd_clrCnt : Fd := ⟨0x5008, 3, 3⟩
abbrev F.rfCmd_key : Fd := ⟨0x5008, 15, 8⟩
abbrev F.rfAntmap_band0 : Fd := ⟨0x500C, 1, 0⟩
abbrev F.rfAntmap_band1 : Fd := ⟨0x500C, 3, 2⟩
abbrev F.rfAntmap_band2 : Fd := ⟨0x500C, 5, 4⟩
abbrev F.rfAntmap_extpaPol : Fd := ⟨0x500C, 6, 6⟩
abbrev F.rfRegidx_idx : Fd := ⟨0x5010, 8, 0⟩
abbrev F.rfRegdata_data : Fd := ⟨0x5014, 31, 0⟩
abbrev F.rfFreq_freq : Fd := ⟨0x5018, 19, 0⟩
abbrev F.rfCal_vco : Fd := ⟨0x501C, 5, 0⟩
abbrev F.rfCal_calUs : Fd := ⟨0x501C, 15, 8⟩
abbrev F.rfCal_attempts : Fd := ⟨0x501C, 19, 16⟩
abbrev F.rfRssi_pkt : Fd := ⟨0x5020, 7, 0⟩
abbrev F.rfRssi_live : Fd := ⟨0x5020, 15, 8⟩
abbrev F.rfCnt0_nolock : Fd := ⟨0x5024, 15, 0⟩
abbrev F.rfCnt0_clip : Fd := ⟨0x5024, 31, 16⟩
abbrev F.rfCnt1_crcerr : Fd := ⟨0x5028, 15, 0⟩
abbrev F.rfCnt1_defer : Fd := ⟨0x5028, 31, 16⟩
abbrev F.rfDcstat_hits : Fd := ⟨0x502C, 15, 0⟩
abbrev F.rfDcstat_misses : Fd := ⟨0x502C, 31, 16⟩
abbrev F.rfTstamp_usec : Fd := ⟨0x5030, 31, 0⟩
abbrev F.rfEvf_lockFail : Fd := ⟨0x5034, 0, 0⟩
abbrev F.rfEvf_regRefuse : Fd := ⟨0x5034, 1, 1⟩
abbrev F.rfEvf_clip : Fd := ⟨0x5034, 2, 2⟩
abbrev F.rfEvf_duty : Fd := ⟨0x5034, 3, 3⟩
abbrev F.rfEvf_dutyLow : Fd := ⟨0x5034, 4, 4⟩
abbrev F.rfEvf_regblk : Fd := ⟨0x5034, 5, 5⟩
abbrev F.rfDuty_used (n : Nat) : Fd := ⟨0x5040 + 0x4 * n, 21, 0⟩
abbrev F.rfProf_mod (n : Nat) : Fd := ⟨0x5080 + 0x10 * n, 1, 0⟩
abbrev F.rfProf_pre (n : Nat) : Fd := ⟨0x5080 + 0x10 * n, 12, 8⟩
abbrev F.rfProf_rate (n : Nat) : Fd := ⟨0x5080 + 0x10 * n, 31, 16⟩
abbrev F.rfProf_dev (n : Nat) : Fd := ⟨0x5084 + 0x10 * n, 11, 0⟩
abbrev F.rfProf_sync (n : Nat) : Fd := ⟨0x5088 + 0x10 * n, 31, 0⟩
abbrev F.rfPwrtab_target (n : Nat) : Fd := ⟨0x5100 + 0x4 * n, 9, 0⟩
abbrev F.rfPwrtab_drvLo (n : Nat) : Fd := ⟨0x5100 + 0x4 * n, 23, 16⟩
abbrev F.rfPwrtab_drvHi (n : Nat) : Fd := ⟨0x5100 + 0x4 * n, 31, 24⟩
abbrev F.prxCtrl_en : Fd := ⟨0x5800, 0, 0⟩
abbrev F.prxCtrl_lfReq : Fd := ⟨0x5800, 1, 1⟩
abbrev F.prxCtrl_step : Fd := ⟨0x5800, 12, 8⟩
abbrev F.prxCtrl_profile : Fd := ⟨0x5800, 18, 16⟩
abbrev F.prxStat_busy : Fd := ⟨0x5804, 0, 0⟩
abbrev F.prxStat_stopped : Fd := ⟨0x5804, 1, 1⟩
abbrev F.prxStat_calLock : Fd := ⟨0x5804, 2, 2⟩
abbrev F.prxStat_queued : Fd := ⟨0x5804, 15, 8⟩
abbrev F.prxCmd_clrCnt : Fd := ⟨0x5808, 0, 0⟩
abbrev F.prxCmd_save : Fd := ⟨0x5808, 1, 1⟩
abbrev F.prxSweepid_id : Fd := ⟨0x580C, 31, 0⟩
abbrev F.prxPlan_planVer : Fd := ⟨0x5810, 7, 0⟩
abbrev F.prxPlan_nl : Fd := ⟨0x5810, 12, 8⟩
abbrev F.prxPlan_nh : Fd := ⟨0x5810, 20, 16⟩
abbrev F.prxPlan_hops : Fd := ⟨0x5810, 30, 24⟩
abbrev F.prxFl_fl : Fd := ⟨0x5814, 19, 0⟩
abbrev F.prxFh_fh : Fd := ⟨0x5818, 19, 0⟩
abbrev F.prxStep_stepl : Fd := ⟨0x581C, 15, 0⟩
abbrev F.prxStep_steph : Fd := ⟨0x581C, 31, 16⟩
abbrev F.prxThr0_minhops : Fd := ⟨0x5820, 4, 0⟩
abbrev F.prxThr0_maxfrac : Fd := ⟨0x5820, 15, 8⟩
abbrev F.prxThr0_maxres : Fd := ⟨0x5820, 31, 16⟩
abbrev F.prxThr1_bandtol : Fd := ⟨0x5824, 15, 0⟩
abbrev F.prxThr1_minsnr : Fd := ⟨0x5824, 23, 16⟩
abbrev F.prxThr1_rttMax : Fd := ⟨0x5824, 31, 24⟩
abbrev F.prxThr2_lftol : Fd := ⟨0x5828, 7, 0⟩
abbrev F.prxThr2_cardmin : Fd := ⟨0x5828, 15, 8⟩
abbrev F.prxThr2_lfMaxage : Fd := ⟨0x5828, 31, 16⟩
abbrev F.prxCal0_dofs : Fd := ⟨0x582C, 15, 0⟩
abbrev F.prxCal0_phofs : Fd := ⟨0x582C, 31, 16⟩
abbrev F.prxCal1_rttOfs : Fd := ⟨0x5830, 15, 0⟩
abbrev F.prxCal1_sigfloor : Fd := ⟨0x5830, 31, 16⟩
abbrev F.prxLfcal_ch (n : Nat) : Fd := ⟨0x5840 + 0x4 * n, 5, 0⟩
abbrev F.prxLfcal_en (n : Nat) : Fd := ⟨0x5840 + 0x4 * n, 6, 6⟩
abbrev F.prxLfcal_ofs (n : Nat) : Fd := ⟨0x5840 + 0x4 * n, 15, 8⟩
abbrev F.prxLfcal_k (n : Nat) : Fd := ⟨0x5840 + 0x4 * n, 31, 16⟩
abbrev F.prxLast_rec (n : Nat) : Fd := ⟨0x5850 + 0x4 * n, 31, 0⟩
abbrev F.prxCnt0_pass : Fd := ⟨0x5878, 15, 0⟩
abbrev F.prxCnt0_fail : Fd := ⟨0x5878, 31, 16⟩
abbrev F.prxCnt1_inconc : Fd := ⟨0x587C, 15, 0⟩
abbrev F.prxCnt1_nolock : Fd := ⟨0x587C, 31, 16⟩
abbrev F.prxEvf_done : Fd := ⟨0x5880, 0, 0⟩
abbrev F.prxEvf_alert : Fd := ⟨0x5880, 1, 1⟩
abbrev F.cphCtrl_en : Fd := ⟨0x6000, 0, 0⟩
abbrev F.cphCtrl_suspEn : Fd := ⟨0x6000, 1, 1⟩
abbrev F.cphCtrl_resvC0 : Fd := ⟨0x6000, 3, 2⟩
abbrev F.cphCtrl_waitmax : Fd := ⟨0x6000, 15, 8⟩
abbrev F.cphStat_busy : Fd := ⟨0x6004, 5, 0⟩
abbrev F.cphStat_stopped : Fd := ⟨0x6004, 6, 6⟩
abbrev F.cphStat_domain : Fd := ⟨0x6004, 7, 7⟩
abbrev F.cphStat_coreOff : Fd := ⟨0x6004, 13, 8⟩
abbrev F.cphStat_streams : Fd := ⟨0x6004, 23, 16⟩
abbrev F.cphStat_queued : Fd := ⟨0x6004, 31, 24⟩
abbrev F.cphRes_hint : Fd := ⟨0x6008, 7, 0⟩
abbrev F.cphRes_hext : Fd := ⟨0x6008, 15, 8⟩
abbrev F.cphRes_spill : Fd := ⟨0x6008, 27, 16⟩
abbrev F.cphCmd_clrCnt : Fd := ⟨0x600C, 0, 0⟩
abbrev F.cphNcidx_idx : Fd := ⟨0x6010, 5, 0⟩
abbrev F.cphNcstat_alloc : Fd := ⟨0x6014, 0, 0⟩
abbrev F.cphNcstat_kh : Fd := ⟨0x6014, 15, 8⟩
abbrev F.cphNcstat_ownerPort : Fd := ⟨0x6014, 19, 16⟩
abbrev F.cphNcstat_ownerDev : Fd := ⟨0x6014, 25, 20⟩
abbrev F.cphNcinv_inv : Fd := ⟨0x6018, 31, 0⟩
abbrev F.cphNcsaved_saved : Fd := ⟨0x601C, 31, 0⟩
abbrev F.cphCnt0_authfail : Fd := ⟨0x6020, 15, 0⟩
abbrev F.cphCnt0_suspend : Fd := ⟨0x6020, 31, 16⟩
abbrev F.cphCnt1_rngfail : Fd := ⟨0x6024, 15, 0⟩
abbrev F.cphCnt1_nonceexh : Fd := ⟨0x6024, 31, 16⟩
abbrev F.cphBoot_boot : Fd := ⟨0x6028, 31, 0⟩
abbrev F.cphEvf0_spillWait : Fd := ⟨0x602C, 0, 0⟩
abbrev F.cphEvf0_handleFull : Fd := ⟨0x602C, 1, 1⟩
abbrev F.cphEvf0_waitTo : Fd := ⟨0x602C, 2, 2⟩
abbrev F.cphEvf1_nonceLow : Fd := ⟨0x6030, 0, 0⟩
abbrev F.cphEvf1_nonceExh : Fd := ⟨0x6030, 1, 1⟩
abbrev F.cphEvf1_domainChg : Fd := ⟨0x6030, 2, 2⟩
abbrev F.cphCc_op (n : Nat) : Fd := ⟨0x6040 + 0x4 * n, 7, 0⟩
abbrev F.cphCc_class (n : Nat) : Fd := ⟨0x6040 + 0x4 * n, 9, 8⟩
abbrev F.cphCc_busy (n : Nat) : Fd := ⟨0x6040 + 0x4 * n, 10, 10⟩
abbrev F.cphCc_susp (n : Nat) : Fd := ⟨0x6040 + 0x4 * n, 11, 11⟩
abbrev F.cphCc_off (n : Nat) : Fd := ⟨0x6040 + 0x4 * n, 12, 12⟩
abbrev F.cphCc_stream (n : Nat) : Fd := ⟨0x6040 + 0x4 * n, 21, 16⟩
abbrev F.cphCc_streamValid (n : Nat) : Fd := ⟨0x6040 + 0x4 * n, 22, 22⟩
abbrev F.cphCcEvf_authFail (n : Nat) : Fd := ⟨0x6060 + 0x4 * n, 0, 0⟩
abbrev F.cphCcEvf_fault (n : Nat) : Fd := ⟨0x6060 + 0x4 * n, 1, 1⟩
abbrev F.cphCcEvf_rngFail (n : Nat) : Fd := ⟨0x6060 + 0x4 * n, 2, 2⟩
abbrev F.rngCtrl_rawSrc : Fd := ⟨0x6800, 1, 0⟩
abbrev F.rngStat_started : Fd := ⟨0x6804, 0, 0⟩
abbrev F.rngStat_jstate : Fd := ⟨0x6804, 2, 1⟩
abbrev F.rngStat_ostate : Fd := ⟨0x6804, 4, 3⟩
abbrev F.rngStat_fatal : Fd := ⟨0x6804, 5, 5⟩
abbrev F.rngStat_oneSource : Fd := ⟨0x6804, 6, 6⟩
abbrev F.rngStat_stopped : Fd := ⟨0x6804, 7, 7⟩
abbrev F.rngStat_stallTo : Fd := ⟨0x6804, 9, 8⟩
abbrev F.rngStat_dataRdy : Fd := ⟨0x6804, 10, 10⟩
abbrev F.rngStat_rawRdy : Fd := ⟨0x6804, 11, 11⟩
abbrev F.rngStat_fatalCause : Fd := ⟨0x6804, 13, 12⟩
abbrev F.rngStat_seeded : Fd := ⟨0x6804, 23, 16⟩
abbrev F.rngData_data : Fd := ⟨0x6808, 31, 0⟩
abbrev F.rngRaw_data : Fd := ⟨0x680C, 31, 0⟩
abbrev F.rngCmd_clrStall : Fd := ⟨0x6810, 0, 0⟩
abbrev F.rngCmd_restart : Fd := ⟨0x6810, 1, 1⟩
abbrev F.rngCmd_clrCnt : Fd := ⟨0x6810, 2, 2⟩
abbrev F.rngFailcnt_jasper : Fd := ⟨0x6814, 15, 0⟩
abbrev F.rngFailcnt_opal : Fd := ⟨0x6814, 31, 16⟩
abbrev F.rngHtcfg_rctC : Fd := ⟨0x6818, 7, 0⟩
abbrev F.rngHtcfg_aptC : Fd := ⟨0x6818, 25, 16⟩
abbrev F.rngRscnt_reseeds : Fd := ⟨0x681C, 31, 0⟩
abbrev F.rngEvf_srcFail : Fd := ⟨0x6820, 0, 0⟩
abbrev F.rngEvf_srcUp : Fd := ⟨0x6820, 1, 1⟩
abbrev F.rngEvf_fatal : Fd := ⟨0x6820, 2, 2⟩
abbrev F.rngEvf_stallTo : Fd := ⟨0x6820, 3, 3⟩
abbrev F.nvCtrl_scrubEn : Fd := ⟨0x7000, 0, 0⟩
abbrev F.nvCtrl_pace : Fd := ⟨0x7000, 15, 8⟩
abbrev F.nvStat_scanDone : Fd := ⟨0x7004, 0, 0⟩
abbrev F.nvStat_busy : Fd := ⟨0x7004, 1, 1⟩
abbrev F.nvStat_stopped : Fd := ⟨0x7004, 2, 2⟩
abbrev F.nvStat_scrubbing : Fd := ⟨0x7004, 3, 3⟩
abbrev F.nvStat_frozen : Fd := ⟨0x7004, 4, 4⟩
abbrev F.nvStat_overrun : Fd := ⟨0x7004, 5, 5⟩
abbrev F.nvStat_queued : Fd := ⟨0x7004, 15, 8⟩
abbrev F.nvProt_bp : Fd := ⟨0x7008, 1, 0⟩
abbrev F.nvCmd_read : Fd := ⟨0x700C, 0, 0⟩
abbrev F.nvCmd_write : Fd := ⟨0x700C, 1, 1⟩
abbrev F.nvCmd_recRead : Fd := ⟨0x700C, 2, 2⟩
abbrev F.nvCmd_recWrite : Fd := ⟨0x700C, 3, 3⟩
abbrev F.nvCmd_scrubNow : Fd := ⟨0x700C, 4, 4⟩
abbrev F.nvCmd_clrCnt : Fd := ⟨0x700C, 5, 5⟩
abbrev F.nvCmd_saveCfg : Fd := ⟨0x700C, 6, 6⟩
abbrev F.nvAddr_addr : Fd := ⟨0x7010, 19, 0⟩
abbrev F.nvXfer_len : Fd := ⟨0x7014, 7, 0⟩
abbrev F.nvXfer_desc : Fd := ⟨0x7014, 10, 8⟩
abbrev F.nvResult_valid : Fd := ⟨0x7018, 0, 0⟩
abbrev F.nvResult_copyB : Fd := ⟨0x7018, 1, 1⟩
abbrev F.nvResult_conflict : Fd := ⟨0x7018, 2, 2⟩
abbrev F.nvResult_repaired : Fd := ⟨0x7018, 3, 3⟩
abbrev F.nvResult_status : Fd := ⟨0x7018, 15, 8⟩
abbrev F.nvResult_seq : Fd := ⟨0x7018, 31, 16⟩
abbrev F.nvRecseq_seq : Fd := ⟨0x701C, 31, 0⟩
abbrev F.nvTorncnt_count : Fd := ⟨0x7020, 13, 0⟩
abbrev F.nvTornidx_idx : Fd := ⟨0x7024, 5, 0⟩
abbrev F.nvTornpg_page : Fd := ⟨0x7028, 12, 0⟩
abbrev F.nvAbcnt_count : Fd := ⟨0x702C, 3, 0⟩
abbrev F.nvAbcnt_lost : Fd := ⟨0x702C, 15, 8⟩
abbrev F.nvScrublast_last : Fd := ⟨0x7030, 31, 0⟩
abbrev F.nvScrubpos_page : Fd := ⟨0x7034, 12, 0⟩
abbrev F.nvScrubpos_weak : Fd := ⟨0x7034, 31, 16⟩
abbrev F.nvCnt_refused : Fd := ⟨0x7038, 15, 0⟩
abbrev F.nvCnt_conflict : Fd := ⟨0x7038, 31, 16⟩
abbrev F.nvEvf_torn : Fd := ⟨0x703C, 0, 0⟩
abbrev F.nvEvf_abandon : Fd := ⟨0x703C, 1, 1⟩
abbrev F.nvEvf_record : Fd := ⟨0x703C, 2, 2⟩
abbrev F.nvEvf_scrub : Fd := ⟨0x703C, 3, 3⟩
abbrev F.nvAbandon_page (n : Nat) : Fd := ⟨0x7040 + 0x4 * n, 12, 0⟩
abbrev F.nvAbandon_pages (n : Nat) : Fd := ⟨0x7040 + 0x4 * n, 23, 16⟩
abbrev F.nvAbandon_src (n : Nat) : Fd := ⟨0x7040 + 0x4 * n, 27, 24⟩
abbrev F.nvRecdA_addrA (n : Nat) : Fd := ⟨0x7080 + 0x10 * n, 19, 0⟩
abbrev F.nvRecdB_addrB (n : Nat) : Fd := ⟨0x7084 + 0x10 * n, 19, 0⟩
abbrev F.nvRecdCfg_len (n : Nat) : Fd := ⟨0x7088 + 0x10 * n, 12, 0⟩
abbrev F.nvRecdCfg_tie (n : Nat) : Fd := ⟨0x7088 + 0x10 * n, 16, 16⟩
abbrev F.nvRecdCfg_tieW (n : Nat) : Fd := ⟨0x7088 + 0x10 * n, 17, 17⟩
abbrev F.nvRecdCfg_tieOfs (n : Nat) : Fd := ⟨0x7088 + 0x10 * n, 31, 20⟩
abbrev F.nvWbuf_data (n : Nat) : Fd := ⟨0x7100 + 0x4 * n, 31, 0⟩
abbrev F.nvRbuf_data (n : Nat) : Fd := ⟨0x7180 + 0x4 * n, 31, 0⟩
abbrev F.ptCfg_fieldEn : Fd := ⟨0x7800, 0, 0⟩
abbrev F.ptCfg_hostwait : Fd := ⟨0x7800, 1, 1⟩
abbrev F.ptCfg_hvEn : Fd := ⟨0x7800, 2, 2⟩
abbrev F.ptCfg_hvLevel : Fd := ⟨0x7800, 3, 3⟩
abbrev F.ptStat_field : Fd := ⟨0x7804, 0, 0⟩
abbrev F.ptStat_tagstate : Fd := ⟨0x7804, 3, 1⟩
abbrev F.ptStat_fieldHold : Fd := ⟨0x7804, 4, 4⟩
abbrev F.ptStat_cmdBusy : Fd := ⟨0x7804, 5, 5⟩
abbrev F.ptStat_keyed : Fd := ⟨0x7804, 6, 6⟩
abbrev F.ptStat_stopped : Fd := ⟨0x7804, 7, 7⟩
abbrev F.ptStat_overrun : Fd := ⟨0x7804, 8, 8⟩
abbrev F.ptStat_hvoutOn : Fd := ⟨0x7804, 9, 9⟩
abbrev F.ptStat_restored : Fd := ⟨0x7804, 23, 16⟩
abbrev F.ptUidLo_uid : Fd := ⟨0x7808, 31, 0⟩
abbrev F.ptUidHi_uid : Fd := ⟨0x780C, 31, 0⟩
abbrev F.ptCmd_read : Fd := ⟨0x7810, 0, 0⟩
abbrev F.ptCmd_write : Fd := ⟨0x7810, 1, 1⟩
abbrev F.ptCmd_saveCfg : Fd := ⟨0x7810, 2, 2⟩
abbrev F.ptCmd_page : Fd := ⟨0x7810, 14, 8⟩
abbrev F.ptResult_valid : Fd := ⟨0x7814, 0, 0⟩
abbrev F.ptResult_status : Fd := ⟨0x7814, 15, 8⟩
abbrev F.ptResult_seq : Fd := ⟨0x7814, 31, 16⟩
abbrev F.ptWdata_data (n : Nat) : Fd := ⟨0x7820 + 0x4 * n, 31, 0⟩
abbrev F.ptRdata_data (n : Nat) : Fd := ⟨0x7830 + 0x4 * n, 31, 0⟩
abbrev F.ptMbox_fwritten : Fd := ⟨0x7840, 31, 0⟩
abbrev F.ptEvf_field : Fd := ⟨0x7844, 0, 0⟩
abbrev F.ptEvf_mailbox : Fd := ⟨0x7844, 1, 1⟩
abbrev F.ptCnt_fieldtx : Fd := ⟨0x7848, 15, 0⟩
abbrev F.ptCnt_busy : Fd := ⟨0x7848, 31, 16⟩
abbrev F.sadCtrl_vehEn : Fd := ⟨0x8000, 0, 0⟩
abbrev F.sadCtrl_hostEn : Fd := ⟨0x8000, 1, 1⟩
abbrev F.sadCtrl_hostreqEn : Fd := ⟨0x8000, 2, 2⟩
abbrev F.sadCtrl_ctxSrc : Fd := ⟨0x8000, 3, 3⟩
abbrev F.sadCtrl_vehStale : Fd := ⟨0x8000, 15, 8⟩
abbrev F.sadCtrl_parkDwell : Fd := ⟨0x8000, 31, 16⟩
abbrev F.sadStat_state : Fd := ⟨0x8004, 2, 0⟩
abbrev F.sadStat_forcePending : Fd := ⟨0x8004, 3, 3⟩
abbrev F.sadStat_endPending : Fd := ⟨0x8004, 4, 4⟩
abbrev F.sadStat_pulsing : Fd := ⟨0x8004, 5, 5⟩
abbrev F.sadStat_fbClosed : Fd := ⟨0x8004, 6, 6⟩
abbrev F.sadStat_stopped : Fd := ⟨0x8004, 7, 7⟩
abbrev F.sadStat_activeSlot : Fd := ⟨0x8004, 10, 8⟩
abbrev F.sadStat_slotValid : Fd := ⟨0x8004, 11, 11⟩
abbrev F.sadStat_ctx : Fd := ⟨0x8004, 13, 12⟩
abbrev F.sadStat_veh : Fd := ⟨0x8004, 15, 14⟩
abbrev F.sadStat_fbFault : Fd := ⟨0x8004, 16, 16⟩
abbrev F.sadCtx_ctx : Fd := ⟨0x8008, 1, 0⟩
abbrev F.sadCmd_request : Fd := ⟨0x800C, 0, 0⟩
abbrev F.sadCmd_end : Fd := ⟨0x800C, 1, 1⟩
abbrev F.sadCmd_forceClear : Fd := ⟨0x800C, 2, 2⟩
abbrev F.sadCmd_savePolicy : Fd := ⟨0x800C, 3, 3⟩
abbrev F.sadCmd_recheck : Fd := ⟨0x800C, 4, 4⟩
abbrev F.sadCause_failedTerms : Fd := ⟨0x8010, 15, 0⟩
abbrev F.sadCause_status : Fd := ⟨0x8010, 23, 16⟩
abbrev F.sadCause_reason : Fd := ⟨0x8010, 27, 24⟩
abbrev F.sadTerms_true : Fd := ⟨0x8014, 15, 0⟩
abbrev F.sadTerms_pending : Fd := ⟨0x8014, 31, 16⟩
abbrev F.sadPulse_deadtime : Fd := ⟨0x8018, 5, 0⟩
abbrev F.sadFb_pol : Fd := ⟨0x801C, 0, 0⟩
abbrev F.sadFb_window : Fd := ⟨0x801C, 12, 8⟩
abbrev F.sadFb_debounce : Fd := ⟨0x801C, 20, 16⟩
abbrev F.sadEvf_stateChg : Fd := ⟨0x8020, 0, 0⟩
abbrev F.sadEvf_deny : Fd := ⟨0x8020, 1, 1⟩
abbrev F.sadEvf_hold : Fd := ⟨0x8020, 2, 2⟩
abbrev F.sadEvf_force : Fd := ⟨0x8020, 3, 3⟩
abbrev F.sadEvf_fbFault : Fd := ⟨0x8020, 4, 4⟩
abbrev F.sadEvf_termLost : Fd := ⟨0x8020, 5, 5⟩
abbrev F.sadAge_age (n : Nat) : Fd := ⟨0x8040 + 0x4 * n, 31, 0⟩
abbrev F.sadPslot_en (n : Nat) : Fd := ⟨0x8100 + 0x40 * n, 0, 0⟩
abbrev F.sadPslot_ctx (n : Nat) : Fd := ⟨0x8100 + 0x40 * n, 2, 1⟩
abbrev F.sadPslot_armTimeout (n : Nat) : Fd := ⟨0x8100 + 0x40 * n, 15, 8⟩
abbrev F.sadPslot_reqMask (n : Nat) : Fd := ⟨0x8100 + 0x40 * n, 31, 16⟩
abbrev F.sadPslot_holdMask (n : Nat) : Fd := ⟨0x8104 + 0x40 * n, 15, 0⟩
abbrev F.sadPslot_keycoilsLo (n : Nat) : Fd := ⟨0x8108 + 0x40 * n, 31, 0⟩
abbrev F.sadPslot_keycoilsHi (n : Nat) : Fd := ⟨0x810C + 0x40 * n, 15, 0⟩
abbrev F.sadPslot_keyRoles (n : Nat) : Fd := ⟨0x810C + 0x40 * n, 23, 16⟩
abbrev F.sadPslot_key2Roles (n : Nat) : Fd := ⟨0x810C + 0x40 * n, 31, 24⟩
abbrev F.sadPslot_keyMaxage (n : Nat) : Fd := ⟨0x8110 + 0x40 * n, 15, 0⟩
abbrev F.sadPslot_prxMaxage (n : Nat) : Fd := ⟨0x8110 + 0x40 * n, 31, 16⟩
abbrev F.sadPslot_prxMaxdist (n : Nat) : Fd := ⟨0x8114 + 0x40 * n, 15, 0⟩
abbrev F.sadPslot_wiredMaxage (n : Nat) : Fd := ⟨0x8114 + 0x40 * n, 31, 16⟩
abbrev F.sadPslot_censusMaxage (n : Nat) : Fd := ⟨0x8118 + 0x40 * n, 15, 0⟩
abbrev F.sadPslot_censusGroup (n : Nat) : Fd := ⟨0x8118 + 0x40 * n, 23, 16⟩
abbrev F.sadPslot_missingMax (n : Nat) : Fd := ⟨0x8118 + 0x40 * n, 31, 24⟩
abbrev F.sadPslot_creditMin (n : Nat) : Fd := ⟨0x811C + 0x40 * n, 31, 0⟩
abbrev F.sadPslot_depotCoil (n : Nat) : Fd := ⟨0x8120 + 0x40 * n, 5, 0⟩
abbrev F.sadPslot_chargerMaxage (n : Nat) : Fd := ⟨0x8120 + 0x40 * n, 31, 16⟩
abbrev F.sadPslot_winStart (n : Nat) : Fd := ⟨0x8124 + 0x40 * n, 10, 0⟩
abbrev F.sadPslot_winEnd (n : Nat) : Fd := ⟨0x8124 + 0x40 * n, 26, 16⟩
abbrev F.ledCtrl_net : Fd := ⟨0x8800, 0, 0⟩
abbrev F.ledCtrl_meterK : Fd := ⟨0x8800, 31, 16⟩
abbrev F.ledStat_open : Fd := ⟨0x8804, 0, 0⟩
abbrev F.ledStat_inGrace : Fd := ⟨0x8804, 1, 1⟩
abbrev F.ledStat_exhausted : Fd := ⟨0x8804, 2, 2⟩
abbrev F.ledStat_low : Fd := ⟨0x8804, 3, 3⟩
abbrev F.ledStat_rtcUnsure : Fd := ⟨0x8804, 4, 4⟩
abbrev F.ledStat_stopped : Fd := ⟨0x8804, 5, 5⟩
abbrev F.ledStat_conflict : Fd := ⟨0x8804, 6, 6⟩
abbrev F.ledStat_ckptBusy : Fd := ⟨0x8804, 7, 7⟩
abbrev F.ledStat_tokenStatus : Fd := ⟨0x8804, 15, 8⟩
abbrev F.ledCredit_credit : Fd := ⟨0x8808, 31, 0⟩
abbrev F.ledAvail_avail : Fd := ⟨0x880C, 31, 0⟩
abbrev F.ledGrace_graceWh : Fd := ⟨0x8810, 31, 0⟩
abbrev F.ledGcap_cap : Fd := ⟨0x8814, 31, 0⟩
abbrev F.ledLowmark_lowmark : Fd := ⟨0x8818, 31, 0⟩
abbrev F.ledDpulseLo_dis : Fd := ⟨0x8820, 31, 0⟩
abbrev F.ledDpulseHi_dis : Fd := ⟨0x8824, 31, 0⟩
abbrev F.ledCpulseLo_chg : Fd := ⟨0x8828, 31, 0⟩
abbrev F.ledCpulseHi_chg : Fd := ⟨0x882C, 31, 0⟩
abbrev F.ledLeasewh_leaseWh : Fd := ⟨0x8830, 31, 0⟩
abbrev F.ledSeqLo_seq : Fd := ⟨0x8834, 31, 0⟩
abbrev F.ledSeqHi_seq : Fd := ⟨0x8838, 31, 0⟩
abbrev F.ledLease_leaseId : Fd := ⟨0x883C, 31, 0⟩
abbrev F.ledWstart_leaseStart : Fd := ⟨0x8840, 31, 0⟩
abbrev F.ledWend_leaseEnd : Fd := ⟨0x8844, 31, 0⟩
abbrev F.ledKseq_kseq : Fd := ⟨0x8848, 31, 0⟩
abbrev F.ledCmd_checkpoint : Fd := ⟨0x884C, 0, 0⟩
abbrev F.ledEvf_low : Fd := ⟨0x8850, 0, 0⟩
abbrev F.ledEvf_exhausted : Fd := ⟨0x8850, 1, 1⟩
abbrev F.ledEvf_token : Fd := ⟨0x8850, 2, 2⟩
abbrev F.ledEvf_ledgerConflict : Fd := ⟨0x8850, 3, 3⟩
abbrev F.plCtrl_role : Fd := ⟨0x9000, 1, 0⟩
abbrev F.plCtrl_evfwd : Fd := ⟨0x9000, 2, 2⟩
abbrev F.plCtrl_ndev : Fd := ⟨0x9000, 14, 8⟩
abbrev F.plStat_ringOk : Fd := ⟨0x9004, 0, 0⟩
abbrev F.plStat_closed : Fd := ⟨0x9004, 1, 1⟩
abbrev F.plStat_enumerating : Fd := ⟨0x9004, 2, 2⟩
abbrev F.plStat_stopped : Fd := ⟨0x9004, 3, 3⟩
abbrev F.plStat_fault : Fd := ⟨0x9004, 7, 4⟩
abbrev F.plStat_nreach : Fd := ⟨0x9004, 13, 8⟩
abbrev F.plStat_rndev : Fd := ⟨0x9004, 22, 16⟩
abbrev F.plCmd_enum : Fd := ⟨0x9008, 0, 0⟩
abbrev F.plCmd_reroute : Fd := ⟨0x9008, 1, 1⟩
abbrev F.plCmd_clrCnt : Fd := ⟨0x9008, 2, 2⟩
abbrev F.plLink0_up : Fd := ⟨0x900C, 0, 0⟩
abbrev F.plLink0_training : Fd := ⟨0x900C, 1, 1⟩
abbrev F.plLink0_peerId : Fd := ⟨0x900C, 13, 8⟩
abbrev F.plLink0_peerRole : Fd := ⟨0x900C, 15, 14⟩
abbrev F.plLink1_up : Fd := ⟨0x9010, 0, 0⟩
abbrev F.plLink1_training : Fd := ⟨0x9010, 1, 1⟩
abbrev F.plLink1_peerId : Fd := ⟨0x9010, 13, 8⟩
abbrev F.plLink1_peerRole : Fd := ⟨0x9010, 15, 14⟩
abbrev F.plReach0Lo_dev : Fd := ⟨0x9014, 31, 0⟩
abbrev F.plReach0Hi_dev : Fd := ⟨0x9018, 31, 0⟩
abbrev F.plReach1Lo_dev : Fd := ⟨0x901C, 31, 0⟩
abbrev F.plReach1Hi_dev : Fd := ⟨0x9020, 31, 0⟩
abbrev F.plCnt0_crcerr : Fd := ⟨0x9024, 15, 0⟩
abbrev F.plCnt0_replay : Fd := ⟨0x9024, 31, 16⟩
abbrev F.plCnt1_flushed : Fd := ⟨0x9028, 15, 0⟩
abbrev F.plCnt1_unacked : Fd := ⟨0x9028, 31, 16⟩
abbrev F.plSlots_bound : Fd := ⟨0x902C, 7, 0⟩
abbrev F.plSlots_waits : Fd := ⟨0x902C, 31, 16⟩
abbrev F.plEvf_link0 : Fd := ⟨0x9030, 0, 0⟩
abbrev F.plEvf_link1 : Fd := ⟨0x9030, 1, 1⟩
abbrev F.plEvf_ring : Fd := ⟨0x9030, 2, 2⟩
abbrev F.plEvf_fault : Fd := ⟨0x9030, 3, 3⟩
abbrev F.vioStat_stopped : Fd := ⟨0x9800, 0, 0⟩
abbrev F.vioStat_rela : Fd := ⟨0x9800, 1, 1⟩
abbrev F.vioStat_relb : Fd := ⟨0x9800, 2, 2⟩
abbrev F.vioStat_relFault : Fd := ⟨0x9800, 3, 3⟩
abbrev F.vioStat_fbRaw : Fd := ⟨0x9800, 4, 4⟩
abbrev F.vioCmd_clrCnt : Fd := ⟨0x9804, 0, 0⟩
abbrev F.vioDest_mgrp : Fd := ⟨0x9808, 7, 0⟩
abbrev F.vioDest_mc : Fd := ⟨0x9808, 8, 8⟩
abbrev F.vioMtrcfg_minon : Fd := ⟨0x980C, 7, 0⟩
abbrev F.vioMtrcfg_minoff : Fd := ⟨0x980C, 15, 8⟩
abbrev F.vioMtrcfg_polD : Fd := ⟨0x980C, 16, 16⟩
abbrev F.vioMtrcfg_polC : Fd := ⟨0x980C, 17, 17⟩
abbrev F.vioCanCfg_en (n : Nat) : Fd := ⟨0x9810 + 0x20 * n, 0, 0⟩
abbrev F.vioCanCfg_veh (n : Nat) : Fd := ⟨0x9810 + 0x20 * n, 1, 1⟩
abbrev F.vioCanCfg_nrate (n : Nat) : Fd := ⟨0x9810 + 0x20 * n, 3, 2⟩
abbrev F.vioCanCfg_drate (n : Nat) : Fd := ⟨0x9810 + 0x20 * n, 5, 4⟩
abbrev F.vioCanSid_id (n : Nat) : Fd := ⟨0x9814 + 0x20 * n, 28, 0⟩
abbrev F.vioCanSid_ide (n : Nat) : Fd := ⟨0x9814 + 0x20 * n, 31, 31⟩
abbrev F.vioCanRid_id (n : Nat) : Fd := ⟨0x9818 + 0x20 * n, 28, 0⟩
abbrev F.vioCanRid_ide (n : Nat) : Fd := ⟨0x9818 + 0x20 * n, 31, 31⟩
abbrev F.vioCanStat_state (n : Nat) : Fd := ⟨0x981C + 0x20 * n, 1, 0⟩
abbrev F.vioCanStat_tec (n : Nat) : Fd := ⟨0x981C + 0x20 * n, 15, 8⟩
abbrev F.vioCanStat_rec (n : Nat) : Fd := ⟨0x981C + 0x20 * n, 23, 16⟩
abbrev F.vioCanCnt_ok (n : Nat) : Fd := ⟨0x9820 + 0x20 * n, 15, 0⟩
abbrev F.vioCanCnt_bad (n : Nat) : Fd := ⟨0x9820 + 0x20 * n, 23, 16⟩
abbrev F.vioCanCnt_dup (n : Nat) : Fd := ⟨0x9820 + 0x20 * n, 31, 24⟩
abbrev F.vioCanEvf_authFail (n : Nat) : Fd := ⟨0x9824 + 0x20 * n, 0, 0⟩
abbrev F.vioCanEvf_replay (n : Nat) : Fd := ⟨0x9824 + 0x20 * n, 1, 1⟩
abbrev F.vioCanEvf_busoff (n : Nat) : Fd := ⟨0x9824 + 0x20 * n, 2, 2⟩
abbrev F.vioCanEvf_errPassive (n : Nat) : Fd := ⟨0x9824 + 0x20 * n, 3, 3⟩
abbrev F.vioCanEvf_recovered (n : Nat) : Fd := ⟨0x9824 + 0x20 * n, 4, 4⟩
abbrev F.vioCanEvf_relFault (n : Nat) : Fd := ⟨0x9824 + 0x20 * n, 5, 5⟩
abbrev F.vioStsctr_ctr : Fd := ⟨0x9850, 31, 0⟩
abbrev F.vioReqctr_ctr : Fd := ⟨0x9854, 31, 0⟩
abbrev F.vioEpdcnt_count : Fd := ⟨0x9858, 31, 0⟩
abbrev F.vioEpccnt_count : Fd := ⟨0x985C, 31, 0⟩
abbrev F.vioEpdevf_pulse : Fd := ⟨0x9860, 0, 0⟩
abbrev F.vioEpdevf_glitch : Fd := ⟨0x9860, 1, 1⟩
abbrev F.vioEpdevf_rate : Fd := ⟨0x9860, 2, 2⟩
abbrev F.vioEpdevf_wrap : Fd := ⟨0x9860, 3, 3⟩
abbrev F.vioEpcevf_pulse : Fd := ⟨0x9864, 0, 0⟩
abbrev F.vioEpcevf_glitch : Fd := ⟨0x9864, 1, 1⟩
abbrev F.vioEpcevf_rate : Fd := ⟨0x9864, 2, 2⟩
abbrev F.vioEpcevf_wrap : Fd := ⟨0x9864, 3, 3⟩
abbrev F.vioTampevf_active (n : Nat) : Fd := ⟨0x9870 + 0x4 * n, 0, 0⟩
abbrev F.vioTampevf_inactive (n : Nat) : Fd := ⟨0x9870 + 0x4 * n, 1, 1⟩
abbrev F.vioGpcfg0_dir : Fd := ⟨0x9880, 7, 0⟩
abbrev F.vioGpcfg0_out : Fd := ⟨0x9880, 15, 8⟩
abbrev F.vioGpcfg0_in : Fd := ⟨0x9880, 23, 16⟩
abbrev F.vioGpcfg1_wake : Fd := ⟨0x9884, 15, 0⟩
abbrev F.vioGpcfg1_pull : Fd := ⟨0x9884, 31, 16⟩
abbrev F.secStat_lc : Fd := ⟨0xA000, 2, 0⟩
abbrev F.secStat_rootOk : Fd := ⟨0xA000, 3, 3⟩
abbrev F.secStat_intkey : Fd := ⟨0xA000, 4, 4⟩
abbrev F.secStat_newkey : Fd := ⟨0xA000, 5, 5⟩
abbrev F.secStat_test : Fd := ⟨0xA000, 6, 6⟩
abbrev F.secStat_dbgLevel : Fd := ⟨0xA000, 9, 8⟩
abbrev F.secStat_transfers : Fd := ⟨0xA000, 18, 16⟩
abbrev F.secStat_fwSvn : Fd := ⟨0xA000, 30, 24⟩
abbrev F.secEpoch_epoch : Fd := ⟨0xA004, 31, 0⟩
abbrev F.secAuthseqLo_seq : Fd := ⟨0xA008, 31, 0⟩
abbrev F.secAuthseqHi_seq : Fd := ⟨0xA00C, 31, 0⟩
abbrev F.secDevid_id (n : Nat) : Fd := ⟨0xA010 + 0x4 * n, 31, 0⟩
abbrev F.secTampcfg_en : Fd := ⟨0xA020, 3, 0⟩
abbrev F.secTampcfg_pol : Fd := ⟨0xA020, 7, 4⟩
abbrev F.secTamp_level : Fd := ⟨0xA024, 3, 0⟩
abbrev F.secTamp_latch : Fd := ⟨0xA024, 7, 4⟩
abbrev F.secTamp_clear : Fd := ⟨0xA024, 8, 8⟩
abbrev F.secFw_state : Fd := ⟨0xA028, 1, 0⟩
abbrev F.secFw_status : Fd := ⟨0xA028, 15, 8⟩
abbrev F.secFwver_version : Fd := ⟨0xA02C, 31, 0⟩
abbrev F.ivcCtrl_run : Fd := ⟨0xA800, 0, 0⟩
abbrev F.ivcStat_running : Fd := ⟨0xA804, 0, 0⟩
abbrev F.ivcStat_wide : Fd := ⟨0xA804, 1, 1⟩
abbrev F.ivcStat_wlock : Fd := ⟨0xA804, 2, 2⟩
abbrev F.ivcStat_txbusy : Fd := ⟨0xA804, 3, 3⟩
abbrev F.ivcStat_txerr : Fd := ⟨0xA804, 4, 4⟩
abbrev F.ivcStat_overrun : Fd := ⟨0xA804, 5, 5⟩
abbrev F.ivcStat_resetCause : Fd := ⟨0xA804, 10, 8⟩
abbrev F.ivcTrap_cause : Fd := ⟨0xA808, 4, 0⟩
abbrev F.ivcTrappc_pc : Fd := ⟨0xA80C, 31, 0⟩
abbrev F.ivcFwext_ops : Fd := ⟨0xA810, 31, 0⟩
abbrev F.ivcWdt_timeout : Fd := ⟨0xA814, 15, 0⟩
abbrev F.ivcWdt_lock : Fd := ⟨0xA814, 16, 16⟩
abbrev F.ivcWdkick_key : Fd := ⟨0xA818, 7, 0⟩
abbrev F.ivcTxaddr_addr : Fd := ⟨0xA81C, 31, 0⟩
abbrev F.ivcTxctl_len : Fd := ⟨0xA820, 15, 0⟩
abbrev F.ivcTxctl_queue : Fd := ⟨0xA820, 19, 16⟩
abbrev F.ivcTxctl_go : Fd := ⟨0xA820, 20, 20⟩
abbrev F.ivcEvf_wdtWarn : Fd := ⟨0xA824, 0, 0⟩
abbrev F.ivcEvf_wdtReset : Fd := ⟨0xA824, 1, 1⟩
abbrev F.ivcEvf_dfault : Fd := ⟨0xA824, 2, 2⟩
abbrev F.ivcQBase_base (n : Nat) : Fd := ⟨0xA900 + 0x10 * n, 31, 0⟩
abbrev F.ivcQCfg_size (n : Nat) : Fd := ⟨0xA904 + 0x10 * n, 3, 0⟩
abbrev F.ivcQCfg_en (n : Nat) : Fd := ⟨0xA904 + 0x10 * n, 4, 4⟩
abbrev F.ivcQCfg_level (n : Nat) : Fd := ⟨0xA904 + 0x10 * n, 7, 5⟩
abbrev F.ivcQHead_head (n : Nat) : Fd := ⟨0xA908 + 0x10 * n, 15, 0⟩
abbrev F.ivcQTail_tail (n : Nat) : Fd := ⟨0xA90C + 0x10 * n, 15, 0⟩

-- Per block: ⟨base, stride, count, [⟨hi, lo, access, reset⟩]⟩; a bit that no field names is reserved (reads 0).
def regsId : List RegSpec := [
  ⟨0x0000, 0x4, 1, [⟨15, 0, .ro, 0⟩, ⟨31, 16, .ro, 18450⟩]⟩,
  ⟨0x0004, 0x4, 1, [⟨7, 0, .ro, 176⟩]⟩,
  ⟨0x0008, 0x4, 1, [⟨5, 0, .ro, 0⟩, ⟨6, 6, .ro, 0⟩, ⟨7, 7, .ro, 0⟩]⟩,
  ⟨0x000C, 0x4, 1, [⟨0, 0, .w1s, 0⟩, ⟨1, 1, .w1s, 0⟩, ⟨2, 2, .wo, 0⟩, ⟨8, 8, .ro, 0⟩, ⟨9, 9, .ro, 0⟩]⟩,
  ⟨0x0010, 0x4, 4, [⟨31, 0, .ro, 0⟩]⟩,
  ⟨0x0020, 0x4, 4, [⟨31, 0, .rw, 0⟩]⟩ ]

def regsHr : List RegSpec := [
  ⟨0x0400, 0x4, 1, [⟨6, 0, .ro, 0⟩]⟩,
  ⟨0x0404, 0x4, 1, [⟨3, 0, .ro, 0⟩, ⟨7, 4, .ro, 0⟩]⟩,
  ⟨0x0408, 0x4, 1, [⟨15, 0, .ro, 0⟩, ⟨17, 16, .ro, 0⟩]⟩,
  ⟨0x040C, 0x4, 1, [⟨15, 0, .ro, 0⟩, ⟨31, 16, .ro, 0⟩]⟩,
  ⟨0x0410, 0x4, 1, [⟨0, 0, .w1c, 0⟩, ⟨1, 1, .w1c, 0⟩, ⟨2, 2, .w1c, 0⟩, ⟨3, 3, .w1c, 0⟩]⟩,
  ⟨0x0440, 0x4, 1, [⟨31, 0, .rw, 0⟩]⟩,
  ⟨0x0444, 0x4, 1, [⟨31, 0, .rw, 0⟩]⟩,
  ⟨0x0448, 0x4, 1, [⟨3, 0, .rw, 0⟩, ⟨4, 4, .rw, 0⟩, ⟨5, 5, .rw, 0⟩, ⟨12, 8, .rw, 0⟩]⟩,
  ⟨0x044C, 0x4, 1, [⟨11, 0, .ro, 0⟩, ⟨12, 12, .ro, 1⟩, ⟨27, 16, .ro, 0⟩, ⟨31, 31, .ro, 0⟩]⟩,
  ⟨0x0500, 0x40, 16, [⟨31, 0, .rw, 0⟩]⟩,
  ⟨0x0504, 0x40, 16, [⟨31, 0, .rw, 0⟩]⟩,
  ⟨0x0508, 0x40, 16, [⟨3, 0, .rw, 0⟩, ⟨4, 4, .rw, 0⟩, ⟨11, 8, .rw, 0⟩]⟩,
  ⟨0x050C, 0x40, 16, [⟨11, 0, .ro, 0⟩, ⟨27, 16, .ro, 0⟩, ⟨28, 28, .ro, 0⟩]⟩,
  ⟨0x0510, 0x40, 16, [⟨31, 0, .rw, 0⟩]⟩,
  ⟨0x0514, 0x40, 16, [⟨31, 0, .rw, 0⟩]⟩,
  ⟨0x0518, 0x40, 16, [⟨3, 0, .rw, 0⟩, ⟨4, 4, .rw, 0⟩, ⟨5, 5, .rw, 0⟩, ⟨12, 8, .rw, 0⟩]⟩,
  ⟨0x051C, 0x40, 16, [⟨11, 0, .ro, 0⟩, ⟨12, 12, .ro, 1⟩, ⟨27, 16, .ro, 0⟩, ⟨28, 28, .ro, 0⟩]⟩ ]

def regsEv : List RegSpec := [
  ⟨0x1000, 0x4, 128, [⟨15, 0, .rw, 65535⟩, ⟨18, 16, .rw, 0⟩, ⟨19, 19, .rw, 1⟩, ⟨20, 20, .rw, 0⟩, ⟨21, 21, .ro, 0⟩]⟩,
  ⟨0x1200, 0x4, 1, [⟨0, 0, .wo, 0⟩, ⟨1, 1, .wo, 0⟩]⟩,
  ⟨0x1204, 0x4, 1, [⟨6, 0, .rw, 0⟩, ⟨11, 8, .rw, 0⟩]⟩,
  ⟨0x1208, 0x4, 1, [⟨7, 0, .ro, 0⟩, ⟨15, 8, .ro, 0⟩]⟩,
  ⟨0x120C, 0x4, 1, [⟨15, 0, .rw, 0⟩, ⟨31, 16, .rw, 0⟩]⟩,
  ⟨0x1210, 0x4, 1, [⟨0, 0, .w1c, 0⟩, ⟨1, 1, .w1c, 0⟩]⟩,
  ⟨0x1214, 0x4, 1, [⟨0, 0, .w1c, 0⟩, ⟨1, 1, .w1c, 0⟩]⟩,
  ⟨0x1220, 0x4, 4, [⟨31, 0, .ro, 0⟩]⟩ ]

def regsSnp : List RegSpec := [
  ⟨0x1800, 0x4, 1, [⟨0, 0, .rw, 0⟩, ⟨1, 1, .rw, 0⟩, ⟨2, 2, .rw, 0⟩, ⟨3, 3, .rw, 0⟩, ⟨10, 4, .rw, 0⟩]⟩,
  ⟨0x1804, 0x4, 1, [⟨0, 0, .wo, 0⟩, ⟨1, 1, .wo, 0⟩, ⟨2, 2, .wo, 0⟩]⟩,
  ⟨0x1808, 0x4, 1, [⟨0, 0, .ro, 0⟩, ⟨1, 1, .ro, 0⟩, ⟨4, 2, .ro, 0⟩, ⟨31, 16, .ro, 0⟩]⟩,
  ⟨0x180C, 0x4, 1, [⟨15, 0, .ro, 0⟩, ⟨31, 16, .ro, 0⟩]⟩,
  ⟨0x1810, 0x4, 1, [⟨0, 0, .w1c, 0⟩, ⟨1, 1, .w1c, 0⟩]⟩,
  ⟨0x1900, 0x4, 64, [⟨31, 0, .ro, 0⟩]⟩,
  ⟨0x1C00, 0x4, 1, [⟨10, 0, .rw, 600⟩]⟩,
  ⟨0x1C04, 0x4, 1, [⟨8, 0, .rw, 180⟩]⟩,
  ⟨0x1C08, 0x4, 1, [⟨10, 0, .ro, 0⟩, ⟨26, 16, .ro, 0⟩]⟩,
  ⟨0x1C0C, 0x4, 1, [⟨8, 0, .ro, 0⟩]⟩,
  ⟨0x1C10, 0x4, 1, [⟨15, 0, .ro, 0⟩, ⟨31, 16, .ro, 0⟩]⟩,
  ⟨0x1C14, 0x4, 1, [⟨10, 0, .ro, 0⟩, ⟨24, 16, .ro, 0⟩]⟩,
  ⟨0x1C18, 0x4, 1, [⟨0, 0, .wo, 0⟩]⟩ ]

def regsPm : List RegSpec := [
  ⟨0x2000, 0x4, 1, [⟨2, 0, .rw, 6⟩]⟩,
  ⟨0x2004, 0x4, 1, [⟨2, 0, .ro, 4⟩, ⟨3, 3, .ro, 0⟩, ⟨4, 4, .ro, 0⟩, ⟨5, 5, .ro, 0⟩, ⟨6, 6, .ro, 0⟩, ⟨7, 7, .ro, 0⟩, ⟨10, 8, .ro, 0⟩]⟩,
  ⟨0x2008, 0x4, 1, [⟨0, 0, .rw, 0⟩, ⟨1, 1, .rw, 1⟩, ⟨2, 2, .rw, 1⟩, ⟨15, 8, .rw, 55⟩, ⟨31, 16, .rw, 200⟩]⟩,
  ⟨0x200C, 0x4, 1, [⟨2, 0, .ro, 0⟩, ⟨4, 3, .ro, 0⟩, ⟨15, 8, .ro, 255⟩]⟩,
  ⟨0x2010, 0x4, 1, [⟨0, 0, .ro, 1⟩, ⟨1, 1, .ro, 1⟩, ⟨9, 2, .rw, 255⟩, ⟨17, 10, .rw, 0⟩, ⟨18, 18, .ro, 1⟩]⟩,
  ⟨0x2014, 0x4, 1, [⟨18, 0, .w1c, 0⟩]⟩,
  ⟨0x2018, 0x4, 1, [⟨31, 0, .rw, 0⟩]⟩,
  ⟨0x201C, 0x4, 1, [⟨11, 0, .rw, 100⟩, ⟨15, 12, .rw, 2⟩, ⟨23, 16, .rw, 8⟩, ⟨26, 24, .rw, 0⟩, ⟨27, 27, .rw, 0⟩]⟩,
  ⟨0x2020, 0x4, 1, [⟨31, 0, .rw, 0⟩]⟩,
  ⟨0x2024, 0x4, 1, [⟨15, 0, .rw, 0⟩]⟩,
  ⟨0x2028, 0x4, 1, [⟨19, 0, .rw, 0⟩, ⟨31, 20, .rw, 100⟩]⟩,
  ⟨0x202C, 0x4, 1, [⟨7, 0, .ro, 0⟩]⟩,
  ⟨0x2030, 0x4, 1, [⟨9, 0, .ro, 0⟩, ⟨25, 16, .rw, 90⟩]⟩,
  ⟨0x2034, 0x4, 1, [⟨12, 0, .ro, 0⟩, ⟨13, 13, .ro, 0⟩, ⟨14, 14, .ro, 0⟩, ⟨15, 15, .ro, 0⟩, ⟨23, 16, .ro, 0⟩]⟩,
  ⟨0x2038, 0x4, 1, [⟨0, 0, .w1c, 0⟩, ⟨1, 1, .w1c, 0⟩, ⟨2, 2, .w1c, 0⟩, ⟨3, 3, .w1c, 0⟩]⟩,
  ⟨0x203C, 0x4, 1, [⟨0, 0, .w1c, 0⟩, ⟨1, 1, .w1c, 0⟩, ⟨2, 2, .w1c, 0⟩, ⟨3, 3, .w1c, 0⟩]⟩,
  ⟨0x2100, 0x4, 1, [⟨0, 0, .w1s, 0⟩, ⟨1, 1, .w1s, 0⟩, ⟨2, 2, .rw, 0⟩, ⟨3, 3, .rw, 0⟩]⟩,
  ⟨0x2104, 0x4, 1, [⟨0, 0, .ro, 0⟩, ⟨1, 1, .ro, 0⟩, ⟨2, 2, .ro, 0⟩, ⟨3, 3, .ro, 0⟩, ⟨4, 4, .ro, 0⟩, ⟨5, 5, .ro, 0⟩, ⟨6, 6, .ro, 0⟩]⟩,
  ⟨0x2108, 0x4, 1, [⟨3, 0, .ro, 0⟩]⟩,
  ⟨0x210C, 0x4, 1, [⟨0, 0, .wo, 0⟩, ⟨15, 8, .wo, 0⟩]⟩,
  ⟨0x2110, 0x4, 1, [⟨15, 0, .ro, 0⟩]⟩,
  ⟨0x2114, 0x4, 1, [⟨1, 0, .ro, 0⟩, ⟨2, 2, .ro, 0⟩, ⟨31, 16, .ro, 0⟩]⟩,
  ⟨0x2118, 0x4, 1, [⟨0, 0, .w1c, 0⟩, ⟨1, 1, .w1c, 0⟩, ⟨2, 2, .w1c, 0⟩]⟩ ]

def regsSw : List RegSpec := [
  ⟨0x3000, 0x4, 1, [⟨7, 0, .so, 100⟩]⟩,
  ⟨0x3004, 0x4, 1, [⟨0, 0, .ro, 0⟩, ⟨1, 1, .ro, 1⟩, ⟨2, 2, .ro, 0⟩, ⟨25, 8, .ro, 0⟩]⟩,
  ⟨0x3008, 0x4, 1, [⟨0, 0, .wo, 0⟩, ⟨1, 1, .wo, 0⟩, ⟨2, 2, .wo, 0⟩, ⟨3, 3, .wo, 0⟩]⟩,
  ⟨0x300C, 0x4, 1, [⟨15, 0, .ro, 0⟩, ⟨31, 16, .ro, 0⟩]⟩,
  ⟨0x3010, 0x4, 1, [⟨15, 0, .ro, 0⟩, ⟨31, 16, .ro, 0⟩]⟩,
  ⟨0x3020, 0x4, 1, [⟨7, 0, .wo, 0⟩, ⟨8, 8, .wo, 0⟩, ⟨9, 9, .wo, 0⟩, ⟨10, 10, .wo, 0⟩]⟩,
  ⟨0x3040, 0x4, 6, [⟨31, 0, .rw, 0⟩]⟩,
  ⟨0x3100, 0x40, 16, [⟨0, 0, .rw, 1⟩, ⟨4, 1, .so, 1⟩]⟩,
  ⟨0x3104, 0x40, 16, [⟨15, 0, .so, 1024⟩, ⟨31, 16, .so, 2048⟩]⟩,
  ⟨0x3108, 0x40, 16, [⟨15, 0, .so, 4096⟩, ⟨31, 16, .so, 256⟩]⟩,
  ⟨0x310C, 0x40, 16, [⟨15, 0, .so, 768⟩, ⟨31, 16, .so, 256⟩]⟩,
  ⟨0x3110, 0x40, 16, [⟨0, 0, .ro, 0⟩, ⟨4, 1, .ro, 0⟩]⟩,
  ⟨0x3114, 0x40, 16, [⟨31, 0, .ro, 0⟩]⟩,
  ⟨0x3118, 0x40, 16, [⟨15, 0, .ro, 0⟩, ⟨31, 16, .ro, 0⟩]⟩,
  ⟨0x311C, 0x40, 16, [⟨15, 0, .ro, 0⟩, ⟨31, 16, .ro, 0⟩]⟩,
  ⟨0x3120, 0x40, 16, [⟨15, 0, .ro, 0⟩, ⟨31, 16, .ro, 0⟩]⟩,
  ⟨0x3124, 0x40, 16, [⟨15, 0, .ro, 0⟩, ⟨31, 16, .ro, 0⟩]⟩,
  ⟨0x3128, 0x40, 16, [⟨0, 0, .w1c, 0⟩, ⟨1, 1, .w1c, 0⟩, ⟨2, 2, .w1c, 0⟩, ⟨3, 3, .w1c, 0⟩, ⟨4, 4, .w1c, 0⟩, ⟨5, 5, .w1c, 0⟩, ⟨6, 6, .w1c, 0⟩, ⟨7, 7, .w1c, 0⟩, ⟨8, 8, .w1c, 0⟩]⟩ ]

def regsBsn : List RegSpec := [
  ⟨0x3800, 0x4, 1, [⟨0, 0, .so, 0⟩]⟩,
  ⟨0x3804, 0x4, 1, [⟨0, 0, .ro, 0⟩, ⟨1, 1, .ro, 0⟩, ⟨2, 2, .ro, 0⟩, ⟨3, 3, .ro, 0⟩, ⟨4, 4, .ro, 0⟩]⟩,
  ⟨0x3808, 0x4, 1, [⟨0, 0, .wo, 0⟩, ⟨1, 1, .wo, 0⟩, ⟨2, 2, .wo, 0⟩, ⟨3, 3, .wo, 0⟩]⟩,
  ⟨0x3810, 0x4, 1, [⟨5, 0, .rw, 32⟩, ⟨21, 16, .ro, 0⟩]⟩,
  ⟨0x3814, 0x4, 1, [⟨5, 0, .rw, 16⟩, ⟨21, 16, .ro, 32⟩]⟩,
  ⟨0x3818, 0x4, 1, [⟨5, 0, .rw, 8⟩, ⟨21, 16, .ro, 48⟩]⟩,
  ⟨0x381C, 0x4, 1, [⟨5, 0, .rw, 4⟩, ⟨21, 16, .ro, 56⟩]⟩,
  ⟨0x3820, 0x4, 1, [⟨5, 0, .rw, 2⟩, ⟨21, 16, .ro, 60⟩]⟩,
  ⟨0x3830, 0x4, 1, [⟨17, 0, .ro, 0⟩]⟩,
  ⟨0x3834, 0x4, 1, [⟨24, 0, .ro, 0⟩]⟩,
  ⟨0x3838, 0x4, 1, [⟨15, 0, .ro, 0⟩, ⟨31, 16, .ro, 0⟩]⟩,
  ⟨0x383C, 0x4, 1, [⟨0, 0, .w1c, 0⟩, ⟨1, 1, .w1c, 0⟩, ⟨2, 2, .w1c, 0⟩]⟩,
  ⟨0x3900, 0x4, 1, [⟨15, 0, .so, 3600⟩]⟩,
  ⟨0x3904, 0x4, 1, [⟨0, 0, .ro, 1⟩, ⟨1, 1, .ro, 0⟩, ⟨2, 2, .ro, 0⟩, ⟨3, 3, .ro, 0⟩, ⟨29, 16, .ro, 0⟩]⟩,
  ⟨0x3908, 0x4, 1, [⟨2, 0, .wo, 0⟩, ⟨3, 3, .wo, 0⟩, ⟨4, 4, .wo, 0⟩, ⟨15, 8, .wo, 0⟩, ⟨29, 16, .wo, 0⟩]⟩,
  ⟨0x390C, 0x4, 1, [⟨0, 0, .ro, 0⟩, ⟨15, 8, .ro, 0⟩, ⟨31, 16, .ro, 0⟩]⟩,
  ⟨0x3910, 0x4, 1, [⟨13, 0, .ro, 0⟩]⟩,
  ⟨0x3914, 0x4, 1, [⟨13, 0, .ro, 0⟩, ⟨29, 16, .ro, 0⟩]⟩,
  ⟨0x3918, 0x4, 1, [⟨15, 0, .ro, 0⟩, ⟨31, 16, .ro, 0⟩]⟩,
  ⟨0x391C, 0x4, 1, [⟨7, 0, .rw, 0⟩]⟩,
  ⟨0x3920, 0x4, 1, [⟨13, 0, .ro, 0⟩]⟩,
  ⟨0x3924, 0x4, 1, [⟨0, 0, .w1c, 0⟩, ⟨1, 1, .w1c, 0⟩, ⟨2, 2, .w1c, 0⟩, ⟨3, 3, .w1c, 0⟩]⟩,
  ⟨0x3940, 0x4, 16, [⟨31, 0, .rw, 0⟩]⟩ ]

def regsCoil : List RegSpec := [
  ⟨0x4000, 0x4, 1, [⟨3, 0, .so, 8⟩, ⟨15, 8, .so, 12⟩, ⟨19, 16, .so, 4⟩, ⟨23, 20, .so, 8⟩]⟩,
  ⟨0x4004, 0x4, 1, [⟨11, 0, .so, 150⟩]⟩,
  ⟨0x4008, 0x4, 1, [⟨0, 0, .ro, 0⟩, ⟨1, 1, .ro, 0⟩, ⟨2, 2, .ro, 0⟩, ⟨3, 3, .ro, 0⟩, ⟨4, 4, .ro, 0⟩, ⟨11, 8, .ro, 0⟩, ⟨17, 12, .ro, 0⟩, ⟨31, 18, .ro, 0⟩]⟩,
  ⟨0x400C, 0x4, 1, [⟨0, 0, .wo, 0⟩, ⟨1, 1, .wo, 0⟩, ⟨2, 2, .wo, 0⟩, ⟨3, 3, .wo, 0⟩, ⟨4, 4, .wo, 0⟩, ⟨5, 5, .wo, 0⟩, ⟨6, 6, .wo, 0⟩, ⟨7, 7, .wo, 0⟩, ⟨21, 16, .wo, 0⟩]⟩,
  ⟨0x4010, 0x4, 1, [⟨15, 0, .so, 60⟩]⟩,
  ⟨0x4014, 0x4, 1, [⟨11, 0, .rw, 0⟩]⟩,
  ⟨0x4018, 0x4, 1, [⟨31, 0, .so, 0⟩]⟩,
  ⟨0x401C, 0x4, 1, [⟨9, 0, .rw, 0⟩]⟩,
  ⟨0x4020, 0x4, 1, [⟨31, 0, .so, 0⟩]⟩,
  ⟨0x4024, 0x4, 1, [⟨0, 0, .so, 0⟩]⟩,
  ⟨0x4028, 0x4, 1, [⟨15, 0, .ro, 0⟩, ⟨31, 16, .ro, 0⟩]⟩,
  ⟨0x4080, 0x10, 6, [⟨7, 0, .so, 75⟩, ⟨15, 8, .so, 190⟩]⟩,
  ⟨0x4084, 0x10, 6, [⟨5, 0, .ro, 0⟩, ⟨6, 6, .ro, 0⟩, ⟨13, 8, .ro, 0⟩, ⟨14, 14, .ro, 0⟩, ⟨15, 15, .ro, 0⟩, ⟨16, 16, .ro, 0⟩, ⟨17, 17, .ro, 0⟩, ⟨18, 18, .ro, 0⟩, ⟨31, 24, .ro, 0⟩]⟩,
  ⟨0x4088, 0x10, 6, [⟨0, 0, .w1c, 0⟩, ⟨1, 1, .w1c, 0⟩, ⟨2, 2, .w1c, 0⟩, ⟨3, 3, .w1c, 0⟩]⟩,
  ⟨0x4100, 0x20, 48, [⟨0, 0, .so, 0⟩, ⟨1, 1, .so, 1⟩, ⟨2, 2, .so, 1⟩, ⟨7, 4, .rw, 0⟩]⟩,
  ⟨0x4104, 0x20, 48, [⟨17, 0, .so, 0⟩]⟩,
  ⟨0x4108, 0x20, 48, [⟨17, 0, .ro, 0⟩, ⟨25, 18, .ro, 0⟩]⟩,
  ⟨0x410C, 0x20, 48, [⟨17, 0, .ro, 0⟩, ⟨25, 18, .ro, 0⟩]⟩,
  ⟨0x4110, 0x20, 48, [⟨2, 0, .ro, 0⟩, ⟨3, 3, .ro, 0⟩, ⟨4, 4, .ro, 0⟩, ⟨5, 5, .ro, 0⟩, ⟨7, 6, .ro, 0⟩, ⟨15, 8, .ro, 0⟩]⟩,
  ⟨0x4114, 0x20, 48, [⟨0, 0, .w1c, 0⟩, ⟨1, 1, .w1c, 0⟩, ⟨2, 2, .w1c, 0⟩, ⟨3, 3, .w1c, 0⟩]⟩ ]

def regsCld : List RegSpec := [
  ⟨0x4800, 0x4, 1, [⟨1, 0, .so, 2⟩, ⟨5, 2, .so, 8⟩, ⟨6, 6, .so, 1⟩, ⟨15, 8, .so, 16⟩, ⟨19, 16, .so, 6⟩]⟩,
  ⟨0x4804, 0x4, 1, [⟨31, 0, .so, 0⟩]⟩,
  ⟨0x4808, 0x4, 1, [⟨15, 0, .so, 0⟩]⟩,
  ⟨0x480C, 0x4, 1, [⟨3, 0, .ro, 0⟩, ⟨4, 4, .ro, 0⟩, ⟨15, 8, .ro, 0⟩]⟩,
  ⟨0x4810, 0x4, 1, [⟨15, 0, .ro, 0⟩, ⟨31, 16, .ro, 0⟩]⟩,
  ⟨0x4814, 0x4, 1, [⟨15, 0, .ro, 0⟩, ⟨31, 16, .ro, 0⟩]⟩,
  ⟨0x4818, 0x4, 1, [⟨0, 0, .wo, 0⟩]⟩,
  ⟨0x4840, 0x4, 8, [⟨5, 0, .ro, 0⟩, ⟨6, 6, .ro, 0⟩, ⟨15, 8, .ro, 0⟩, ⟨23, 16, .ro, 0⟩, ⟨27, 24, .ro, 0⟩, ⟨31, 28, .ro, 0⟩]⟩ ]

def regsRf : List RegSpec := [
  ⟨0x5000, 0x4, 1, [⟨0, 0, .so, 1⟩, ⟨1, 1, .so, 0⟩, ⟨11, 8, .so, 10⟩, ⟨22, 16, .so, 10⟩]⟩,
  ⟨0x5004, 0x4, 1, [⟨2, 0, .ro, 0⟩, ⟨3, 3, .ro, 0⟩, ⟨4, 4, .ro, 0⟩, ⟨5, 5, .ro, 0⟩, ⟨6, 6, .ro, 0⟩, ⟨15, 8, .ro, 0⟩, ⟨19, 16, .ro, 0⟩]⟩,
  ⟨0x5008, 0x4, 1, [⟨0, 0, .wo, 0⟩, ⟨1, 1, .wo, 0⟩, ⟨2, 2, .wo, 0⟩, ⟨3, 3, .wo, 0⟩, ⟨15, 8, .wo, 0⟩]⟩,
  ⟨0x500C, 0x4, 1, [⟨1, 0, .so, 0⟩, ⟨3, 2, .so, 0⟩, ⟨5, 4, .so, 0⟩, ⟨6, 6, .so, 0⟩]⟩,
  ⟨0x5010, 0x4, 1, [⟨8, 0, .rw, 0⟩]⟩,
  ⟨0x5014, 0x4, 1, [⟨31, 0, .so, 0⟩]⟩,
  ⟨0x5018, 0x4, 1, [⟨19, 0, .ro, 0⟩]⟩,
  ⟨0x501C, 0x4, 1, [⟨5, 0, .ro, 0⟩, ⟨15, 8, .ro, 0⟩, ⟨19, 16, .ro, 0⟩]⟩,
  ⟨0x5020, 0x4, 1, [⟨7, 0, .ro, 128⟩, ⟨15, 8, .ro, 128⟩]⟩,
  ⟨0x5024, 0x4, 1, [⟨15, 0, .ro, 0⟩, ⟨31, 16, .ro, 0⟩]⟩,
  ⟨0x5028, 0x4, 1, [⟨15, 0, .ro, 0⟩, ⟨31, 16, .ro, 0⟩]⟩,
  ⟨0x502C, 0x4, 1, [⟨15, 0, .ro, 0⟩, ⟨31, 16, .ro, 0⟩]⟩,
  ⟨0x5030, 0x4, 1, [⟨31, 0, .ro, 0⟩]⟩,
  ⟨0x5034, 0x4, 1, [⟨0, 0, .w1c, 0⟩, ⟨1, 1, .w1c, 0⟩, ⟨2, 2, .w1c, 0⟩, ⟨3, 3, .w1c, 0⟩, ⟨4, 4, .w1c, 0⟩, ⟨5, 5, .w1c, 0⟩]⟩,
  ⟨0x5040, 0x4, 16, [⟨21, 0, .ro, 0⟩]⟩,
  ⟨0x5080, 0x10, 8, [⟨1, 0, .so, 0⟩, ⟨12, 8, .so, 0⟩, ⟨31, 16, .so, 0⟩]⟩,
  ⟨0x5084, 0x10, 8, [⟨11, 0, .so, 0⟩]⟩,
  ⟨0x5088, 0x10, 8, [⟨31, 0, .so, 0⟩]⟩,
  ⟨0x508C, 0x10, 8, []⟩,
  ⟨0x5100, 0x4, 32, [⟨9, 0, .ro, 0⟩, ⟨23, 16, .so, 0⟩, ⟨31, 24, .so, 0⟩]⟩ ]

def regsPrx : List RegSpec := [
  ⟨0x5800, 0x4, 1, [⟨0, 0, .so, 1⟩, ⟨1, 1, .so, 1⟩, ⟨12, 8, .so, 31⟩, ⟨18, 16, .so, 7⟩]⟩,
  ⟨0x5804, 0x4, 1, [⟨0, 0, .ro, 0⟩, ⟨1, 1, .ro, 0⟩, ⟨2, 2, .ro, 0⟩, ⟨15, 8, .ro, 0⟩]⟩,
  ⟨0x5808, 0x4, 1, [⟨0, 0, .wo, 0⟩, ⟨1, 1, .wo, 0⟩]⟩,
  ⟨0x580C, 0x4, 1, [⟨31, 0, .ro, 0⟩]⟩,
  ⟨0x5810, 0x4, 1, [⟨7, 0, .so, 0⟩, ⟨12, 8, .so, 20⟩, ⟨20, 16, .so, 20⟩, ⟨30, 24, .so, 40⟩]⟩,
  ⟨0x5814, 0x4, 1, [⟨19, 0, .so, 0⟩]⟩,
  ⟨0x5818, 0x4, 1, [⟨19, 0, .so, 0⟩]⟩,
  ⟨0x581C, 0x4, 1, [⟨15, 0, .so, 0⟩, ⟨31, 16, .so, 0⟩]⟩,
  ⟨0x5820, 0x4, 1, [⟨4, 0, .so, 12⟩, ⟨15, 8, .so, 77⟩, ⟨31, 16, .so, 350⟩]⟩,
  ⟨0x5824, 0x4, 1, [⟨15, 0, .so, 400⟩, ⟨23, 16, .so, 10⟩, ⟨31, 24, .so, 2⟩]⟩,
  ⟨0x5828, 0x4, 1, [⟨7, 0, .so, 30⟩, ⟨15, 8, .so, 1⟩, ⟨31, 16, .so, 5000⟩]⟩,
  ⟨0x582C, 0x4, 1, [⟨15, 0, .so, 0⟩, ⟨31, 16, .so, 0⟩]⟩,
  ⟨0x5830, 0x4, 1, [⟨15, 0, .so, 0⟩, ⟨31, 16, .so, 15⟩]⟩,
  ⟨0x5840, 0x4, 4, [⟨5, 0, .so, 0⟩, ⟨6, 6, .so, 0⟩, ⟨15, 8, .so, 0⟩, ⟨31, 16, .so, 0⟩]⟩,
  ⟨0x5850, 0x4, 10, [⟨31, 0, .ro, 0⟩]⟩,
  ⟨0x5878, 0x4, 1, [⟨15, 0, .ro, 0⟩, ⟨31, 16, .ro, 0⟩]⟩,
  ⟨0x587C, 0x4, 1, [⟨15, 0, .ro, 0⟩, ⟨31, 16, .ro, 0⟩]⟩,
  ⟨0x5880, 0x4, 1, [⟨0, 0, .w1c, 0⟩, ⟨1, 1, .w1c, 0⟩]⟩ ]

def regsCph : List RegSpec := [
  ⟨0x6000, 0x4, 1, [⟨0, 0, .so, 1⟩, ⟨1, 1, .so, 1⟩, ⟨3, 2, .so, 1⟩, ⟨15, 8, .so, 100⟩]⟩,
  ⟨0x6004, 0x4, 1, [⟨5, 0, .ro, 0⟩, ⟨6, 6, .ro, 0⟩, ⟨7, 7, .ro, 0⟩, ⟨13, 8, .ro, 0⟩, ⟨23, 16, .ro, 0⟩, ⟨31, 24, .ro, 0⟩]⟩,
  ⟨0x6008, 0x4, 1, [⟨7, 0, .ro, 0⟩, ⟨15, 8, .ro, 0⟩, ⟨27, 16, .ro, 0⟩]⟩,
  ⟨0x600C, 0x4, 1, [⟨0, 0, .wo, 0⟩]⟩,
  ⟨0x6010, 0x4, 1, [⟨5, 0, .rw, 0⟩]⟩,
  ⟨0x6014, 0x4, 1, [⟨0, 0, .ro, 0⟩, ⟨15, 8, .ro, 0⟩, ⟨19, 16, .ro, 0⟩, ⟨25, 20, .ro, 0⟩]⟩,
  ⟨0x6018, 0x4, 1, [⟨31, 0, .ro, 0⟩]⟩,
  ⟨0x601C, 0x4, 1, [⟨31, 0, .ro, 0⟩]⟩,
  ⟨0x6020, 0x4, 1, [⟨15, 0, .ro, 0⟩, ⟨31, 16, .ro, 0⟩]⟩,
  ⟨0x6024, 0x4, 1, [⟨15, 0, .ro, 0⟩, ⟨31, 16, .ro, 0⟩]⟩,
  ⟨0x6028, 0x4, 1, [⟨31, 0, .ro, 0⟩]⟩,
  ⟨0x602C, 0x4, 1, [⟨0, 0, .w1c, 0⟩, ⟨1, 1, .w1c, 0⟩, ⟨2, 2, .w1c, 0⟩]⟩,
  ⟨0x6030, 0x4, 1, [⟨0, 0, .w1c, 0⟩, ⟨1, 1, .w1c, 0⟩, ⟨2, 2, .w1c, 0⟩]⟩,
  ⟨0x6040, 0x4, 6, [⟨7, 0, .ro, 0⟩, ⟨9, 8, .ro, 0⟩, ⟨10, 10, .ro, 0⟩, ⟨11, 11, .ro, 0⟩, ⟨12, 12, .ro, 0⟩, ⟨21, 16, .ro, 0⟩, ⟨22, 22, .ro, 0⟩]⟩,
  ⟨0x6060, 0x4, 6, [⟨0, 0, .w1c, 0⟩, ⟨1, 1, .w1c, 0⟩, ⟨2, 2, .w1c, 0⟩]⟩ ]

def regsRng : List RegSpec := [
  ⟨0x6800, 0x4, 1, [⟨1, 0, .rw, 0⟩]⟩,
  ⟨0x6804, 0x4, 1, [⟨0, 0, .ro, 0⟩, ⟨2, 1, .ro, 0⟩, ⟨4, 3, .ro, 0⟩, ⟨5, 5, .ro, 0⟩, ⟨6, 6, .ro, 0⟩, ⟨7, 7, .ro, 0⟩, ⟨9, 8, .ro, 0⟩, ⟨10, 10, .ro, 0⟩, ⟨11, 11, .ro, 0⟩, ⟨13, 12, .ro, 0⟩, ⟨23, 16, .ro, 0⟩]⟩,
  ⟨0x6808, 0x4, 1, [⟨31, 0, .ro, 0⟩]⟩,
  ⟨0x680C, 0x4, 1, [⟨31, 0, .ro, 0⟩]⟩,
  ⟨0x6810, 0x4, 1, [⟨0, 0, .wo, 0⟩, ⟨1, 1, .wo, 0⟩, ⟨2, 2, .wo, 0⟩]⟩,
  ⟨0x6814, 0x4, 1, [⟨15, 0, .ro, 0⟩, ⟨31, 16, .ro, 0⟩]⟩,
  ⟨0x6818, 0x4, 1, [⟨7, 0, .ro, 28⟩, ⟨25, 16, .ro, 684⟩]⟩,
  ⟨0x681C, 0x4, 1, [⟨31, 0, .ro, 0⟩]⟩,
  ⟨0x6820, 0x4, 1, [⟨0, 0, .w1c, 0⟩, ⟨1, 1, .w1c, 0⟩, ⟨2, 2, .w1c, 0⟩, ⟨3, 3, .w1c, 0⟩]⟩ ]

def regsNv : List RegSpec := [
  ⟨0x7000, 0x4, 1, [⟨0, 0, .so, 1⟩, ⟨15, 8, .so, 10⟩]⟩,
  ⟨0x7004, 0x4, 1, [⟨0, 0, .ro, 0⟩, ⟨1, 1, .ro, 0⟩, ⟨2, 2, .ro, 0⟩, ⟨3, 3, .ro, 0⟩, ⟨4, 4, .ro, 0⟩, ⟨5, 5, .ro, 0⟩, ⟨15, 8, .ro, 0⟩]⟩,
  ⟨0x7008, 0x4, 1, [⟨1, 0, .rw, 0⟩]⟩,
  ⟨0x700C, 0x4, 1, [⟨0, 0, .wo, 0⟩, ⟨1, 1, .wo, 0⟩, ⟨2, 2, .wo, 0⟩, ⟨3, 3, .wo, 0⟩, ⟨4, 4, .wo, 0⟩, ⟨5, 5, .wo, 0⟩, ⟨6, 6, .wo, 0⟩]⟩,
  ⟨0x7010, 0x4, 1, [⟨19, 0, .rw, 0⟩]⟩,
  ⟨0x7014, 0x4, 1, [⟨7, 0, .rw, 0⟩, ⟨10, 8, .rw, 0⟩]⟩,
  ⟨0x7018, 0x4, 1, [⟨0, 0, .ro, 0⟩, ⟨1, 1, .ro, 0⟩, ⟨2, 2, .ro, 0⟩, ⟨3, 3, .ro, 0⟩, ⟨15, 8, .ro, 0⟩, ⟨31, 16, .ro, 0⟩]⟩,
  ⟨0x701C, 0x4, 1, [⟨31, 0, .ro, 0⟩]⟩,
  ⟨0x7020, 0x4, 1, [⟨13, 0, .ro, 0⟩]⟩,
  ⟨0x7024, 0x4, 1, [⟨5, 0, .rw, 0⟩]⟩,
  ⟨0x7028, 0x4, 1, [⟨12, 0, .ro, 0⟩]⟩,
  ⟨0x702C, 0x4, 1, [⟨3, 0, .ro, 0⟩, ⟨15, 8, .ro, 0⟩]⟩,
  ⟨0x7030, 0x4, 1, [⟨31, 0, .ro, 0⟩]⟩,
  ⟨0x7034, 0x4, 1, [⟨12, 0, .ro, 0⟩, ⟨31, 16, .ro, 0⟩]⟩,
  ⟨0x7038, 0x4, 1, [⟨15, 0, .ro, 0⟩, ⟨31, 16, .ro, 0⟩]⟩,
  ⟨0x703C, 0x4, 1, [⟨0, 0, .w1c, 0⟩, ⟨1, 1, .w1c, 0⟩, ⟨2, 2, .w1c, 0⟩, ⟨3, 3, .w1c, 0⟩]⟩,
  ⟨0x7040, 0x4, 8, [⟨12, 0, .ro, 0⟩, ⟨23, 16, .ro, 0⟩, ⟨27, 24, .ro, 0⟩]⟩,
  ⟨0x7080, 0x10, 8, [⟨19, 0, .so, 0⟩]⟩,
  ⟨0x7084, 0x10, 8, [⟨19, 0, .so, 0⟩]⟩,
  ⟨0x7088, 0x10, 8, [⟨12, 0, .so, 0⟩, ⟨16, 16, .so, 0⟩, ⟨17, 17, .so, 0⟩, ⟨31, 20, .so, 0⟩]⟩,
  ⟨0x7100, 0x4, 32, [⟨31, 0, .rw, 0⟩]⟩,
  ⟨0x7180, 0x4, 32, [⟨31, 0, .ro, 0⟩]⟩ ]

def regsPt : List RegSpec := [
  ⟨0x7800, 0x4, 1, [⟨0, 0, .so, 1⟩, ⟨1, 1, .rw, 0⟩, ⟨2, 2, .so, 0⟩, ⟨3, 3, .so, 0⟩]⟩,
  ⟨0x7804, 0x4, 1, [⟨0, 0, .ro, 0⟩, ⟨3, 1, .ro, 0⟩, ⟨4, 4, .ro, 0⟩, ⟨5, 5, .ro, 0⟩, ⟨6, 6, .ro, 0⟩, ⟨7, 7, .ro, 0⟩, ⟨8, 8, .ro, 0⟩, ⟨9, 9, .ro, 0⟩, ⟨23, 16, .ro, 0⟩]⟩,
  ⟨0x7808, 0x4, 1, [⟨31, 0, .ro, 0⟩]⟩,
  ⟨0x780C, 0x4, 1, [⟨31, 0, .ro, 0⟩]⟩,
  ⟨0x7810, 0x4, 1, [⟨0, 0, .wo, 0⟩, ⟨1, 1, .wo, 0⟩, ⟨2, 2, .wo, 0⟩, ⟨14, 8, .wo, 0⟩]⟩,
  ⟨0x7814, 0x4, 1, [⟨0, 0, .ro, 0⟩, ⟨15, 8, .ro, 0⟩, ⟨31, 16, .ro, 0⟩]⟩,
  ⟨0x7820, 0x4, 4, [⟨31, 0, .rw, 0⟩]⟩,
  ⟨0x7830, 0x4, 4, [⟨31, 0, .ro, 0⟩]⟩,
  ⟨0x7840, 0x4, 1, [⟨31, 0, .w1c, 0⟩]⟩,
  ⟨0x7844, 0x4, 1, [⟨0, 0, .w1c, 0⟩, ⟨1, 1, .w1c, 0⟩]⟩,
  ⟨0x7848, 0x4, 1, [⟨15, 0, .ro, 0⟩, ⟨31, 16, .ro, 0⟩]⟩ ]

def regsSad : List RegSpec := [
  ⟨0x8000, 0x4, 1, [⟨0, 0, .so, 0⟩, ⟨1, 1, .rw, 0⟩, ⟨2, 2, .so, 0⟩, ⟨3, 3, .so, 0⟩, ⟨15, 8, .so, 50⟩, ⟨31, 16, .so, 30⟩]⟩,
  ⟨0x8004, 0x4, 1, [⟨2, 0, .ro, 0⟩, ⟨3, 3, .ro, 0⟩, ⟨4, 4, .ro, 0⟩, ⟨5, 5, .ro, 0⟩, ⟨6, 6, .ro, 0⟩, ⟨7, 7, .ro, 0⟩, ⟨10, 8, .ro, 0⟩, ⟨11, 11, .ro, 0⟩, ⟨13, 12, .ro, 0⟩, ⟨15, 14, .ro, 0⟩, ⟨16, 16, .ro, 0⟩]⟩,
  ⟨0x8008, 0x4, 1, [⟨1, 0, .rw, 0⟩]⟩,
  ⟨0x800C, 0x4, 1, [⟨0, 0, .wo, 0⟩, ⟨1, 1, .wo, 0⟩, ⟨2, 2, .wo, 0⟩, ⟨3, 3, .wo, 0⟩, ⟨4, 4, .wo, 0⟩]⟩,
  ⟨0x8010, 0x4, 1, [⟨15, 0, .ro, 0⟩, ⟨23, 16, .ro, 0⟩, ⟨27, 24, .ro, 0⟩]⟩,
  ⟨0x8014, 0x4, 1, [⟨15, 0, .ro, 0⟩, ⟨31, 16, .ro, 0⟩]⟩,
  ⟨0x8018, 0x4, 1, [⟨5, 0, .so, 10⟩]⟩,
  ⟨0x801C, 0x4, 1, [⟨0, 0, .so, 0⟩, ⟨12, 8, .so, 20⟩, ⟨20, 16, .so, 5⟩]⟩,
  ⟨0x8020, 0x4, 1, [⟨0, 0, .w1c, 0⟩, ⟨1, 1, .w1c, 0⟩, ⟨2, 2, .w1c, 0⟩, ⟨3, 3, .w1c, 0⟩, ⟨4, 4, .w1c, 0⟩, ⟨5, 5, .w1c, 0⟩]⟩,
  ⟨0x8040, 0x4, 16, [⟨31, 0, .ro, 0xffffffff⟩]⟩,
  ⟨0x8100, 0x40, 8, [⟨0, 0, .so, 0⟩, ⟨2, 1, .so, 0⟩, ⟨15, 8, .so, 0⟩, ⟨31, 16, .so, 0⟩]⟩,
  ⟨0x8104, 0x40, 8, [⟨15, 0, .so, 0⟩]⟩,
  ⟨0x8108, 0x40, 8, [⟨31, 0, .so, 0⟩]⟩,
  ⟨0x810C, 0x40, 8, [⟨15, 0, .so, 0⟩, ⟨23, 16, .so, 0⟩, ⟨31, 24, .so, 0⟩]⟩,
  ⟨0x8110, 0x40, 8, [⟨15, 0, .so, 0⟩, ⟨31, 16, .so, 0⟩]⟩,
  ⟨0x8114, 0x40, 8, [⟨15, 0, .so, 0⟩, ⟨31, 16, .so, 0⟩]⟩,
  ⟨0x8118, 0x40, 8, [⟨15, 0, .so, 0⟩, ⟨23, 16, .so, 0⟩, ⟨31, 24, .so, 0⟩]⟩,
  ⟨0x811C, 0x40, 8, [⟨31, 0, .so, 0⟩]⟩,
  ⟨0x8120, 0x40, 8, [⟨5, 0, .so, 0⟩, ⟨31, 16, .so, 0⟩]⟩,
  ⟨0x8124, 0x40, 8, [⟨10, 0, .so, 0⟩, ⟨26, 16, .so, 0⟩]⟩,
  ⟨0x8128, 0x40, 8, []⟩ ]

def regsLed : List RegSpec := [
  ⟨0x8800, 0x4, 1, [⟨0, 0, .so, 0⟩, ⟨31, 16, .so, 1000⟩]⟩,
  ⟨0x8804, 0x4, 1, [⟨0, 0, .ro, 0⟩, ⟨1, 1, .ro, 0⟩, ⟨2, 2, .ro, 0⟩, ⟨3, 3, .ro, 0⟩, ⟨4, 4, .ro, 0⟩, ⟨5, 5, .ro, 0⟩, ⟨6, 6, .ro, 0⟩, ⟨7, 7, .ro, 0⟩, ⟨15, 8, .ro, 0⟩]⟩,
  ⟨0x8808, 0x4, 1, [⟨31, 0, .ro, 0⟩]⟩,
  ⟨0x880C, 0x4, 1, [⟨31, 0, .ro, 0⟩]⟩,
  ⟨0x8810, 0x4, 1, [⟨31, 0, .ro, 0⟩]⟩,
  ⟨0x8814, 0x4, 1, [⟨31, 0, .so, 0xffffffff⟩]⟩,
  ⟨0x8818, 0x4, 1, [⟨31, 0, .so, 5000⟩]⟩,
  ⟨0x8820, 0x4, 1, [⟨31, 0, .ro, 0⟩]⟩,
  ⟨0x8824, 0x4, 1, [⟨31, 0, .ro, 0⟩]⟩,
  ⟨0x8828, 0x4, 1, [⟨31, 0, .ro, 0⟩]⟩,
  ⟨0x882C, 0x4, 1, [⟨31, 0, .ro, 0⟩]⟩,
  ⟨0x8830, 0x4, 1, [⟨31, 0, .ro, 0⟩]⟩,
  ⟨0x8834, 0x4, 1, [⟨31, 0, .ro, 0⟩]⟩,
  ⟨0x8838, 0x4, 1, [⟨31, 0, .ro, 0⟩]⟩,
  ⟨0x883C, 0x4, 1, [⟨31, 0, .ro, 0⟩]⟩,
  ⟨0x8840, 0x4, 1, [⟨31, 0, .ro, 0⟩]⟩,
  ⟨0x8844, 0x4, 1, [⟨31, 0, .ro, 0⟩]⟩,
  ⟨0x8848, 0x4, 1, [⟨31, 0, .ro, 0⟩]⟩,
  ⟨0x884C, 0x4, 1, [⟨0, 0, .wo, 0⟩]⟩,
  ⟨0x8850, 0x4, 1, [⟨0, 0, .w1c, 0⟩, ⟨1, 1, .w1c, 0⟩, ⟨2, 2, .w1c, 0⟩, ⟨3, 3, .w1c, 0⟩]⟩ ]

def regsPl : List RegSpec := [
  ⟨0x9000, 0x4, 1, [⟨1, 0, .so, 0⟩, ⟨2, 2, .so, 1⟩, ⟨14, 8, .so, 64⟩]⟩,
  ⟨0x9004, 0x4, 1, [⟨0, 0, .ro, 0⟩, ⟨1, 1, .ro, 0⟩, ⟨2, 2, .ro, 0⟩, ⟨3, 3, .ro, 0⟩, ⟨7, 4, .ro, 0⟩, ⟨13, 8, .ro, 0⟩, ⟨22, 16, .ro, 0⟩]⟩,
  ⟨0x9008, 0x4, 1, [⟨0, 0, .wo, 0⟩, ⟨1, 1, .wo, 0⟩, ⟨2, 2, .wo, 0⟩]⟩,
  ⟨0x900C, 0x4, 1, [⟨0, 0, .ro, 0⟩, ⟨1, 1, .ro, 0⟩, ⟨13, 8, .ro, 0⟩, ⟨15, 14, .ro, 0⟩]⟩,
  ⟨0x9010, 0x4, 1, [⟨0, 0, .ro, 0⟩, ⟨1, 1, .ro, 0⟩, ⟨13, 8, .ro, 0⟩, ⟨15, 14, .ro, 0⟩]⟩,
  ⟨0x9014, 0x4, 1, [⟨31, 0, .ro, 0⟩]⟩,
  ⟨0x9018, 0x4, 1, [⟨31, 0, .ro, 0⟩]⟩,
  ⟨0x901C, 0x4, 1, [⟨31, 0, .ro, 0⟩]⟩,
  ⟨0x9020, 0x4, 1, [⟨31, 0, .ro, 0⟩]⟩,
  ⟨0x9024, 0x4, 1, [⟨15, 0, .ro, 0⟩, ⟨31, 16, .ro, 0⟩]⟩,
  ⟨0x9028, 0x4, 1, [⟨15, 0, .ro, 0⟩, ⟨31, 16, .ro, 0⟩]⟩,
  ⟨0x902C, 0x4, 1, [⟨7, 0, .ro, 0⟩, ⟨31, 16, .ro, 0⟩]⟩,
  ⟨0x9030, 0x4, 1, [⟨0, 0, .w1c, 0⟩, ⟨1, 1, .w1c, 0⟩, ⟨2, 2, .w1c, 0⟩, ⟨3, 3, .w1c, 0⟩]⟩ ]

def regsVio : List RegSpec := [
  ⟨0x9800, 0x4, 1, [⟨0, 0, .ro, 0⟩, ⟨1, 1, .ro, 0⟩, ⟨2, 2, .ro, 0⟩, ⟨3, 3, .ro, 0⟩, ⟨4, 4, .ro, 0⟩]⟩,
  ⟨0x9804, 0x4, 1, [⟨0, 0, .wo, 0⟩]⟩,
  ⟨0x9808, 0x4, 1, [⟨7, 0, .so, 0⟩, ⟨8, 8, .so, 0⟩]⟩,
  ⟨0x980C, 0x4, 1, [⟨7, 0, .so, 20⟩, ⟨15, 8, .so, 20⟩, ⟨16, 16, .so, 0⟩, ⟨17, 17, .so, 0⟩]⟩,
  ⟨0x9810, 0x20, 2, [⟨0, 0, .so, 0⟩, ⟨1, 1, .so, 0⟩, ⟨3, 2, .so, 0⟩, ⟨5, 4, .so, 0⟩]⟩,
  ⟨0x9814, 0x20, 2, [⟨28, 0, .so, 0⟩, ⟨31, 31, .so, 0⟩]⟩,
  ⟨0x9818, 0x20, 2, [⟨28, 0, .so, 0⟩, ⟨31, 31, .so, 0⟩]⟩,
  ⟨0x981C, 0x20, 2, [⟨1, 0, .ro, 0⟩, ⟨15, 8, .ro, 0⟩, ⟨23, 16, .ro, 0⟩]⟩,
  ⟨0x9820, 0x20, 2, [⟨15, 0, .ro, 0⟩, ⟨23, 16, .ro, 0⟩, ⟨31, 24, .ro, 0⟩]⟩,
  ⟨0x9824, 0x20, 2, [⟨0, 0, .w1c, 0⟩, ⟨1, 1, .w1c, 0⟩, ⟨2, 2, .w1c, 0⟩, ⟨3, 3, .w1c, 0⟩, ⟨4, 4, .w1c, 0⟩, ⟨5, 5, .w1c, 0⟩]⟩,
  ⟨0x9850, 0x4, 1, [⟨31, 0, .ro, 0⟩]⟩,
  ⟨0x9854, 0x4, 1, [⟨31, 0, .ro, 0⟩]⟩,
  ⟨0x9858, 0x4, 1, [⟨31, 0, .ro, 0⟩]⟩,
  ⟨0x985C, 0x4, 1, [⟨31, 0, .ro, 0⟩]⟩,
  ⟨0x9860, 0x4, 1, [⟨0, 0, .w1c, 0⟩, ⟨1, 1, .w1c, 0⟩, ⟨2, 2, .w1c, 0⟩, ⟨3, 3, .w1c, 0⟩]⟩,
  ⟨0x9864, 0x4, 1, [⟨0, 0, .w1c, 0⟩, ⟨1, 1, .w1c, 0⟩, ⟨2, 2, .w1c, 0⟩, ⟨3, 3, .w1c, 0⟩]⟩,
  ⟨0x9870, 0x4, 4, [⟨0, 0, .w1c, 0⟩, ⟨1, 1, .w1c, 0⟩]⟩,
  ⟨0x9880, 0x4, 1, [⟨7, 0, .rw, 0⟩, ⟨15, 8, .rw, 0⟩, ⟨23, 16, .ro, 0⟩]⟩,
  ⟨0x9884, 0x4, 1, [⟨15, 0, .rw, 0⟩, ⟨31, 16, .rw, 0⟩]⟩ ]

def regsSec : List RegSpec := [
  ⟨0xA000, 0x4, 1, [⟨2, 0, .ro, 0⟩, ⟨3, 3, .ro, 0⟩, ⟨4, 4, .ro, 0⟩, ⟨5, 5, .ro, 0⟩, ⟨6, 6, .ro, 0⟩, ⟨9, 8, .ro, 0⟩, ⟨18, 16, .ro, 0⟩, ⟨30, 24, .ro, 0⟩]⟩,
  ⟨0xA004, 0x4, 1, [⟨31, 0, .ro, 0⟩]⟩,
  ⟨0xA008, 0x4, 1, [⟨31, 0, .ro, 0⟩]⟩,
  ⟨0xA00C, 0x4, 1, [⟨31, 0, .ro, 0⟩]⟩,
  ⟨0xA010, 0x4, 4, [⟨31, 0, .ro, 0⟩]⟩,
  ⟨0xA020, 0x4, 1, [⟨3, 0, .rw, 0⟩, ⟨7, 4, .rw, 0⟩]⟩,
  ⟨0xA024, 0x4, 1, [⟨3, 0, .ro, 0⟩, ⟨7, 4, .ro, 0⟩, ⟨8, 8, .wo, 0⟩]⟩,
  ⟨0xA028, 0x4, 1, [⟨1, 0, .ro, 0⟩, ⟨15, 8, .ro, 0⟩]⟩,
  ⟨0xA02C, 0x4, 1, [⟨31, 0, .ro, 0⟩]⟩ ]

def regsIvc : List RegSpec := [
  ⟨0xA800, 0x4, 1, [⟨0, 0, .rw, 1⟩]⟩,
  ⟨0xA804, 0x4, 1, [⟨0, 0, .ro, 0⟩, ⟨1, 1, .ro, 1⟩, ⟨2, 2, .ro, 0⟩, ⟨3, 3, .ro, 0⟩, ⟨4, 4, .ro, 0⟩, ⟨5, 5, .ro, 0⟩, ⟨10, 8, .ro, 0⟩]⟩,
  ⟨0xA808, 0x4, 1, [⟨4, 0, .ro, 0⟩]⟩,
  ⟨0xA80C, 0x4, 1, [⟨31, 0, .ro, 0⟩]⟩,
  ⟨0xA810, 0x4, 1, [⟨31, 0, .rw, 0⟩]⟩,
  ⟨0xA814, 0x4, 1, [⟨15, 0, .rw, 0⟩, ⟨16, 16, .w1s, 0⟩]⟩,
  ⟨0xA818, 0x4, 1, [⟨7, 0, .wo, 0⟩]⟩,
  ⟨0xA81C, 0x4, 1, [⟨31, 0, .rw, 0⟩]⟩,
  ⟨0xA820, 0x4, 1, [⟨15, 0, .wo, 0⟩, ⟨19, 16, .wo, 0⟩, ⟨20, 20, .wo, 0⟩]⟩,
  ⟨0xA824, 0x4, 1, [⟨0, 0, .w1c, 0⟩, ⟨1, 1, .w1c, 0⟩, ⟨2, 2, .w1c, 0⟩]⟩,
  ⟨0xA900, 0x10, 16, [⟨31, 0, .rw, 0⟩]⟩,
  ⟨0xA904, 0x10, 16, [⟨3, 0, .rw, 0⟩, ⟨4, 4, .rw, 0⟩, ⟨7, 5, .rw, 0⟩]⟩,
  ⟨0xA908, 0x10, 16, [⟨15, 0, .rw, 0⟩]⟩,
  ⟨0xA90C, 0x10, 16, [⟨15, 0, .ro, 0⟩]⟩ ]


end Sys2Proof.Machine
end

