-- ==== Sys2Proof/Config.lean ====
section
/-! DEFINITION. What an implementation fixes and what the manual leaves free. Every constant here is opaque: nothing can
be proved about its value, so a claim holds whatever it is. -/

namespace Sys2Proof.Config

/-- Free values of the run: draw number `n` (the counter `State.free`) is `draw n`. Log entry 4. -/
opaque draw : Nat → Nat

/-- The levels at the general-purpose pins that are inputs, by time: outside quantities (log entry 77). -/
opaque gpPins : Nat → Nat

/-- The level at REL_FB before debounce, by time (log entry 77). -/
opaque relFbRaw : Nat → Nat

/-- The content of the boot ROM, which the spec does not give (log entry 78). -/
opaque bootRom : Nat → Nat

/-- Byte i of Oltum's public key, x then y, which the boot ROM holds (R719, log entry 78). -/
opaque oltumKey : Nat → Nat

end Sys2Proof.Config
end

