-- ==== Sys2Proof/Machine/State.lean ====
section
/-! DEFINITION. The state of the block as plain data: the waiting commands, the clock, the set-up register words and,
chapter by chapter, the state behind them. -/

namespace Sys2Proof.Machine

-- Frame switch (12_frame_switch.md) ------------------------------------------------------------

/-- The key of a stream (R427): origin device, entry port and sub-port, class, output port. -/
structure StreamKey where
  origin : Nat
  sport  : Nat
  ssub   : Nat
  cls    : Nat
  oport  : Nat
  deriving DecidableEq, Repr

/-- One frame, or one copy of a multicast frame, inside the switch (R416–R420, R427–R430). `left` cells have still to
cross, `cells` in all; `admitted` says the cells are reserved (R416) and `egress` that egress has begun (R419). `group`
names the multicast record the copy belongs to. -/
structure SwCopy where
  id       : Nat
  frame    : Frame
  origin   : Nat
  inPort   : Nat
  outPort  : Nat
  outSub   : Nat
  admitted : Bool
  left     : Nat
  egress   : Bool
  since    : Nat
  group    : Option Nat
  deriving DecidableEq, Repr

/-- A multicast frame whose copies are not all delivered or failed (R438): port masks, and the cause of each failure. -/
structure McRec where
  id        : Nat
  frame     : Frame
  origin    : Nat
  pend      : List Nat
  delivered : List Nat
  failed    : List (Nat × Nat)
  deriving DecidableEq, Repr

/-- A multicast group entry (Table 12.5). -/
structure Group where
  valid    : Bool
  epoch    : Nat
  revokeAt : Nat
  ports    : Nat
  subs     : List Nat
  deriving DecidableEq, Repr

/-- The frame switch: frames inside in arrival order, stream counters, multicast accounting, groups (only entries that
differ from the all-zero one), and the rotating pointers of R419 and R421. -/
structure Sw where
  frames : List SwCopy
  nextId : Nat
  mcs    : List McRec
  seqs   : List (StreamKey × Nat)
  groups : List (Nat × Group)
  gptr   : List Nat
  aptr   : List Nat
  mcTurn : List Bool
  egPtr  : List Nat
  deriving DecidableEq, Repr

-- Events and arbiter (20_events_snapshot_arbiter.md) --------------------------------------------

/-- A pending event record of one source (R520). -/
structure HeldEv where
  src    : Nat
  dev    : Nat
  merged : Bool
  occ    : Nat
  evf    : Nat
  rtc    : Nat
  tstamp : Nat
  deriving DecidableEq, Repr

/-- A coil grant (R698): the channel, its class and units, and whether it is under revocation (R699). -/
structure Grant where
  ch      : Nat
  cls     : Nat
  units   : Nat
  revoked : Bool
  deriving DecidableEq, Repr

/-- Event controller and arbiter. `snapOut` counts the SNAP_OUT pulses driven (R695). `fwd` holds event records a cascade member has yet to forward (R555). `occ` holds the nonzero occurrence counters (R681): key 16·s + b for flag b of source
s, and 4096 + s for the source. -/
structure Ev where
  occ       : List (Nat × Nat)
  held      : List HeldEv
  tmrStart  : List Nat
  alarmSet  : Bool
  grants    : List Grant
  waitC0    : List (Nat × Nat)
  resvC0    : Nat
  sysHeld   : Nat
  fwd       : List HeldEv
  snapOut   : Nat
  deriving DecidableEq, Repr

-- Host interface (14_host_interface.md) ----------------------------------------------------------

/-- An operation slot (R504, R505): its generation and, while busy, the descriptor's return data. -/
structure OpSlot where
  busy    : Bool
  gen     : Nat
  ring    : Nat
  opcode  : Nat
  irq     : Bool
  htoken  : Nat
  outAddr : Nat
  outLen  : Nat
  outPos  : Nat
  deriving DecidableEq, Repr

/-- The host interface: the operation slots, the unreleased records of each completion ring and of the event ring (each
with whether it would raise an interrupt, R493), the completion frames waiting for ring space (R517), the memory the
rings and buffers lie in as the device has written it (in QSPI mode the ring window of R491), the interrupt messages
sent, and the RDSR error bit; fetched descriptors that wait for their fence with their slot (R503), and what the last QSPI
transaction shifted out; `rejNo` counts refused field writes (a counter of the model's, by which a command learns that its own
write was refused). A waiting completion of type 0 is a DIRECT record (R513). `pcieUp` and `perstN` are the link and
the ball; `qspi` is HOSTSEL as sampled (R487). -/
structure Hst where
  slots   : List OpSlot
  cqRecs  : List (List Bool)
  eqRecs  : List Bool
  cplWait : List (Nat × Frame)
  mem     : List Host.Cell
  msi     : List Nat
  rdsrErr : Bool
  rrNext  : Nat
  pcieUp  : Bool
  perstN  : Bool
  qspi    : Bool
  fenced  : List (Nat × List Byte × Option (List Byte))
  qsOut   : List W32
  rejNo   : Nat
  deriving DecidableEq, Repr

-- NV store (11_nv_store.md) ----------------------------------------------------------------------

/-- A record descriptor (R390, R396, Table 11.7): REC_ID, payload length, the two copies and the tie rule. -/
structure RecDesc where
  id     : Nat
  len    : Nat
  addrA  : Nat
  addrB  : Nat
  higher : Bool
  tieOfs : Nat
  tieW   : Nat
  deriving DecidableEq, Repr

/-- The record tag in a page header (R390). -/
structure RecTag where
  id  : Nat
  len : Nat
  seq : Nat
  crc : Nat
  deriving DecidableEq, Repr

/-- One page write to come: the page, the offset of the new bytes in it, the bytes, and the record tag when the page
starts a record copy (R376, R377). -/
structure NvPw where
  page : Nat
  ofs  : Nat
  data : List Byte
  tag  : Option RecTag
  deriving DecidableEq, Repr

/-- What a queued write is (R376, R392, R394, R400): bytes at an address, a record with the next SEQ, both copies with a
given SEQ (a keep-set save, R88), one copy with a given SEQ (a repair), or a scrub refresh. -/
inductive NvKind where
  | raw (addr : Nat) (data : List Byte)
  | record (d : RecDesc) (payload : List Byte)
  | both (d : RecDesc) (seq : Nat) (payload : List Byte)
  | copy (d : RecDesc) (copyB : Bool) (seq : Nat) (payload : List Byte)
  | refresh (page : Nat)
  deriving DecidableEq, Repr

/-- What follows when a write request completes with a status (each block's own chapter says). -/
inductive NvCont where
  | none
  /-- NV_CMD WRITE or REC_WRITE: the result registers (R405). -/
  | regCmd (isRec : Bool) (desc : Nat)
  /-- A frame write's completion: OP, LEN and DESC (R407). -/
  | frame (req : Req) (op len desc : Nat)
  /-- Record 0x0001 of NV_CMD.SAVE_CFG saved; record 0x0045 follows (R793). -/
  | saveCfg
  /-- The end of a scrub refresh (R400). -/
  | scrub
  /-- A checkpoint (R88, R84, R795). -/
  | checkpoint
  /-- Record 0x0002 with the slot of a POLICY token (R85). -/
  | policy
  /-- A closing statement (R94): the ledger closes once it is written. -/
  | closing
  /-- The other copy of the restored pair (R89): the ledger then applies pulses. -/
  | keepCopy
  /-- The keeper's save at hold-up (R386). -/
  | keeper
  /-- The coupling map (R115, R118, R120): whether MAP_FULL ends with it, and whether MAP_VALID is set by it. -/
  | coilMap (full valid : Bool)
  /-- A page write of the passport transaction with this number (R206). -/
  | pt (id : Nat)
  /-- The locked regulatory block (R253): the fuse is blown once it is saved. -/
  | regLock
  /-- DOMAIN_INSTALL's record 0x0009 (R315): the request, whether KEY_INSTALL asked for it (R714), the core of a frame
  request, the epoch and the key. -/
  | domain (req : Req) (sec : Bool) (core epoch : Nat) (key : List Byte)
  /-- A directory request's write-through (R472): the return address, none for DIR_CMD, and the completion payload. -/
  | dir (req : Option Req) (payload : List Byte)
  /-- The security command under way (R714, R717, R720): 0 its authorisation is saved, 1 its last write ends with the given
  status decided before, 2 an install page, 3 the seal page. -/
  | sec (step status : Nat)
  deriving DecidableEq, Repr

/-- One queued write request (R382, R385): `pages` is what is left once it has started, `own` says it is on the device's
own account (R397), `src` is the source port of R385. -/
structure NvJob where
  kind    : NvKind
  pages   : List NvPw
  started : Bool
  custody : Bool
  own     : Bool
  src     : Nat
  cont    : NvCont
  deriving DecidableEq, Repr

/-- The page write in progress (R377): whose queue it comes from, the page, its 128 new bytes and the tag; `orphan` when
its request has been abandoned (R385); and the tag of the page before its write, which Table 11.3 may leave. -/
structure NvCur where
  custody : Bool
  page    : Nat
  data    : List Byte
  tag     : Option RecTag
  orphan  : Bool
  was     : Option RecTag
  deriving DecidableEq, Repr

/-- A register command in progress (R405, R406): 0 READ, 1 WRITE, 2 REC_READ, 3 REC_WRITE, its source port, and
NV_ADDR, LEN, DESC and the write buffer as they stood when NV_CMD was written. -/
structure NvCmd where
  op   : Nat
  src  : Nat
  addr : Nat
  len  : Nat
  desc : Nat
  buf  : List Byte
  deriving DecidableEq, Repr

/-- A read that waits for the page write in progress (R384): the register command, or a frame request. -/
inductive NvWaitRead where
  | reg
  | frame (req : Req) (op : Nat) (data : List Byte)
  deriving DecidableEq, Repr

/-- The NV store: the frame requests and the register command that wait for CONFIG_START (`held`, R408), whether the
keeper's save runs (R386), the array (bytes that differ from 0), the page headers, the two request queues, the page write in
progress, the register command in progress, the reads waiting for a page, the torn list (R381), the abandon records kept
on the always-on domain (R792), the next LSEQ (R404) and the records already repaired since the start (R394). -/
structure Nv where
  cells      : List Host.Cell
  tags       : List (Nat × RecTag)
  incomplete : List Nat
  cust       : List NvJob
  ord        : List NvJob
  cur        : Option NvCur
  cmd        : Option NvCmd
  waitRead   : List NvWaitRead
  held       : List NvWaitRead
  keeper     : Bool
  torn       : List Nat
  aonAbandon : List (Nat × Nat × Nat)
  aonLost    : Nat
  lseq       : Nat
  repaired   : List Nat
  deriving DecidableEq, Repr

-- Stopping blocks (01_custody_model.md) ----------------------------------------------------------

/-- A CONFIG_STOP that waits for its block (R523): the block, who completes it (a MGMT frame, or the host engine's slot
for the switch, which is stopped directly), the TIMEOUT in ms, when it was given, and the OFFSET
of the MGMT frame. -/
structure StopWait where
  blk     : Nat
  req     : Option Req
  slot    : Option Nat
  timeout : Nat
  since   : Nat
  ofs     : Nat
  deriving DecidableEq, Repr

/-- Stopping and stopped blocks by management sub-port (R17, R23), and the CONFIG_STOPs waiting. -/
structure Stops where
  stopping : List Nat
  stopped  : List Nat
  waits    : List StopWait
  deriving DecidableEq, Repr

-- Release gate (02_release_gate.md) ---------------------------------------------------------------

/-- The last result of an AGED term (R43, R46): its value, when it came, the key it was measured with, and whether it
counts as having reached its maximum age (R55, R473). -/
structure SadRes where
  val     : Bool
  at_     : Nat
  key     : List Byte
  expired : Bool
  deriving DecidableEq, Repr

/-- Who asked for a release or an end: the frame to complete, its type and its OP or KIND; `none` for requests that take
no completion (SAD_CMD, a key presented on a coil). -/
structure SadWho where
  req : Req
  typ : Nat
  op  : Nat
  deriving DecidableEq, Repr

/-- An input that reached P14 and waits for the next evaluation cycle (R33). -/
inductive SadIn where
  | release (who : Option SadWho)
  | endReq (who : Option SadWho)
  | vehicle (parked : Bool) (ctx time : Nat)
  | result (r : TermRes)
  deriving DecidableEq, Repr

/-- A frame for Saddle that waits for CONFIG_START (R24): a VEHICLE frame of KIND 1, 2 or 3, or a SADDLE_REQ with its OP. -/
inductive SadFrame where
  | status (req : Req) (parked : Bool) (ctx : Nat)
  | start (req : Req)
  | stop (req : Req)
  | ask (op : Nat) (req : Req) (payload : List Byte)
  deriving DecidableEq, Repr

/-- Saddle behind SAD_STAT, SAD_CAUSE and the slots: results and pending requests of the AGED terms, the terms that have
returned false once in this attempt (R44) and those lost in RELEASED (R55), the release requests being judged (R39) and
when ARMING began, the slot in force (R50), the last vehicle status, the REL_FB window (R64), causes that bar the return
from HOLDING (R61), when the pulse trains began, the inputs waiting, and the frames held while the gate is stopped (R24). -/
structure Sad where
  res      : List (Nat × SadRes)
  pend     : List (Nat × Nat)
  tries    : Nat
  twice    : Nat
  lost     : Nat
  timedOut : Nat
  who      : List (Option SadWho)
  armedAt  : Nat
  slot     : Nat
  words    : List W32
  vehSeen  : Bool
  vehPark  : Bool
  vehCtx   : Nat
  vehAt    : Nat
  vehStale : Bool
  parkAt   : Option Nat
  fbWait   : Bool
  fbBar    : Bool
  rngBar   : Bool
  t8Was    : Bool
  pulseAt  : Nat
  inbox    : List SadIn
  held     : List SadFrame
  deriving DecidableEq, Repr

-- Lease ledger (03_lease_ledger.md) -----------------------------------------------------------------

/-- A token that passed step 6 of Table 3.3 and waits for its checkpoint with its status (R84). -/
structure TokWait where
  req    : Req
  typ    : Nat
  status : Nat
  deriving DecidableEq, Repr

/-- The ledger behind its registers and the keep set: the meter counts already applied (R67), life_wh and the RTC at the
last save, tokens whose checkpoint is being written and those waiting for the next one, tokens and report requests
waiting for a mask draw (R81), whether a further checkpoint is due, whether the
passport pages are to follow the next checkpoint and the running one, when they were last rewritten and what page 3 held at the save now written (R204),
whether keep RAM was written after the save took its
image (R653), whether record 0x0003 is to be written at CONFIG_START (R796), whether the flags of R74 have been
evaluated since the start, whether the other copy of the restored pair is still to be written (R89), while the ledger is stopped AVAIL and
EXHAUSTED as it last reported them to the gate (R28), LED_CTRL as record 0x0003 holds it (R796), the slot image of a POLICY token not yet in
record 0x0002 with its slot and the record's SEQ before it (R84), whether a closing statement is being written (R94), and the token and
report frames that wait (R24, R84). -/
structure Led where
  takenD    : Nat
  takenC    : Nat
  lifeSaved : Nat
  savedAt   : Nat
  tokNow    : List TokWait
  tokNext   : List TokWait
  stalled   : List (Req × Bool × List Byte)
  again     : Bool
  pageWant  : Bool
  pageNow   : Bool
  pageAt    : Nat
  page3     : List Byte
  touched   : Bool
  recDirty  : Bool
  evaluated : Bool
  copyB     : Bool
  gate      : Option (W32 × Bool)
  recCtrl   : W32
  policy    : Option (Nat × Nat × List Byte)
  closing   : Bool
  held      : List (Req × Bool × List Byte)
  deriving DecidableEq, Repr

-- Coil subsystem (04_coil_channels.md) --------------------------------------------------------------

/-- A coil task (R121–R126): its channel, OP, DIRGRP, field step (16: the channel's own, R102), class, arrival, skip count, limit in ms, the jobs it
completes, and what it serves: 0 a job, 1 MAP_FULL, 2 a map refresh, 3 a retry. -/
structure CoilTask where
  id      : Nat
  ch      : Nat
  op      : Nat
  dirgrp  : Nat
  step    : Nat
  cls     : Nat
  arrival : Nat
  skips   : Nat
  limit   : Nat
  jobs    : List Nat
  kind    : Nat
  deriving DecidableEq, Repr

/-- A running task: its synthesiser, whether its field is stable, and its start (R103, R104). -/
structure CoilRun where
  t      : CoilTask
  syn    : Nat
  stable : Bool
  since  : Nat
  deriving DecidableEq, Repr

/-- A job (R129–R136): its return address, or DEST, DSUB and NOTIFY of a program entry; the channels still to finish, the
statuses by channel, and the tags identified, authenticated and foreign so far. -/
structure CoilJob where
  id     : Nat
  req    : Option Req
  dest   : Nat
  dsub   : Nat
  notify : Bool
  op     : Nat
  dirgrp : Nat
  left   : List Nat
  stat   : List (Nat × Nat)
  found  : List (List Byte)
  authed : List (List Byte)
  alien  : List (List Byte)
  deriving DecidableEq, Repr

/-- A MAP_FULL under way (R115): channels still to sweep, rows still to measure, and whether its save is being written. -/
structure CoilMapFull where
  sweeps : List Nat
  rows   : List Nat
  saving : Bool
  deriving DecidableEq, Repr

/-- The coil subsystem: ready and running tasks, jobs, the coupling map (key 48·i + j for i below j; unlisted entries read
255, R112), the program bytes (R129), its loop counters (R133), the job or WAIT in progress and the halts and starts asked
for, FACT where it differs in origin from FNOM (R108), when each channel's field went off (R148), the tags each channel's
last census found (R183), MAP_FULL, the next refresh row and whether the map has changed across KTH since its save (R118),
job frames held while stopped with the OP of their row (R143). -/
structure Coil where
  ready    : List CoilTask
  running  : List CoilRun
  jobs     : List CoilJob
  nextId   : Nat
  batch    : Nat
  map      : List (Nat × Nat)
  prog     : List Host.Cell
  loops    : List (Nat × Nat)
  progJob  : Option Nat
  progWait : Bool
  progHalt : Bool
  progAgain : Bool
  autoDone : Bool
  fact     : List (Nat × Nat)
  offAt    : List (Nat × Nat)
  prev     : List (Nat × List (List Byte))
  mapFull  : Option CoilMapFull
  refresh  : Nat
  mapDirty : Bool
  held     : List (Nat × Req × Nat × Nat × List Byte)
  deriving DecidableEq, Repr

-- Cloade reader engine (05_cloade_protocol.md) --------------------------------------------------------

/-- A tag found in a transaction: its handle, UID, the RB and TB of its slot reply, whether it is to be addressed, the
first outcome that is not OK or OK, whether its handshake has ended, the internal cipher handle that holds its session key (R172) and its command counter while SECURED
(R168–R175). -/
structure CldTag where
  handle  : Nat
  uid     : List Byte
  ra      : List Byte
  rb      : List Byte
  tb      : List Byte
  out     : Option Nat
  done    : Bool
  secured : Bool
  kh      : Option Nat
  cnt     : Nat
  deriving DecidableEq, Repr

/-- The handle-addressed command under way: the frame without its CRC, repeats left, whether a bad response has arrived,
whether it has been sent in full, and the access it serves (R185); `none` is a handshake, `some 0` the engine's own
FIELD_REPORT (R289). -/
structure CldCmd where
  frame  : List Byte
  handle : Nat
  left   : Nat
  bad    : Bool
  sent   : Bool
  acc    : Option Nat
  deriving DecidableEq, Repr

/-- A transaction (R183): its number, channel, task's OP, DIRGRP and step; the phase of CLD_TXn; whether WAKE has been
sent; the census round, its RA and slot, whether a slot of it collided, whether the census ended unresolved; whether an
uplink header has been seen; the tags, the handles dropped, the UIDs seen and those that completed the handshake; what is being sent (0 nothing, 1 WAKE, 2
CENSUS, 3 MARK, 4 MARK_ACK, 5 a command, 6 DROP); the command; what waits (1 the RA of a census, 2 the draws of a
handshake's start, 3 those of the response in `resp`, 4 those of an access's frame, 5 and 6 key handles for 2 and 3, 7 the lookup of the slot reply in `resp`); the keys whose
FIELD_REPORT is to be fetched; the RA of the LONG handshake; the status once the exchange is over; the frame last sent as
it stands on the air, with its CRC (R152; WAKE is its code). -/
structure CldTxn where
  n       : Nat
  ch      : Nat
  op      : Nat
  dirgrp  : Nat
  step    : Nat
  phase   : Nat
  woke    : Bool
  round   : Nat
  ra      : List Byte
  slot    : Nat
  coll    : Bool
  unres   : Bool
  hdr     : Bool
  tags    : List CldTag
  dropped : List (Nat × List Byte)
  seen    : List (List Byte)
  authed  : List (List Byte)
  sending : Nat
  cmd     : Option CldCmd
  stall   : Nat
  reports : List Nat
  ra8     : List Byte
  lastOp  : Nat
  lastHnd : Nat
  result  : Option Nat
  air     : List Byte
  resp    : List Byte
  deriving DecidableEq, Repr

/-- A queued tag access (R187): its id (from 1), return address, bytes and channel, and the pinned entry (R469). -/
structure CldAcc where
  id   : Nat
  req  : Req
  data : List Byte
  ch   : Nat
  pin  : Option Nat
  deriving DecidableEq, Repr

/-- The Cloade engine: transactions, queued accesses, frames held while stopped (R190), the next access id. -/
structure Cld where
  txns   : List CldTxn
  accs   : List CldAcc
  held   : List (Req × List Byte)
  nextId : Nat
  deriving DecidableEq, Repr

-- Passport tag (06_passport_tag.md) -------------------------------------------------------------------

/-- A transaction of the passport memory (R206, R216): who asked (0 the ledger, 1 PT_CMD, 2 the field), 0 read, 1 write,
2 SAVE_CFG, the page, the source port, the pages it writes, those not yet written, whether its step 3 is under way, and
the field frame it answers. -/
structure PtTxn where
  id    : Nat
  who   : Nat
  op    : Nat
  page  : Nat
  src   : Nat
  pages : List (Nat × List Byte)
  left  : List (Nat × List Byte)
  hdr   : Bool
  frame : List Byte
  deriving DecidableEq, Repr

/-- The passport tag. The key cells and the epoch of a key change not yet written to them (R198). The air side (R160–R176,
R193): the field, Vpk above VHV, the state of Table 5.4, the handle, the census rounds heard since power-up, the slot
drawn and the slot open, whether it has replied in it, RA and RB of the handshake, SK, CNT, REJECTs since power-up, the
frame last accepted and its response (R161), what it last sent, as it stands on the air with its CRC and whether at the fast
rate (R150, R152), and a READ that waits for a step 3 (R217). The memory
side (R216–R224): the running transaction, those waiting, a PT_CMD held by CONFIG_STOP, whether a wired command is
pending, and whether the commit pairs are resolved since the last loss of power (R208). -/
structure Pt where
  kp       : Option (List Byte)
  kpDue    : Option Nat
  field    : Bool
  hv       : Bool
  st       : Nat
  handle   : Nat
  round    : Nat
  slot     : Option Nat
  cur      : Nat
  replied  : Bool
  chal     : Option (List Byte × List Byte)
  sk       : List Byte
  cnt      : Nat
  rejects  : Nat
  lastF    : List Byte
  lastR    : List Byte
  air      : List Byte
  fast     : Bool
  waitRead : Option (List Byte)
  run      : Option PtTxn
  queue    : List PtTxn
  held     : Option PtTxn
  cmd      : Bool
  nextId   : Nat
  resolved : Bool
  deriving DecidableEq, Repr

-- UHF radio (07_uhf_radio.md) --------------------------------------------------------------------------

/-- A request in the radio's queue (R231–R233, R263): its arrival number, class, kind (1 TX, 2 RX, 3 CW, 7 a proximity
sweep), bytes and return addresses; since when it is held for duty, whether it was held and for how many ms, whether its
step has been clipped, and whether its TIME has passed while it was held and the radio stopped (R267). -/
structure RfItem where
  id       : Nat
  cls      : Nat
  kind     : Nat
  data     : List Byte
  reqs     : List Req
  held     : Option Nat
  deferred : Bool
  waited   : Nat
  clipped  : Bool
  dead     : Bool
  deriving DecidableEq, Repr

/-- A transmission of a sweep, START or a hop's tone: the entry that admits it (R257), its step after clipping (R258), the PA's
drive code (R246) and whether EXTPA_EN is asserted (R230). -/
structure RfTx where
  entry : Nat
  step  : Nat
  drive : Nat
  extpa : Bool
  deriving DecidableEq, Repr

/-- The request under way: the admitting entry, the step used, the PA's drive code (R246), whether CAL was skipped, the status it
will have, TSTAMP, RSSI and frequency error of a detected sync word, and whether the window's TIME has passed (R232, R235,
R242). -/
structure RfRun where
  item    : RfItem
  entry   : Nat
  step    : Nat
  drive   : Nat
  skipped : Bool
  status  : Nat
  ts      : Nat
  sync    : Option (Nat × Nat)
  expired : Bool
  deriving DecidableEq, Repr

/-- The radio behind its registers: queued and held requests, the one under way, the duty bins per entry, newest first
(R260), the regulatory block's image and the block in force (R250, R252), the offset cache, most recent first, with the
die temperature of each set (R243), the frequency of the request just finished (R240), ANTSEL, whether EXTPA_EN is asserted
(R230), and the packet last put on the air (R234). -/
structure Rf where
  queue    : List RfItem
  held     : List RfItem
  run      : Option RfRun
  nextId   : Nat
  bins     : List (List Nat)
  image    : List Host.Cell
  block    : List Host.Cell
  cache    : List (Nat × Int)
  lastFreq : Option Nat
  ant      : Nat
  extpa    : Bool
  air      : List Byte
  deriving DecidableEq, Repr

-- Proximity unit (08_proximity.md) ---------------------------------------------------------------------

/-- The newest FIELD_REPORT of a key on a channel (R289): field step, completion time and the three axes. -/
structure PrxReport where
  uid  : List Byte
  ch   : Nat
  step : Nat
  at_  : Nat
  axes : List Byte
  deriving DecidableEq, Repr

/-- One hop's results (R281–R284): its frequency and band, whether it locked and whether lock was lost in it, its transmission, and
of a reply tone the phase in µrad, the SNR in dB and the onset interval in ns. -/
structure PrxHop where
  freq   : Nat
  high   : Bool
  locked : Bool
  lost   : Bool
  tx     : Option RfTx
  reply  : Option (Nat × Nat × Nat)
  deriving DecidableEq, Repr

/-- The running sweep: its request, SWEEP_ID, RK, the hops left in list order, the results so far, TSTAMP, the payload and the
transmission of START (R276, R280), and the die temperature at take-up (R244). -/
structure PrxSweep where
  item  : RfItem
  id    : Nat
  rk    : List Byte
  hops  : List (Nat × Bool)
  done  : List PrxHop
  ts    : Nat
  start : List Byte
  tx    : RfTx
  temp  : Int
  deriving DecidableEq, Repr

/-- The proximity unit: the field reports (R289), the running sweep, a take-up that waits for its draws with its TSTAMP and the die temperature,
and requests held by CONFIG_STOP (R298). -/
structure Prx where
  reports : List PrxReport
  cur     : Option PrxSweep
  stalled : Option (RfItem × Nat × Int)
  held    : List (Req × List Byte)
  deriving DecidableEq, Repr

-- Cipher engine (09_cipher_engine.md) ---------------------------------------------------------------

/-- The owner of a handle, counter or stream (R310): external (device, port), internal (port, sub-port). -/
structure CphOwner where
  ext : Bool
  a   : Nat
  b   : Nat
  deriving DecidableEq, Repr

/-- A key in a handle (R309–R313): its class code of Table 9.3, the key, and the owner. -/
structure CphKey where
  cls   : Nat
  key   : List Byte
  owner : CphOwner
  deriving DecidableEq, Repr

/-- An open stream (R320): the operation, direction and owner, its own key, the IV or counter block, the GHASH or CMAC
value with the last whole block CMAC holds back, lengths so far, and for decryption MSGLEN, the held output and the
cells reserved in spill (R329, R330). -/
structure CphStream where
  op      : Nat
  decrypt : Bool
  owner   : CphOwner
  cls     : Nat
  key     : List Byte
  tagLen  : Nat
  ctrw    : Nat
  iv      : List Byte
  acc     : List Byte
  tail    : List Byte
  aadLen  : Nat
  dataLen : Nat
  msgLen  : Nat
  held    : List Byte
  spill   : Nat
  deriving DecidableEq, Repr

/-- A request in the queue: its return address and bytes (header, AAD, data), whether it is in a wait bounded by WAITMAX,
and whether it waits for its mask draw. -/
structure CphReq where
  id      : Nat
  req     : Req
  data    : List Byte
  waiting : Bool
  rngWait : Bool
  deriving DecidableEq, Repr

/-- An operation on a core: the request, its place in the order of starts, the keys and the IV it took at its start, whether it
was suspended (R336), its stream as it stood at the start, the handle it will load (R310, R312), the spill cells it reserves
beside a stream (R330), and whether it ends without a completion (R345). -/
structure CphRun where
  r     : CphReq
  n     : Nat
  keyA  : Option CphKey
  keyB  : Option CphKey
  iv    : List Byte
  susp  : Bool
  str   : CphStream
  hb    : Option Nat
  spill : Nat
  mute  : Bool
  deriving DecidableEq, Repr

/-- A core: its running operation and the suspended one it holds (R335). -/
structure CphCore where
  run  : Option CphRun
  held : Option CphRun
  deriving DecidableEq, Repr

/-- The cipher engine behind its registers: handles, streams, streams closed by R316 with their owners, outstanding saves by stream (R340),
INV of each counter in the newest keep-set save and in the one being written (R327), the queue, the cores, the next
request and start numbers, the installed lessor domain key, and request frames held by CONFIG_STOP (R344): row, return
address, sub-port, bytes. -/
structure Cph where
  handles : List (Nat × CphKey)
  streams : List (Nat × CphStream)
  lost    : List (Nat × CphOwner)
  saves   : List (Nat × Nat)
  ncSaved : List Nat
  ncCap   : List Nat
  queue   : List CphReq
  cores   : List CphCore
  nextId  : Nat
  nextRun : Nat
  domain  : Option (List Byte)
  held    : List (Nat × Req × Nat × List Byte)
  deriving DecidableEq, Repr

-- Random number unit (10_random_numbers.md) ------------------------------------------------------

/-- An expander instance (R363, R364): the CTR_DRBG's Key and V, generate requests since its seed, and whether a reseed
is under way. It is seeded when its bit of RNG_STAT.SEEDED is set. -/
structure RngInst where
  key       : List Byte
  v         : List Byte
  cnt       : Nat
  reseeding : Bool
  deriving DecidableEq, Repr

/-- A waiting reader (R359): a read of RNG_DATA or RNG_RAW by the host or by firmware, by a MGMT frame to a sub-port at an
offset, or by the debug port; or a frame request for `len` bytes of an instance with those it has got. -/
inductive RngWait where
  | read (host raw : Bool)
  | mgmt (req : Req) (sub ofs : Nat) (raw : Bool)
  | debug (raw : Bool)
  | frame (req : Req) (len inst : Nat) (got : List Byte)
  deriving DecidableEq, Repr

/-- The random number unit behind its registers: which sources (Jasper, Opal) have passed a block since the start, the
times of their failures since the last start (R356), the seed pool oldest first (R351), the instances, the waiting
readers, the raw-port bytes of each source and which one is next, and frame requests held by CONFIG_STOP (R371). -/
structure Rng where
  passed  : List Bool
  fails   : List (List Nat)
  pool    : List Byte
  insts   : List RngInst
  waits   : List RngWait
  raw     : List (List Byte)
  rawTurn : Nat
  held    : List (Req × List Byte)
  deriving DecidableEq, Repr

-- Basin and the tag directory (13_basin_directory.md) --------------------------------------------

/-- An unread capture record (R460): its place and size in the capture pool and its RSEQ. -/
structure CapRec where
  pos  : Nat
  size : Nat
  rseq : Nat
  len  : Nat
  deriving DecidableEq, Repr

/-- Basin: the partition sizes in force in MiB (Table 13.1), the bytes of the capture, extension and log-staging
partitions by Basin offset, the unread capture records oldest first, the next write place and RSEQ, the STOREs that
wait for room (R462) and the sizes an APPLY under way will put in force (R454). -/
structure Bsn where
  size    : List Nat
  mem     : List Host.Cell
  cap     : List CapRec
  capPos  : Nat
  rseq    : Nat
  capWait : List (Req × List Byte)
  applyTo : List Nat
  deriving DecidableEq, Repr

/-- A directory request that waits (R479, R483): its return address (none for a register command) and its bytes. -/
structure DirWait where
  req  : Option Req
  data : List Byte
  deriving DecidableEq, Repr

/-- The tag directory: entries that are not all 0 (64 bytes each), the cached indices (most recent first), the pinned
ones, whether a register command is pending and the source port it came by (R385), the waiting requests,
the lookups whose Basin read is under way (R468), whether a load is under way (R483), the image pages with gathered changes, and when each
image page was last written (R481). -/
structure Dir where
  entries  : List (Nat × List Byte)
  cache    : List Nat
  pinned   : List Nat
  cmdPend  : Bool
  cmdSrc   : Nat
  waits    : List DirWait
  misses   : List DirWait
  loadRun  : Bool
  gathered : List Nat
  pageTime : List (Nat × Nat)
  deriving DecidableEq, Repr

-- Cascade (15_cascade.md) ------------------------------------------------------------------------

/-- What is sent on a Peluk link (Table 15.1): control sets, whole cells from header to CRC (R537), and the EOC_BAD that ends a
passing cell of a class (R541). -/
inductive PlSet where
  | ts (role id : Nat) (seen : Bool)
  | cred (cls count : Nat)
  | ack (lseq : Nat)
  | nak (lseq : Nat)
  | lstat (link : Nat) (up : Bool)
  | enum (id : Nat) (dir : Nat) (endd : Bool) (ndev : Nat)
  | cell (bytes : List Byte)
  | eocBad (cls : Nat)
  deriving DecidableEq, Repr

/-- A cell on a link (Table 15.2). `pass` marks a cell of a frame that passes through; a LAST cell carries its whole
frame and its origin beside it, for the completion of R549. -/
structure PlCell where
  cls    : Nat
  first  : Bool
  last   : Bool
  lseq   : Nat
  origin : Nat
  data   : List Byte
  pass   : Bool
  whole  : List Byte
  worg   : Nat
  deriving DecidableEq, Repr

/-- One Peluk link (R536–R541): the sets and cells sent (newest last), the next LSEQ to send and the one expected, cells sent
and not acknowledged, cells waiting to be sent, whose frame is open in each class on the outgoing side (0 none, 1 this
device's, 2 a passing one), credit held and the last CRED count per class, cells freed per class, the bytes of the frame
arriving in each class with its origin and whether it can no longer be forwarded, received cells held up behind a waiting
frame, how often the oldest cell has been replayed in a row, and the class whose passing cell has begun to leave before
its end arrived. -/
structure PlLink where
  sent    : List PlSet
  txSeq   : Nat
  rxSeq   : Nat
  unacked : List PlCell
  waiting : List PlCell
  open_   : List Nat
  credit  : List Nat
  credIn  : List Nat
  freed   : List Nat
  rx      : List (List Byte)
  rxOrg   : List Nat
  brk     : List Bool
  held    : List PlCell
  replays : Nat
  fwding  : Option Nat
  deriving DecidableEq, Repr

/-- A link as it comes up: 8 cells of credit in each class (R539). -/
def PlLink.fresh : PlLink where
  sent := []
  txSeq := 0
  rxSeq := 0
  unacked := []
  waiting := []
  open_ := [0, 0, 0, 0]
  credit := [8, 8, 8, 8]
  credIn := [0, 0, 0, 0]
  freed := [0, 0, 0, 0]
  rx := [[], [], [], []]
  rxOrg := [0, 0, 0, 0]
  brk := [false, false, false, false]
  held := []
  replays := 0
  fwding := none

/-- A return slot (R551, R552): its triple, the frames that came in through it and are not completed, and its last use. -/
structure PlSlot where
  origin : Nat
  sport  : Nat
  ssub   : Nat
  open_  : Nat
  last   : Nat
  deriving DecidableEq, Repr

/-- A frame for this device that waits in a link buffer, for a return slot or for CONFIG_START (R552, R558): the link,
the class and cells it holds there, its origin and its bytes. -/
structure PlWait where
  link   : Nat
  cls    : Nat
  cells  : Nat
  origin : Nat
  bytes  : List Byte
  deriving DecidableEq, Repr

/-- The cascade: whether this device holds an ID, the set of down links (R546), the two links, the bound return slots,
the frames waiting in the link buffers, whether the head has enumerated since the start, and the two directions of an
enumeration under way at the head (R543). -/
structure Pl where
  hasId    : Bool
  down     : List Nat
  links    : List PlLink
  slots    : List (Nat × PlSlot)
  slotWait : List PlWait
  enumed   : Bool
  enumDn   : Bool
  enumUp   : Bool
  deriving DecidableEq, Repr

-- Ivler core (16_ivler_core.md) -------------------------------------------------------------------

/-- An entry of the return stack (R572): the value and its tag (0 CALL, 1 TPC, 2 TST). -/
structure RsEntry where
  val : W32
  tag : Nat
  deriving DecidableEq, Repr

/-- A control transfer whose delay slot has not run (R576–R578): where it stands, its target (none for a branch not taken),
the CORESTAT a TRET restores, whether it pushed a return address (which becomes the address after the slot), and the entries
it popped. -/
structure IvSlot where
  at_    : W32
  target : Option W32
  tst    : Option W32
  pushed : Bool
  popped : List RsEntry
  deriving DecidableEq, Repr

/-- A repeat (R580–R582): where its prefix stands and the prefix's encoding, whether it is RPTI (or resumed), the
iterations to run, and whether the first has run. -/
structure IvRep where
  at_  : W32
  enc  : Nat
  rpti : Bool
  left : Nat
  begun : Bool
  deriving DecidableEq, Repr

/-- A load that has not got its data yet (R366, R384): from the random number unit (`rng`, whether its raw port) or from the
NV window at `addr`; its size in bytes and its sign, the register it loads, and for a CRC step from memory the address
register (R626). -/
structure IvLoad where
  rng  : Option Bool
  addr : Nat
  size : Nat
  sgn  : Bool
  rd   : Nat
  crc  : Option Nat
  deriving DecidableEq, Repr

/-- The core: PC, W0–W15, CORESTAT and the special registers of Table 16.1, the hardware return stack with its top first,
SRAM and bit RAM; the transfer before the slot, the repeat, WAIT, the load in progress, the watchdog warning not yet taken
(R592), legacy multiplies in flight with their age in cycles (R625), the register last loaded and the native multiply's
destination with its age (R624, R631), HALT by the debug port, whether the first instruction since the reset has been
fetched (R602), when the watchdog was last kicked, the frame the transmit engine is sending, and by receive ring the frames
that wait for room (R597). -/
structure Iv where
  pc      : W32
  w       : Vector W32 16
  core    : W32
  dsp     : W32
  rsp     : W32
  rsbase  : W32
  rslim   : W32
  dslim   : W32
  rpc     : W32
  ba      : Bool
  crp     : W32
  crw     : W32
  mdh     : W32
  mdl     : W32
  tcause  : Nat
  tval    : W32
  vbase   : W32
  rs      : List RsEntry
  sram    : List Host.Cell
  bits    : List Host.Cell
  slot    : Option IvSlot
  rep_    : Option IvRep
  waiting : Bool
  load    : Option IvLoad
  warn    : Bool
  mul     : List (Nat × W32 × W32)
  ldReg   : Option Nat
  mulReg  : List (Nat × Nat)
  halted  : Bool
  fetched : Bool
  kicked  : Nat
  tx      : Option (Nat × List Byte)
  qWait   : List (Nat × Frame)
  deriving DecidableEq, Repr

-- Power modes (18_power_modes_holdup.md) ---------------------------------------------------------------

/-- The power manager: the entry under way (0 none, 1 SLEEP draining, 2 SLEEP past its drain, 3 the drain before LISTEN),
the mode SLEEP asked for, whether the entry checkpoint has still to end, a wake event latched during the entry (R641,
R644), whether the coil program was halted for the entry (R643), the reference currents of the sniff (R637), when HOLDUP
began and whether its record is still to be reported (R656), whether the keeper was cut (R654), WAKE_N driven low
(R649), whether the always-on domain has lost its time since the last start (R86), whether a fitted RTC crystal
oscillates (R667), and whether steps 5 and 6 of the start still wait for XTAL_OK (Table 19.3). -/
structure Pm where
  entry    : Nat
  mode     : Nat
  ckpt     : Bool
  wake     : Option Nat
  prog     : Bool
  sniffRef : List (Nat × Nat)
  holdAt   : Nat
  holdSeen : Bool
  cut      : Bool
  wakeN    : Bool
  aonNew   : Bool
  rtcOsc   : Bool
  clkDue   : Bool
  deriving DecidableEq, Repr

-- Security and lifecycle (21_security_lifecycle.md) --------------------------------------------------

/-- A security command or debug AUTH that waits for its turn or its mask draw (R716 step 3): a frame's return address, or
none for the debug port, and its bytes. -/
structure SecWait where
  req  : Option Req
  data : List Byte
  deriving DecidableEq, Repr

/-- The Garnet fuses of Table 21.1 that no register holds, and the security block: ROOT (empty while unblown) and
ROOTGEN, DEVICE_ID and UID, the number of LC bits blown, RETIRED, REG_LOCK, SVN, INTKEY (empty while INTKEY_SET is
clear); the LEN of an open install (R720); the commands waiting, the one under way first, and whether that one has passed
its mask draw (R716); whether the ledger's closing for TRANSFER (1) or RETIRED (2) is under way (R710); the recovery loader
(R676); the last reply of the debug port, and a debug read that waits for an NV page or for random bits (R354, R384): the
address and count of the words left and the bytes it has. -/
structure Sec where
  root     : List Byte
  rootGen  : Bool
  devId    : List Byte
  uid      : List Byte
  k        : Nat
  retired  : Bool
  regLock  : Bool
  svn      : Nat
  intkey   : List Byte
  fwLen    : Nat
  queue    : List SecWait
  busy     : Bool
  closing  : Nat
  recovery : Bool
  dbg      : List Byte
  dbgRd    : Option (Nat × Nat × List Byte)
  deriving DecidableEq, Repr

-- Vehicle, meter and release I/O (22_vehicle_meter_io.md) ---------------------------------------------

/-- A meter input (R739): whether it is at its active level, since when, its last return to the inactive level, whether the
present active period has qualified and whether it was refused for RATE. -/
structure VioMeter where
  active : Bool
  since  : Nat
  offAt  : Nat
  qual   : Bool
  rate   : Bool
  deriving DecidableEq, Repr

/-- A vehicle frame whose verification waits for its masks (R734): the controller, whether it is a request, its identifier
word and data, and RTC and RF_TSTAMP at its end. -/
structure VioCan where
  n    : Nat
  rq   : Bool
  word : Nat
  data : List Byte
  rtc  : Nat
  ts   : Nat
  deriving DecidableEq, Repr

/-- Vehicle and meter I/O: the last status and request frames accepted (identifier word and data, R735), frames waiting for
masks, the two meter inputs, the filtered tamper inputs, and the REL_A and REL_B pads that read other than driven (R742). -/
structure Vio where
  lastSts : Option (Nat × List Byte)
  lastReq : Option (Nat × List Byte)
  waits   : List VioCan
  meters  : List VioMeter
  tamp    : Nat
  badA    : Bool
  badB    : Bool
  deriving DecidableEq, Repr

/-- The state of the block. `pending` is the queue of waiting commands, first in, first out. -/
structure State where
  pending : List Instr
  now : Nat
  rtc : Nat
  free : Nat
  regs : List (Nat × W32)
  sw : Sw
  ev : Ev
  hst : Hst
  nv : Nv
  stops : Stops
  keep : List Host.Cell
  sad : Sad
  led : Led
  coil : Coil
  cld : Cld
  pt : Pt
  rf : Rf
  prx : Prx
  cph : Cph
  rng : Rng
  bsn : Bsn
  dir : Dir
  pl : Pl
  iv : Iv
  pm : Pm
  sec : Sec
  vio : Vio
  deriving DecidableEq, Repr

/-- No occurrence of the spec stops the device as a whole, so no meaning faults. -/
inductive Fault
  deriving DecidableEq, Repr

/-- Reasons to refuse a command. -/
inductive Refusal where
  /-- Raised by `exec` for a command that has no meaning yet; safe. -/
  | notModelled (mnemonic : String)
  deriving DecidableEq, Repr

/-- The device as a power-on reset leaves it, before the start-up of Table 19.3 runs (DEVICE_START). -/
def State.reset : State where
  pending := []
  now := 0
  rtc := 0
  free := 0
  regs := [(0x2108, 1#32)]
  sw := ⟨[], 0, [], [], [], List.replicate 64 0, List.replicate 16 0, List.replicate 16 false, List.replicate 64 0⟩
  ev := ⟨[], [], [0, 0], false, [], [], 0, 0, [], 0⟩
  hst := ⟨List.replicate 64 ⟨false, 0, 0, 0, false, 0, 0, 0, 0⟩, List.replicate 16 [], [], [], [], [], false, 0, false, true, false, [], [], 0⟩
  nv := { cells := [], tags := [], incomplete := [], cust := [], ord := [], cur := none, cmd := none, waitRead := [], held := [], keeper := false, torn := [], aonAbandon := [], aonLost := 0, lseq := 0, repaired := [] }
  stops := ⟨[], [], []⟩
  keep := []
  sad := ⟨[], [], 0, 0, 0, 0, [], 0, 0, [], false, false, 0, 0, false, none, false, false, false, true, 0, [], []⟩
  led := ⟨0, 0, 0, 0, [], [], [], false, false, false, 0, [], false, false, false, false, none, 0x03E80000#32, none, false, []⟩
  coil := { ready := [], running := [], jobs := [], nextId := 0, batch := 0, map := [], prog := [], loops := [], progJob := none, progWait := false, progHalt := false, progAgain := false, autoDone := false, fact := [], offAt := [], prev := [], mapFull := none, refresh := 0, mapDirty := false, held := [] }
  cld := { txns := [], accs := [], held := [], nextId := 1 }
  pt := { kp := none, kpDue := none, field := false, hv := false, st := 0, handle := 0, round := 0, slot := none, cur := 0, replied := false, chal := none, sk := [], cnt := 0, rejects := 0, lastF := [], lastR := [], air := [], fast := false, waitRead := none, run := none, queue := [], held := none, cmd := false, nextId := 0, resolved := false }
  rf := { queue := [], held := [], run := none, nextId := 0, bins := List.replicate 16 [], image := [], block := [], cache := [], lastFreq := none, ant := 0, extpa := false, air := [] }
  prx := ⟨[], none, none, []⟩
  cph := ⟨[], [], [], [], List.replicate 64 0, List.replicate 64 0, [], List.replicate 6 ⟨none, none⟩, 0, 0, none, []⟩
  rng := ⟨[false, false], [[], []], [], List.replicate 8 ⟨List.replicate 32 0#8, List.replicate 16 0#8, 0, false⟩, [], [[], []], 0, []⟩
  bsn := ⟨[32, 16, 8, 4, 2], [], [], 0, 0, [], []⟩
  dir := ⟨[], [], [], false, 8, [], [], false, [], []⟩
  pl := { hasId := false, down := [], links := [PlLink.fresh, PlLink.fresh], slots := [], slotWait := [], enumed := false, enumDn := false, enumUp := false }
  iv := { pc := 0#32, w := Vector.replicate 16 0#32, core := 0x100#32, dsp := 0#32, rsp := 0#32, rsbase := 0#32, rslim := 0#32, dslim := 0#32, rpc := 0#32, ba := false, crp := 0#32, crw := 32#32, mdh := 0#32, mdl := 0#32, tcause := 0, tval := 0#32, vbase := 0#32, rs := [], sram := [], bits := [], slot := none, rep_ := none, waiting := false, load := none, warn := false, mul := [], ldReg := none, mulReg := [], halted := false, fetched := false, kicked := 0, tx := none, qWait := [] }
  pm := ⟨0, 0, false, none, false, [], 0, false, false, false, true, false, false⟩
  sec := { root := [], rootGen := false, devId := List.replicate 16 0#8, uid := [4#8, 1#8, 0#8, 0#8, 0#8, 0#8, 0#8, 0#8], k := 0, retired := false, regLock := false, svn := 0, intkey := [], fwLen := 0, queue := [], busy := false, closing := 0, recovery := false, dbg := [], dbgRd := none }
  vio := ⟨none, none, [], [⟨false, 0, 0, false, false⟩, ⟨false, 0, 0, false, false⟩], 0, false, false⟩

end Sys2Proof.Machine
end

