-- ==== Sys2Proof/Machine/Ops.lean ====
section
/-! DEFINITION. The named operations every block shares: bit ranges of a word, little-endian bytes (R8), sorted sparse
tables, memories, the set-up register file (Table 0.1) and the clock. -/

namespace Sys2Proof.Machine

-- Numbers and bytes -----------------------------------------------------------------------------

/-- Bits `hi` to `lo` of a number (R7). -/
def natBits (x hi lo : Nat) : Nat := (x >>> lo) % 2 ^ (hi - lo + 1)

/-- The number `x` with bits `hi` to `lo` replaced by `v`. -/
def natPut (x hi lo v : Nat) : Nat :=
  x - (natBits x hi lo) <<< lo + (v % 2 ^ (hi - lo + 1)) <<< lo

/-- Bits `hi` to `lo` of a word (R7). -/
def wBits (w : W32) (hi lo : Nat) : Nat := natBits w.toNat hi lo

/-- The mask of bits `hi` to `lo`. -/
def wMask (hi lo : Nat) : W32 := BitVec.ofNat 32 ((2 ^ (hi - lo + 1) - 1) <<< lo)

/-- The word `w` with bits `hi` to `lo` replaced by `v`. -/
def wPut (w : W32) (hi lo v : Nat) : W32 :=
  (w &&& ~~~ wMask hi lo) ||| (BitVec.ofNat 32 (v <<< lo) &&& wMask hi lo)

/-- 1 for true. -/
def b2n (b : Bool) : Nat := if b then 1 else 0

/-- Addition that stops at `top` (saturating counters). -/
def satAdd (top x y : Nat) : Nat := min top (x + y)

/-- The low byte of a number. -/
def byte (x : Nat) : Byte := BitVec.ofNat 8 x

/-- A number as `n` little-endian bytes (R8). -/
def leBytes : Nat → Nat → List Byte
  | 0, _ => []
  | n + 1, x => byte x :: leBytes n (x / 256)

/-- Little-endian bytes as a number (R8). -/
def leNat : List Byte → Nat
  | [] => 0
  | b :: bs => b.toNat + 256 * leNat bs

/-- A number as `n` big-endian bytes. -/
def beBytes (n x : Nat) : List Byte := (leBytes n x).reverse

/-- Big-endian bytes as a number. -/
def beNat (bs : List Byte) : Nat := leNat bs.reverse

/-- `n` bytes of `bs` from offset `ofs`, zeros beyond its end. -/
def slice (bs : List Byte) (ofs n : Nat) : List Byte :=
  (List.range n).map fun i => bs.getD (ofs + i) 0#8

/-- The little-endian field of `n` bytes at offset `ofs`. -/
def leAt (bs : List Byte) (ofs n : Nat) : Nat := leNat (slice bs ofs n)

/-- `n` zero bytes. -/
def zeros (n : Nat) : List Byte := List.replicate n 0#8

/-- `bs` cut or padded with zeros to `n` bytes. -/
def fit (n : Nat) (bs : List Byte) : List Byte := slice bs 0 n

/-- `bs` with `new` written over it from offset `ofs`. -/
def overlay (bs : List Byte) (ofs : Nat) (new : List Byte) : List Byte :=
  bs.take ofs ++ new ++ bs.drop (ofs + new.length)

/-- Bytewise exclusive or, to the shorter length. -/
def xorBytes (a b : List Byte) : List Byte := List.zipWith (· ^^^ ·) a b

/-- A signed value from an unsigned `w`-bit field. -/
def signed (w x : Nat) : Int := if x < 2 ^ (w - 1) then (x : Int) else (x : Int) - 2 ^ w

/-- The `w`-bit two's-complement coding of an integer. -/
def unsigned (w : Nat) (x : Int) : Nat := (x % (2 ^ w : Int)).toNat

/-- The list with element `i` replaced by its image. -/
def modAt {α : Type} (l : List α) (i : Nat) (f : α → α) : List α := l.modify i f

/-- Bit `i` of a mask. -/
def bitOf (m i : Nat) : Bool := m.testBit i

/-- The mask with bit `i` set. -/
def setBit (m i : Nat) : Nat := m ||| (1 <<< i)

/-- The mask with bit `i` clear. -/
def clrBit (m i : Nat) : Nat := if m.testBit i then m - (1 <<< i) else m

/-- How many of bits 0 to `n` - 1 of a mask are set. -/
def popCount (m n : Nat) : Nat := ((List.range n).filter m.testBit).length

/-- Register `r` of a file of sixteen. -/
def wGet (w : Vector W32 16) (r : Nat) : W32 := w[r % 16]'(Nat.mod_lt _ (by decide))

/-- The file with register `r` replaced. -/
def wSet (w : Vector W32 16) (r : Nat) (v : W32) : Vector W32 16 := w.set (r % 16) v (Nat.mod_lt _ (by decide))

-- Sparse tables: keys strictly rising ------------------------------------------------------------

/-- The value at a key. -/
def sget {α : Type} : List (Nat × α) → Nat → Option α
  | [], _ => none
  | (k, v) :: l, a => if k = a then some v else sget l a

/-- The table with `a` mapped to `x`, keys kept rising. -/
def sput {α : Type} : List (Nat × α) → Nat → α → List (Nat × α)
  | [], a, x => [(a, x)]
  | (k, v) :: l, a, x =>
    if k = a then (a, x) :: l else if a < k then (a, x) :: (k, v) :: l else (k, v) :: sput l a x

/-- The table without key `a`, however often it is listed. -/
def sdel {α : Type} : List (Nat × α) → Nat → List (Nat × α)
  | [], _ => []
  | (k, v) :: l, a => if k = a then sdel l a else (k, v) :: sdel l a

/-- The table with `a` mapped to `x`, where an unlisted key means `d`: writing `d` removes the entry. -/
def sputD {α : Type} [DecidableEq α] (d : α) (l : List (Nat × α)) (a : Nat) (x : α) : List (Nat × α) :=
  if x = d then sdel l a else sput l a x

/-- The keys of a table rise strictly. -/
def srising {α : Type} : List (Nat × α) → Bool
  | [] => true
  | [_] => true
  | (k, _) :: (k', v') :: l => decide (k < k') && srising ((k', v') :: l)

-- Memories: an unlisted address reads 0 ----------------------------------------------------------

/-- The byte at an address. -/
def memGet (m : List Host.Cell) (a : Nat) : Byte := (sget m a).getD 0#8

/-- The memory with one byte written. -/
def memPut (m : List Host.Cell) (a : Nat) (b : Byte) : List Host.Cell := sputD 0#8 m a b

/-- `n` bytes from an address. -/
def memRead (m : List Host.Cell) (a n : Nat) : List Byte := (List.range n).map fun i => memGet m (a + i)

/-- The memory with bytes written from an address upwards. -/
def memWrite : List Host.Cell → Nat → List Byte → List Host.Cell
  | m, _, [] => m
  | m, a, b :: bs => memWrite (memPut m a b) (a + 1) bs

/-- The canonical form of a memory: addresses strictly rising, no byte equal to what an unlisted address reads as. -/
def Memory.wf (m : List Host.Cell) : Bool := srising m && m.all fun c => c.2 != 0#8

-- The set-up register file (Table 0.1, Table 25.2) ------------------------------------------------

/-- The registers of the block whose extent holds the offset (Table 25.1). -/
def blockRegs (off : Nat) : List RegSpec :=
  if off < 0x400 then regsId else if off < 0x1000 then regsHr else if off < 0x1800 then regsEv
  else if off < 0x2000 then regsSnp else if off < 0x3000 then regsPm else if off < 0x3800 then regsSw
  else if off < 0x4000 then regsBsn else if off < 0x4800 then regsCoil else if off < 0x5000 then regsCld
  else if off < 0x5800 then regsRf else if off < 0x6000 then regsPrx else if off < 0x6800 then regsCph
  else if off < 0x7000 then regsRng else if off < 0x7800 then regsNv else if off < 0x8000 then regsPt
  else if off < 0x8800 then regsSad else if off < 0x9000 then regsLed else if off < 0x9800 then regsPl
  else if off < 0xA000 then regsVio else if off < 0xA800 then regsSec else if off < 0xB000 then regsIvc else []

/-- The register at an offset, if one occupies it (R788). -/
def regSpec (off : Nat) : Option RegSpec :=
  (blockRegs off).find? fun r =>
    decide (r.base ≤ off) && (off - r.base) % r.stride == 0 && decide ((off - r.base) / r.stride < r.count)

/-- The word of fields at their reset values. -/
def fieldsWord (fs : List FieldSpec) : W32 :=
  fs.foldl (fun w f => wPut w f.hi f.lo f.reset) 0#32

/-- The reset word of the register at an offset; 0 where no register lies (R788). -/
def resetWord (off : Nat) : W32 :=
  match regSpec off with
  | some r => fieldsWord r.flds
  | none => 0#32

namespace State

/-- The stored word of the register at an offset. -/
def getW (s : State) (off : Nat) : W32 := (sget s.regs off).getD (resetWord off)

/-- The state with a register's stored word replaced. -/
def setW (s : State) (off : Nat) (w : W32) : State :=
  { s with regs := sputD (resetWord off) s.regs off w }

/-- The value of a register field. -/
def get (s : State) (f : Fd) : Nat := wBits (s.getW f.off) f.hi f.lo

/-- The value of a one-bit register field. -/
def on (s : State) (f : Fd) : Bool := s.get f != 0

/-- The state with a register field set, cut to its width. -/
def set (s : State) (f : Fd) (v : Nat) : State := s.setW f.off (wPut (s.getW f.off) f.hi f.lo v)

/-- The state with a one-bit field set from a truth value. -/
def setB (s : State) (f : Fd) (b : Bool) : State := s.set f (b2n b)

/-- The state with `n` added to a counter field, which saturates at its width. -/
def bump (s : State) (f : Fd) (n : Nat) : State := s.set f (satAdd (2 ^ (f.hi - f.lo + 1) - 1) (s.get f) n)

/-- The state with one added to a wrapping counter field. -/
def wrapInc (s : State) (f : Fd) : State := s.set f (s.get f + 1)

/-- The next free value: any number, different draws unrelated (log entry 4). -/
def draw (s : State) : Nat × State := (Config.draw s.free, { s with free := s.free + 1 })

/-- `n` free bytes. -/
def drawBytes : Nat → State → List Byte × State
  | 0, s => ([], s)
  | n + 1, s =>
    let (x, s) := s.draw
    let (bs, s) := drawBytes n s
    (byte x :: bs, s)

/-- The RTC in seconds. -/
def rtcSec (s : State) : Nat := s.rtc / 1000000

end State

-- Stopped blocks ----------------------------------------------------------------------------------

/-- The block is stopped by CONFIG_STOP, or stopping (R23). -/
def isStopped (s : State) (blk : Nat) : Bool := s.stops.stopped.contains blk
def isStopping (s : State) (blk : Nat) : Bool := s.stops.stopping.contains blk
/-- The block takes no new frame of classes C0 to C2 (R23). -/
def noNewWork (s : State) (blk : Nat) : Bool := isStopped s blk || isStopping s blk

end Sys2Proof.Machine
end

