-- ==== Sys2Proof/Machine/NvBase.lean ====
section
/-! DEFINITION. What other blocks use of the NV store (11_nv_store.md): the CRCs of R152 and R390, the record service's
copies and selection (R390–R395), block protect (R397), the two request queues and the start of a page write
(R376–R382). Completions of writes are in NvDone.lean. -/

namespace Sys2Proof.Machine

-- CRCs -------------------------------------------------------------------------------------------

/-- One bit step of CRC-16/CCITT: polynomial 0x1021, most significant bit first. -/
def crc16Step (c : Nat) : Nat := if c ≥ 0x8000 then ((c <<< 1) ^^^ 0x1021) % 0x10000 else (c <<< 1) % 0x10000

/-- One byte of CRC-16/CCITT. -/
def crc16Byte (c : Nat) (b : Byte) : Nat := Nat.repeat crc16Step 8 (c ^^^ (b.toNat <<< 8))

/-- CRC-16/CCITT of R152: initial value 0xFFFF, no reflection, no final XOR. -/
def crc16 (bs : List Byte) : Nat := bs.foldl crc16Byte 0xFFFF

/-- One bit step of the reflected CRC-32. -/
def crc32Step (c : Nat) : Nat := if c % 2 = 1 then (c >>> 1) ^^^ 0xEDB88320 else c >>> 1

/-- One byte of CRC-32. -/
def crc32Byte (c : Nat) (b : Byte) : Nat := Nat.repeat crc32Step 8 (c ^^^ b.toNat)

/-- CRC-32 of R390 (IEEE 802.3). -/
def crc32 (bs : List Byte) : Nat := (bs.foldl crc32Byte 0xFFFFFFFF) ^^^ 0xFFFFFFFF

-- The device's own records (Table 11.7, R450, R454, R690, R793) -----------------------------------

/-- A device record with tie rule PREFER_A. -/
def devRec (id len a b : Nat) : RecDesc := ⟨id, len, a, b, false, 0, 4⟩

def recNv : RecDesc := devRec 0x0001 112 0x51000 0x51080
def recSaddle : RecDesc := devRec 0x0002 528 0x51100 0x51380
def recLedger : RecDesc := devRec 0x0003 16 0x51600 0x51680
def recCoilMap : RecDesc := devRec 0x0004 2688 0x51800 0x52280
def recCoilProg : RecDesc := devRec 0x0005 1448 0x52D00 0x53300
def recCloade : RecDesc := devRec 0x0006 12 0x53900 0x53980
def recRadio : RecDesc := devRec 0x0007 136 0x53A00 0x53B00
def recProx : RecDesc := devRec 0x0008 80 0x53C00 0x53C80
def recDomain : RecDesc := devRec 0x0009 48 0x53D00 0x53D80
/-- Closing statement `i`, 0 to 3. -/
def recClosing (i : Nat) : RecDesc := devRec (0x0010 + i) 96 (0x50000 + 0x100 * i) (0x50080 + 0x100 * i)
def recRegBlock : RecDesc := devRec 0x0020 512 0x5D800 0x5DA00
def recGroups : RecDesc := devRec 0x0040 5376 0x53E00 0x55600
def recSwitch : RecDesc := devRec 0x0041 260 0x56E00 0x56F80
def recEvents : RecDesc := devRec 0x0043 512 0x57200 0x57400
def recSystem : RecDesc := devRec 0x0045 96 0x57700 0x57780

/-- The keep-slot pair `p` (R387): REC_ID 0x0080, PREFER_HIGHER over the 8 bytes at 0x000. -/
def recKeep (p : Nat) : RecDesc := ⟨0x0080, 4096, 0x20000 + 0x2000 * p, 0x21000 + 0x2000 * p, true, 0, 8⟩

/-- User descriptor `n` (R396). -/
def userDesc (s : State) (n : Nat) : RecDesc :=
  ⟨0x0100 + n, s.get (F.nvRecdCfg_len n), s.get (F.nvRecdA_addrA n), s.get (F.nvRecdB_addrB n),
   s.on (F.nvRecdCfg_tie n), s.get (F.nvRecdCfg_tieOfs n), if s.on (F.nvRecdCfg_tieW n) then 8 else 4⟩

/-- Pages a payload of `len` bytes fills (R390). -/
def recPages (len : Nat) : Nat := (len + 127) / 128

/-- The conditions under which a user descriptor is used (R396). -/
def userDescOk (d : RecDesc) : Bool :=
  let n := 128 * recPages d.len
  d.addrA % 128 == 0 && d.addrB % 128 == 0
  && decide (1 ≤ d.len) && decide (d.len ≤ 4096)
  && decide (0x40000 ≤ d.addrA) && decide (d.addrA + n ≤ 0x50000)
  && decide (0x40000 ≤ d.addrB) && decide (d.addrB + n ≤ 0x50000)
  && (decide (d.addrA + n ≤ d.addrB) || decide (d.addrB + n ≤ d.addrA))
  && decide (d.tieOfs + d.tieW ≤ d.len)

/-- The CRC of a record copy (R390): over REC_ID, LEN and SEQ and then the payload. -/
def recCrc (id len seq : Nat) (payload : List Byte) : Nat :=
  crc32 (leBytes 2 id ++ leBytes 2 len ++ leBytes 4 seq ++ payload)

/-- A copy's SEQ and payload if the copy is valid (R391). -/
def recCopy (s : State) (d : RecDesc) (copyB : Bool) : Option (Nat × List Byte) :=
  let a := if copyB then d.addrB else d.addrA
  match sget s.nv.tags (a / 128) with
  | none => none
  | some t =>
    let payload := memRead s.nv.cells a d.len
    if t.id = d.id ∧ t.len = d.len ∧ t.crc = recCrc t.id t.len t.seq payload then some (t.seq, payload) else none

/-- What a record read selects (Table 11.6): whether copy B, its SEQ and payload, whether the copies conflict, and
whether the other copy is to be repaired (R394). -/
structure RecSel where
  copyB    : Bool
  seq      : Nat
  payload  : List Byte
  conflict : Bool
  repair   : Bool
  deriving DecidableEq, Repr

/-- Copy selection (R393, Table 11.6). -/
def recSelect (s : State) (d : RecDesc) : Option RecSel :=
  match recCopy s d false, recCopy s d true with
  | none, none => none
  | some (q, p), none => some ⟨false, q, p, false, true⟩
  | none, some (q, p) => some ⟨true, q, p, false, true⟩
  | some (qa, pa), some (qb, pb) =>
    if qa ≠ qb then
      if qb < qa then some ⟨false, qa, pa, false, true⟩ else some ⟨true, qb, pb, false, true⟩
    else if pa = pb then some ⟨false, qa, pa, false, false⟩
    else if d.higher ∧ leAt pa d.tieOfs d.tieW < leAt pb d.tieOfs d.tieW then some ⟨true, qb, pb, true, true⟩
    else some ⟨false, qa, pa, true, true⟩

/-- The SEQ a record write takes (R392, step 1). -/
def recNextSeq (s : State) (d : RecDesc) : Nat :=
  match recSelect s d with
  | some r => (r.seq + 1) % 2 ^ 32
  | none => 1

/-- The switch port of the block whose record it is, 15 for blocks without one (R385, Table 1.2, Table 11.7). -/
def recPort (id : Nat) : Nat :=
  if id = 2 ∨ id = 3 ∨ (0x10 ≤ id ∧ id ≤ 0x13) then 14
  else if 4 ≤ id ∧ id ≤ 6 then 0
  else if id = 7 ∨ id = 8 ∨ id = 0x20 then 6
  else if id = 9 then 13
  else if id = 0x42 then 7
  else 15

-- Page writes ------------------------------------------------------------------------------------

/-- The page writes of `data` at `addr` in ascending order (R376, R380); the tag goes with the first page. -/
def pagesOf : Nat → Nat → List Byte → Option RecTag → List NvPw
  | 0, _, _, _ => []
  | fuel + 1, addr, data, tag =>
    if data.isEmpty then []
    else
      let ofs := addr % 128
      let n := 128 - ofs
      ⟨addr / 128, ofs, data.take n, tag⟩ :: pagesOf fuel (addr + n) (data.drop n) none

/-- The page writes of one record copy (R390). -/
def copyPages (d : RecDesc) (copyB : Bool) (seq : Nat) (payload : List Byte) : List NvPw :=
  let p := fit d.len payload
  pagesOf (recPages d.len + 1) (if copyB then d.addrB else d.addrA) p (some ⟨d.id, d.len, seq, recCrc d.id d.len seq p⟩)

/-- The page writes a request stands for when it starts. -/
def jobPages (s : State) : NvKind → List NvPw
  | .raw a data => pagesOf (data.length / 128 + 3) a data none
  | .record d p => let q := recNextSeq s d; copyPages d false q p ++ copyPages d true q p
  | .both d q p => copyPages d false q p ++ copyPages d true q p
  | .copy d b q p => copyPages d b q p
  | .refresh pg => [⟨pg, 0, memRead s.nv.cells (128 * pg) 128, sget s.nv.tags pg⟩]

/-- The byte ranges a request writes: (first, last + 1). -/
def jobRanges : NvKind → List (Nat × Nat)
  | .raw a data => [(a, a + data.length)]
  | .record d _ => [(d.addrA, d.addrA + d.len), (d.addrB, d.addrB + d.len)]
  | .both d _ _ => [(d.addrA, d.addrA + d.len), (d.addrB, d.addrB + d.len)]
  | .copy d b _ _ => let a := if b then d.addrB else d.addrA; [(a, a + d.len)]
  | .refresh _ => []

/-- The first protected address of a block-protect level; above the array when nothing is (Table 11.8). -/
def bpFrom (bp : Nat) : Nat :=
  if bp = 1 then 0xC0000 else if bp = 2 then 0x80000 else if bp = 3 then 0 else 0x100000

/-- Block protect refuses the write (R397, R398): a host or firmware write into the protected range, and under level 3
every write but a scrub refresh. -/
def nvProtected (s : State) (own : Bool) (k : NvKind) : Bool :=
  let bp := s.get F.nvProt_bp
  match k with
  | .refresh _ => false
  | _ => if own then bp == 3 else (jobRanges k).any fun r => decide (bpFrom bp < r.2)

/-- The store is in HOLDUP and takes no request (R385). -/
def nvHoldup (s : State) : Bool := s.get F.pmStat_current == 7

/-- A queued request may run: under CONFIG_STOP one of the host or firmware that has not begun stays queued (R24, R408). -/
def nvRuns (s : State) (j : NvJob) : Bool := j.own || j.started || !noNewWork s 28

/-- A queue with its first request that may run in front; none without one. -/
def nvFirst (s : State) (q : List NvJob) : Option (NvJob × List NvJob) :=
  (q.findIdx? (nvRuns s)).bind fun i => q[i]?.map fun j => (j, j :: q.eraseIdx i)

/-- The request whose pages are written next, a waiting custody request before the ordinary ones (R382), and the state with
it in front of its queue. -/
def nvHead (s : State) : Option (Bool × NvJob × State) :=
  match nvFirst s s.nv.cust with
  | some (j, q) => some (true, j, { s with nv := { s.nv with cust := q } })
  | none => (nvFirst s s.nv.ord).map fun x => (false, x.1, { s with nv := { s.nv with ord := x.2 } })

/-- The state with the head request of a class replaced. -/
def nvSetHead (s : State) (custody : Bool) (j : NvJob) : State :=
  if custody then { s with nv := { s.nv with cust := j :: s.nv.cust.tail } }
  else { s with nv := { s.nv with ord := j :: s.nv.ord.tail } }

/-- The page's tag after step 1 of its write: the new record tag if the page starts a record copy (Table 11.2). -/
def nvTagged (tags : List (Nat × RecTag)) (page : Nat) (tag : Option RecTag) : List (Nat × RecTag) :=
  match tag with
  | some t => sput tags page t
  | none => tags

/-- The passport tag runs the store from its field while the device is off (R194, Table 18.1). -/
def ptAlone (s : State) : Bool := s.get F.pmStat_current == 0 && s.pt.field

/-- Start the next page write if none is in progress and the header scan has ended (R377, R382, R403): INCOMPLETE is
set, then the tag. -/
def nvKick (s : State) : State :=
  if s.nv.cur.isSome || !(s.on F.nvStat_scanDone || ptAlone s) || (nvHoldup s && !s.nv.keeper) then s
  else
    match nvHead s with
    | none => s
    | some (custody, j, s) =>
      let j := if j.started then j else { j with pages := jobPages s j.kind, started := true }
      let s := nvSetHead s custody j
      match j.pages with
      | [] => s
      | w :: _ =>
        let old := memRead s.nv.cells (128 * w.page) 128
        { s with nv := { s.nv with
            cur := some ⟨custody, w.page, overlay old w.ofs w.data, w.tag, false, sget s.nv.tags w.page⟩
            incomplete := if s.nv.incomplete.contains w.page then s.nv.incomplete else w.page :: s.nv.incomplete
            tags := nvTagged s.nv.tags w.page w.tag } }

/-- Queue a write request (R382). The Bool says whether it was taken: block protect refuses it with NV_PROTECTED (0x38)
and counts it (R397), and in HOLDUP no request is taken (R385). -/
def nvSubmit (s : State) (k : NvKind) (custody own : Bool) (src : Nat) (cont : NvCont) : Bool × State :=
  if nvProtected s own k then (false, s.bump F.nvCnt_refused 1)
  else if nvHoldup s then (false, s)
  else
    let j : NvJob := ⟨k, [], false, custody, own, src, cont⟩
    let s := if custody then { s with nv := { s.nv with cust := s.nv.cust ++ [j] } }
             else { s with nv := { s.nv with ord := s.nv.ord ++ [j] } }
    (true, nvKick s)

/-- Queue a write made on the device's own account; block protect level 3 drops it (R397). -/
def nvOwn (s : State) (k : NvKind) (custody : Bool) (src : Nat) (cont : NvCont) : State :=
  (nvSubmit s k custody true src cont).2

-- Records made of register words -----------------------------------------------------------------

/-- The words of registers as record bytes, little-endian, in the order given. -/
def wordsBytes (s : State) (offs : List Nat) : List Byte := offs.flatMap fun o => leBytes 4 (s.getW o).toNat

/-- The state with registers loaded from record bytes, in the order given. -/
def loadWords (s : State) : List Nat → List Byte → State
  | [], _ => s
  | o :: os, bs => loadWords (s.setW o (BitVec.ofNat 32 (leNat (bs.take 4)))) os (bs.drop 4)

-- The event log (R404) ---------------------------------------------------------------------------

/-- One event-log entry (Table 11.9). -/
def logEntry (lseq rtc src code flags : Nat) (data : List Byte) : List Byte :=
  let b := leBytes 4 lseq ++ leBytes 4 rtc ++ [byte src, byte code, byte flags, 0#8] ++ fit 16 data
  b ++ leBytes 4 (crc32 b)

/-- Append one entry to the event log: an ordinary write on the device's own account. -/
def logAppend1 (s : State) (src code flags : Nat) (data : List Byte) : State :=
  let q := s.nv.lseq
  let s := { s with nv := { s.nv with lseq := (q + 1) % 2 ^ 32 } }
  nvOwn s (.raw (32 * (q % 4096)) (logEntry q s.rtcSec src code flags data)) false 15 .none

/-- Append a record to the event log, in consecutive entries of 16 bytes, every one after the first carrying CONT. -/
def logAppend (s : State) (src code : Nat) (data : List Byte) : State :=
  (List.range (max 1 ((data.length + 15) / 16))).foldl
    (fun s i => logAppend1 s src code (if i = 0 then 0 else 1) (data.drop (16 * i) |>.take 16)) s

end Sys2Proof.Machine
end

