-- ==== Sys2Proof/Machine/Frames.lean ====
section
/-! DEFINITION. Frames as bytes (Table 12.2, R411), the ports and sub-ports of Table 12.1, the frame types of Table
12.3, and the status codes of Table 14.9. -/

namespace Sys2Proof.Machine

-- Status codes (Table 14.9) -----------------------------------------------------------------------

namespace St

abbrev ok := 0x00
abbrev mcPartial := 0x01
abbrev portDown := 0x02
abbrev staleDiscard := 0x03
abbrev timeout := 0x04
abbrev cfgReject := 0x05
abbrev badDescriptor := 0x06
abbrev dmaError := 0x08
abbrev authFail := 0x10
abbrev nonceExhausted := 0x11
abbrev keyUnavailable := 0x12
abbrev lengthLimit := 0x13
abbrev keyUsage := 0x14
abbrev ctxStale := 0x15
abbrev rngFatal := 0x18
abbrev txNolock := 0x20
abbrev regLimit := 0x21
abbrev dutyDeferred := 0x22
abbrev rangeInconsistent := 0x28
abbrev rangeInconclusive := 0x29
abbrev fieldLost := 0x30
abbrev tagNotSecured := 0x31
abbrev tagNoResponse := 0x32
abbrev tearSuspect := 0x33
abbrev tagRefused := 0x34
abbrev linkError := 0x35
abbrev censusUnresolved := 0x36
abbrev nvProtected := 0x38
abbrev nvTorn := 0x39
abbrev nvBusyField := 0x3A
abbrev nvNoRecord := 0x3B
abbrev dirFull := 0x3C
abbrev dirNotFound := 0x3D
abbrev dirExists := 0x3E
abbrev dirChanged := 0x3F
abbrev policyDeny := 0x40
abbrev creditExhausted := 0x41
abbrev tokenReplay := 0x42
abbrev releaseFbFault := 0x43
abbrev tokenInvalid := 0x44
abbrev tokenWindow := 0x45
abbrev internalFault := 0x7F

end St

-- The header (Table 12.2) -------------------------------------------------------------------------

/-- Header bytes 0 to 13 of a frame. -/
def hdr14 (f : Frame) : List Byte :=
  leBytes 2 (16 + f.payload.length) ++
  [byte f.typ,
   byte (f.cls % 4 + 4 * b2n f.cm + 8 * b2n f.mc + 16 * b2n f.revChk),
   byte (f.dport % 16 + 16 * (f.sport % 16)), byte f.dsub, byte f.ssub,
   byte (f.dev % 64 + 64 * b2n f.dir)] ++
  leBytes 2 f.seq ++ [byte f.epoch, byte f.mgrp] ++ leBytes 2 f.optag

/-- A frame as bytes, FH_LEN and FH_HCRC computed (R411). -/
def frameBytes (f : Frame) : List Byte :=
  let h := hdr14 f
  h ++ leBytes 2 (crc16 h) ++ f.payload

/-- A Cloade or radio frame as it goes on the air: its bytes, then their CRC-16, most significant byte first (R151, R152). -/
def airFrame (bs : List Byte) : List Byte := bs ++ beBytes 2 (crc16 bs)

/-- The bytes of a frame taken from the air, its CRC checked and removed; none when it fails (R153). -/
def airBody (bs : List Byte) : Option (List Byte) :=
  let n := bs.length - 2
  if 3 ≤ bs.length ∧ beNat (bs.drop n) = crc16 (bs.take n) then some (bs.take n) else none

/-- FH_HCRC holds and FH_LEN is the number of bytes delivered (Table 12.4, check 1). -/
def hdrOk (bs : List Byte) : Bool :=
  decide (16 ≤ bs.length) && leAt bs 14 2 == crc16 (bs.take 14) && leAt bs 0 2 == bs.length

/-- The reserved header bits are 0 (Table 12.4, check 3). -/
def hdrRsvOk (bs : List Byte) : Bool := natBits (leAt bs 3 1) 7 5 == 0 && natBits (leAt bs 7 1) 7 7 == 0

/-- The fields of a frame's bytes. -/
def frameOf (bs : List Byte) : Frame :=
  let b := fun i => leAt bs i 1
  { typ := b 2, cls := natBits (b 3) 1 0, cm := (b 3).testBit 2, mc := (b 3).testBit 3, revChk := (b 3).testBit 4
    dport := natBits (b 4) 3 0, sport := natBits (b 4) 7 4, dsub := b 5, ssub := b 6
    dev := natBits (b 7) 5 0, dir := (b 7).testBit 6, seq := leAt bs 8 2, epoch := b 10, mgrp := b 11
    optag := leAt bs 12 2, payload := bs.drop 16, dirIdx := none }

/-- Cells a frame occupies in the pool (R416). -/
def frameCells (f : Frame) : Nat := (16 + f.payload.length + 255) / 256

/-- Where a frame's completion goes (R412). -/
def frameReq (f : Frame) : Req := ⟨f.sport, f.ssub, f.dev, f.cls, f.optag, f.mc⟩

/-- A plain unicast frame of this device, before ingress stamps it. -/
def mkFrame (typ cls dport dsub dev optag : Nat) (payload : List Byte) : Frame :=
  { typ, cls, cm := false, mc := false, revChk := false, dport, sport := 0, dsub, ssub := 0, dev, dir := false
    seq := 0, epoch := 0, mgrp := 0, optag, payload, dirIdx := none }

-- Ports and sub-ports (Table 12.1) ----------------------------------------------------------------

/-- The management sub-ports of P15 (R17). -/
def p15Subs : List Nat := [0, 1, 4, 6, 8, 12, 14, 16, 18, 20, 22, 24, 26, 28, 30, 32, 34, 36, 38, 40, 42]

/-- Table 12.1 lists the port and sub-port (R410). -/
def subListed (p k : Nat) : Bool :=
  if p = 0 then decide (k < 8) || k == 0xFE || k == 0xFF
  else if p ≤ 5 then decide (k < 8)
  else if p = 6 then decide (k < 2)
  else if p = 7 then k == 0
  else if p = 8 then decide (k < 16)
  else if p = 9 ∨ p = 10 then decide (k < 256)
  else if p = 11 then decide (k < 2)
  else if p = 12 then decide (k < 16)
  else if p = 13 then decide (k < 6) || k == 0xFF
  else if p = 14 then decide (k < 2)
  else p == 15 && p15Subs.contains k

/-- The block behind a port and sub-port, by its management sub-port (Table 12.1, R17); 0 for host and firmware, which
cannot be stopped (R522). -/
def blockOfPort (p k : Nat) : Nat :=
  if p = 0 ∧ k = 0xFE then 18 else if p ≤ 5 then 16
  else if p = 6 then (if k = 0 then 20 else 22)
  else if p = 7 then 14
  else if p = 9 ∨ p = 10 then 36
  else if p = 11 then 38
  else if p = 13 then 24
  else if p = 14 then (if k = 0 then 32 else 34)
  else if p = 15 then k
  else 0

/-- The frame type, a completion standing for its request's type. -/
def baseType (t : Nat) : Nat := if 0x80 ≤ t ∧ t < 0xF0 then t - 0x80 else t

/-- FH_TYPE is reserved (Table 12.3) or is the switch's own 0xFF. -/
def typeReserved (t : Nat) : Bool :=
  let b := baseType t
  b == 0 || (decide (0x0D ≤ b) && decide (b ≤ 0x0F)) || (decide (0x11 ≤ b) && decide (b ≤ 0x1F))
    || (decide (0x70 ≤ b) && decide (b ≤ 0x7F)) || decide (0xF0 ≤ b)

end Sys2Proof.Machine
end

