-- ==== Sys2Proof/Machine/KeepRam.lean ====
section
/-! DEFINITION. Keep RAM (Table 11.5): the 4 KiB keep set, the places of the values in it, and its image for a save. The
layout inside an owner's range is the model's own (log entry 10), but for the lifetime discharge pulses at 0x000. -/

namespace Sys2Proof.Machine

/-- `n` bytes of keep RAM as a number. -/
def kGet (s : State) (ofs n : Nat) : Nat := leNat (memRead s.keep ofs n)

/-- Note a write to keep RAM: KEEP_DIRTY (R653). -/
def keepTouch (s : State) : State := { s with led := { s.led with touched := true } }.set F.pmStat_keepDirty 1

/-- Write bytes into keep RAM. -/
def kPutBytes (s : State) (ofs : Nat) (bs : List Byte) : State := keepTouch { s with keep := memWrite s.keep ofs bs }

/-- Write a number of `n` bytes into keep RAM. -/
def kPut (s : State) (ofs n v : Nat) : State := kPutBytes s ofs (leBytes n v)

/-- The registers whose values live in the keep set, with their places: ledger, CPH_BOOT, PRX_SWEEPID, the NV store's abandon records
and scrub position, and the VIO counters. -/
def keepRegs : List (Nat × Nat) :=
  [(0x000, W.ledDpulseLo), (0x004, W.ledDpulseHi), (0x008, W.ledCpulseLo), (0x00C, W.ledCpulseHi),
   (0x020, W.ledCredit), (0x024, W.ledGrace), (0x028, W.ledLease), (0x02C, W.ledWstart), (0x030, W.ledWend),
   (0x034, W.ledLeasewh), (0x038, W.ledSeqLo), (0x03C, W.ledSeqHi), (0x040, W.ledKseq), (0x044, W.ledCtrl),
   (0x120, W.cphBoot), (0x130, W.prxSweepid), (0x1E0, W.nvAbcnt), (0x1E4, W.nvScrubpos),
   (0xA00, W.vioStsctr), (0xA04, W.vioReqctr)]
  ++ (List.range 8).map fun i => (0x1C0 + 4 * i, W.nvAbandon i)

/-- Places of the values without a register: the remainders and life_wh (R68), whether a lease is open, how many closing
statements were written (R95), the RTC of the
save (R86), the meter counts that the counters hold already (R67), the effect of a POLICY token not yet in its record (R84), the
force causes (R31) and the save serial (R336). -/
abbrev K.accD : Nat := 0x010
abbrev K.accC : Nat := 0x014
abbrev K.life : Nat := 0x018
abbrev K.open_ : Nat := 0x048
abbrev K.stmt : Nat := 0x050
abbrev K.time : Nat := 0x04C
abbrev K.takenD : Nat := 0x054
abbrev K.takenC : Nat := 0x058
abbrev K.policy : Nat := 0x060
abbrev K.tamper : Nat := 0x100
abbrev K.decom : Nat := 0x101
abbrev K.tampIn : Nat := 0x102
abbrev K.serial : Nat := 0x128
abbrev K.duty (e : Nat) : Nat := 0x140 + 8 * e
abbrev K.scrubbing : Nat := 0x1E8
abbrev K.nonce (c : Nat) : Nat := 0x200 + 16 * c

/-- The 72 bytes for a POLICY token's effect: slot plus 1, the SEQ of record 0x0002 before it, the slot image; zeros for none. -/
def policyBytes (p : Option (Nat × Nat × List Byte)) : List Byte :=
  match p with
  | none => zeros 72
  | some (n, q, img) => fit 72 ([byte (n + 1), 0#8, 0#8, 0#8] ++ leBytes 4 q ++ img)

/-- Keep RAM with the registers' values in place and the RTC of the save. -/
def keepSynced (s : State) : List Host.Cell :=
  let m := keepRegs.foldl (fun m r => memWrite m r.1 (leBytes 4 (s.getW r.2).toNat)) s.keep
  let m := memWrite m K.open_ [byte (s.get F.ledStat_open)]
  let m := memWrite (memWrite m K.takenD (leBytes 4 s.led.takenD)) K.takenC (leBytes 4 s.led.takenC)
  let m := memWrite m K.scrubbing [byte (s.get F.nvStat_scrubbing)]
  memWrite (memWrite m K.policy (policyBytes s.led.policy)) K.time (leBytes 4 s.rtcSec)

/-- The 4,096 bytes of the keep set. -/
def keepBytes (s : State) : List Byte := memRead (keepSynced s) 0 4096

/-- The state with the keep set restored (R91): a scrub pass resumes where it stopped, with WEAK at its reset value (R402, R409). -/
def keepLoad (s : State) (bs : List Byte) : State :=
  let s := { s with keep := memWrite [] 0 bs }
  let s := keepRegs.foldl (fun s r => s.setW r.2 (BitVec.ofNat 32 (kGet s r.1 4))) s
  let s := (s.set F.nvStat_scrubbing (kGet s K.scrubbing 1)).set F.nvScrubpos_weak 0
  s.set F.ledStat_open (kGet s K.open_ 1)

end Sys2Proof.Machine
end

