-- ==== Sys2Proof/Machine/SadTerms.lean ====
section
/-! DEFINITION. What Saddle judges a release by (02_release_gate.md): the active context and slot (R48, R49), the
policy slots as they read (Table 2.5), the vehicle condition (R36, R37), the LIVE terms of Table 2.4 and the freshness of
the AGED ones (R43, R46). -/

namespace Sys2Proof.Machine

-- Directory entries, as far as terms read them ------------------------------------------------------

/-- Directory entry `i`, 64 bytes (R464). -/
def dirEntry (s : State) (i : Nat) : List Byte := (sget s.dir.entries i).getD (zeros 64)

/-- The entry's VALID flag, and whether it is VALID and neither REVOKED nor RETIRED (R465, R466). -/
def entValid (e : List Byte) : Bool := (leAt e 8 1).testBit 0
def entLive (e : List Byte) : Bool := natBits (leAt e 8 1) 2 0 == 1

/-- The index of the VALID entry with a UID. -/
def dirFind (s : State) (uid : List Byte) : Option Nat :=
  (s.dir.entries.find? fun x => entValid x.2 && x.2.take 8 == uid).map fun x => x.1

/-- The usable entry with a UID (R465). -/
def dirUsable (s : State) (uid : List Byte) : Option (List Byte) :=
  (s.dir.entries.find? fun x => entLive x.2 && x.2.take 8 == uid).map fun x => x.2

-- Slots and contexts --------------------------------------------------------------------------------

/-- The bits of slot word `k` that hold a field of Table 2.5; the others are RSV and read 0 (R11, R53). -/
def slotMask (k : Nat) : W32 :=
  if k = 0 then 0xFFFFFF07#32 else if k = 1 then 0xFFFF#32 else if k < 8 then 0xFFFFFFFF#32
  else if k = 8 then 0xFFFF003F#32 else if k = 9 then 0x07FF07FF#32 else 0#32

/-- Policy slot word `k` of slot `n` as it reads: ARM_TIMEOUT 0 reads as 1, and the mandatory bits of the masks as
Table 2.5 gives them. -/
def slotWord (s : State) (n k : Nat) : W32 :=
  let w := s.getW (W.sadPslotW0 n + 4 * k) &&& slotMask k
  if k = 0 then wPut (if wBits w 15 8 = 0 then wPut w 15 8 1 else w) 26 23 15
  else if k = 1 then wPut (wPut (wPut (wPut w 7 7 1) 8 8 0) 10 9 3) 13 13 0
  else w

/-- The ten words of a slot. -/
def slotWords (s : State) (n : Nat) : List W32 := (List.range 10).map (slotWord s n)

/-- The active context (R48). -/
def sadCtx (s : State) : Nat :=
  if s.on F.sadCtrl_ctxSrc && s.sad.vehSeen then s.sad.vehCtx else s.get F.sadCtx_ctx

/-- The active slot: the lowest enabled one of the active context (R49). -/
def sadActive (s : State) : Option Nat :=
  (List.range 8).find? fun n => wBits (slotWord s n 0) 0 0 == 1 && wBits (slotWord s n 0) 2 1 == sadCtx s

/-- Saddle's state code (Table 2.1). -/
def sadState (s : State) : Nat := s.get F.sadStat_state

abbrev SS.locked := 0
abbrev SS.arming := 1
abbrev SS.released := 2
abbrev SS.holding := 3
abbrev SS.forced := 4

/-- The slot in force (R50), and outside ARMING, RELEASED and HOLDING the active one. -/
def sadSlot (s : State) : Option Nat :=
  let st := sadState s
  if st == SS.arming || st == SS.released || st == SS.holding then some s.sad.slot else sadActive s

/-- The words Saddle judges by: those the slot held on entry to ARMING while it is in force. -/
def sadWords (s : State) : List W32 :=
  let st := sadState s
  if st == SS.arming || st == SS.released || st == SS.holding then s.sad.words
  else match sadActive s with
    | some n => slotWords s n
    | none => []

/-- Bits of word `k` of the judged slot. -/
def sw (ws : List W32) (k hi lo : Nat) : Nat := wBits (ws.getD k 0#32) hi lo

abbrev slReq (ws : List W32) : Nat := sw ws 0 31 16
abbrev slHold (ws : List W32) : Nat := sw ws 1 15 0
abbrev slArm (ws : List W32) : Nat := min 100 (sw ws 0 15 8)
abbrev slCoils (ws : List W32) : Nat := sw ws 2 31 0 + 2 ^ 32 * sw ws 3 15 0

/-- The AGED terms. -/
def agedTerms : List Nat := [0, 1, 2, 3, 4, 12]
def isAged (k : Nat) : Bool := agedTerms.contains k

/-- The maximum age of an AGED term, in µs (Table 2.5). -/
def slMaxAge (ws : List W32) (k : Nat) : Nat :=
  1000 * (if k = 0 ∨ k = 3 then sw ws 4 15 0 else if k = 1 then sw ws 4 31 16 else if k = 2 then sw ws 5 31 16
    else if k = 4 then 1000 * sw ws 6 15 0 else sw ws 8 31 16)

-- The vehicle -----------------------------------------------------------------------------------------

/-- VEH_STALE as it reads: 0 reads as 1. -/
def vehStaleLimit (s : State) : Nat := max 1 (s.get F.sadCtrl_vehStale)

/-- The vehicle status is fresh (R36). -/
def vehFresh (s : State) : Bool :=
  s.sad.vehSeen && !s.sad.vehStale && decide (s.now < s.sad.vehAt + 10000 * vehStaleLimit s)

/-- The vehicle counts as parked (R36, R37). -/
def sadParked (s : State) : Bool := !s.on F.sadCtrl_vehEn || (vehFresh s && s.sad.vehPark)

-- LIVE terms (Table 2.4) ----------------------------------------------------------------------------------

/-- Term 7: no tamper input active and the latch clear. -/
def tamperClear (s : State) : Bool :=
  (s.get F.secTamp_level &&& s.get F.secTampcfg_en) == 0 && s.get F.secTamp_latch == 0

/-- Signed Wh. -/
def wh (w : W32) : Int := w.toInt

/-- Term 14: the RTC's minute of day lies in the window; it ends as minute END
begins (log entry 11); END < START spans midnight, END = START is all day. -/
def inWindow (s : State) (ws : List W32) : Bool :=
  let m := s.rtcSec / 60 % 1440
  let a := sw ws 9 10 0
  let b := sw ws 9 26 16
  if a = b then true else if a < b then decide (a ≤ m) && decide (m < b) else decide (a ≤ m) || decide (m < b)

/-- The LIVE terms of Table 2.4. -/
def liveTerm (s : State) (ws : List W32) (k : Nat) : Bool :=
  if k = 5 then
    let (avail, ex) := s.led.gate.getD (s.getW W.ledAvail, s.on F.ledStat_exhausted)
    decide ((sw ws 7 31 0 : Int) ≤ wh avail) && !ex
  else if k = 6 then decide (s.get F.ledWstart_leaseStart ≤ s.rtcSec) && decide (s.rtcSec ≤ s.get F.ledWend_leaseEnd)
  else if k = 7 then tamperClear s
  else if k = 8 then s.on F.pmStat_holdReady
  else if k = 9 then s.get F.secStat_lc == 2
  else if k = 10 then !s.on F.rngStat_fatal
  else if k = 11 then sadParked s
  else if k = 13 then !s.on F.sadStat_fbClosed
  else if k = 14 then inWindow s ws
  else s.on F.sadCtrl_hostEn

-- AGED terms --------------------------------------------------------------------------------------------------

/-- The fresh result of an AGED term, `none` when it is stale (R43, R55). -/
def agedFresh0 (s : State) (ws : List W32) (k : Nat) : Option SadRes :=
  (sget s.sad.res k).bind fun r =>
    if r.expired || decide (r.at_ + slMaxAge ws k < s.now) then none else some r

/-- The key that satisfied term 0 (R46). -/
def t0Key (s : State) : List Byte := ((sget s.sad.res 0).map fun r => r.key).getD []

/-- As `agedFresh0`; term 1 counts only for the term-0 key, term 3 only for another (R43, R46). -/
def agedFresh (s : State) (ws : List W32) (k : Nat) : Option SadRes :=
  (agedFresh0 s ws k).bind fun r =>
    if (k == 1 && r.key != t0Key s) || (k == 3 && r.val && r.key == t0Key s) then none else some r

/-- Term k is true and, if AGED, fresh (SAD_TERMS.TRUE). -/
def termTrue (s : State) (ws : List W32) (k : Nat) : Bool :=
  if isAged k then ((agedFresh s ws k).map fun r => r.val).getD false else liveTerm s ws k

/-- A mask of terms from a predicate. -/
def termMask (p : Nat → Bool) : Nat := ((List.range 16).filter p).foldl setBit 0

/-- A term request is pending. -/
def termPending (s : State) (k : Nat) : Bool := (sget s.sad.pend k).isSome

-- Reads (Tables 2.8 to 2.10) -----------------------------------------------------------------------------------

/-- SAD_STAT.VEH. -/
def sadVeh (s : State) : Nat :=
  if !s.on F.sadCtrl_vehEn then 0 else if !vehFresh s then 3 else if s.sad.vehPark then 1 else 2

def viewSad (s : State) (off : Nat) : Option W32 :=
  let w := s.getW off
  if off = W.sadCtrl then some (wPut w 15 8 (vehStaleLimit s))
  else if off = W.sadStat then
    let w := wPut (wPut w 7 7 (b2n (s.stops.stopped.contains 32))) 10 8 ((sadSlot s).getD 0)
    some (wPut (wPut (wPut w 11 11 (b2n (sadSlot s).isSome)) 13 12 (sadCtx s)) 15 14 (sadVeh s))
  else if off = W.sadTerms then
    let ws := sadWords s
    some (BitVec.ofNat 32 (termMask (termTrue s ws) + 2 ^ 16 * termMask (termPending s)))
  else if off = W.sadPulse then some (wPut w 5 0 (max 2 (min 50 (wBits w 5 0))))
  else if off = W.sadFb then
    some (wPut (wPut w 12 8 (max 1 (min 20 (wBits w 12 8)))) 20 16 (max 1 (min 20 (wBits w 20 16))))
  else if W.sadAge 0 ≤ off ∧ off < W.sadAge 16 then
    let k := (off - W.sadAge 0) / 4
    if !isAged k then some 0#32
    else match sget s.sad.res k with
      | none => some 0xFFFFFFFF#32
      | some r => some (BitVec.ofNat 32 (min 0xFFFFFFFF ((s.now - r.at_) / 1000)))
  else if W.sadPslotW0 0 ≤ off ∧ off < W.sadPslotW0 8 then
    let n := (off - W.sadPslotW0 0) / 0x40
    let k := (off - W.sadPslotW0 0) % 0x40 / 4
    some (slotWord s n k)
  else none

end Sys2Proof.Machine
end

