-- ==== Sys2Proof/Machine/View.lean ====
section
/-! DEFINITION. What a register read returns: the stored word, or for the fields that report a block's inner state the
value computed from it. Reading changes nothing here; the reads that do (RNG_DATA, RNG_RAW, SNP_STAT) are in their own
commands. -/

namespace Sys2Proof.Machine

-- Small readings other operations share ----------------------------------------------------------

/-- This device's cascade ID (R533). -/
def thisDev (s : State) : Nat := s.get F.idDevnum_devid

/-- A port is down (R442). -/
def portDown (s : State) (p : Nat) : Bool := s.on (F.swPStat_down p)

/-- A sub-port is down, or its port is. -/
def subDown (s : State) (p k : Nat) : Bool :=
  portDown s p || (decide (k < 32) && bitOf (s.get (F.swPSdown_sub p)) k)

/-- RF_TSTAMP: the microsecond counter (R794). -/
def rfTstamp (s : State) : Nat := s.now % 2 ^ 32

-- Frame switch (Tables 12.9, 12.10) ---------------------------------------------------------------

/-- The quota of a class as it reads: below 256 reads as 256. -/
def swQuota (s : State) (p c : Nat) : Nat :=
  max 256 (s.get (if c = 0 then F.swPQ01_q0 p else if c = 1 then F.swPQ01_q1 p
    else if c = 2 then F.swPQ23_q2 p else F.swPQ23_q3 p))

/-- MARK as it reads: above Q0 reads as Q0 (R425). -/
def swMark (s : State) (p : Nat) : Nat := min (s.get (F.swPC0cfg_mark p)) (swQuota s p 0)

/-- Cut-through classes of a port: 0 for P13. -/
def swCt (s : State) (p : Nat) : Nat := if p = 13 then 0 else s.get (F.swPCtrl_ct p)

/-- Cells of a class held or reserved at an output port (R423). -/
def swOcc (s : State) (p c : Nat) : Nat :=
  ((s.sw.frames.filter fun x => x.outPort == p && x.frame.cls == c && x.admitted).map fun x => frameCells x.frame).foldl (· + ·) 0

/-- Cells of the frame pool in use. -/
def swCells (s : State) : Nat :=
  ((s.sw.frames.filter fun x => x.admitted).map fun x => frameCells x.frame).foldl (· + ·) 0

/-- The frame pool's size in cells: 4,096 to the MiB of its partition (R416, Table 13.1). -/
def poolCells (s : State) : Nat := 4096 * s.bsn.size.getD 0 0

def viewSw (s : State) (off : Nat) : Option W32 :=
  let w := s.getW off
  if off = W.swStat then
    some (wPut (wPut w 0 0 (b2n (isStopped s 12))) 25 8 (poolCells s - swCells s))
  else if 0x3100 ≤ off then
    let p := (off - 0x3100) / 0x40
    let r := (off - 0x3100) % 0x40
    if p < 16 then
      if r = 0x00 then some (wPut w 4 1 (swCt s p))
      else if r = 0x04 then some (wPut (wPut w 15 0 (swQuota s p 0)) 31 16 (swQuota s p 1))
      else if r = 0x08 then some (wPut (wPut w 15 0 (swQuota s p 2)) 31 16 (swQuota s p 3))
      else if r = 0x0C then some (wPut w 15 0 (swMark s p))
      else if r = 0x18 then some (wPut (wPut w 15 0 (min 65535 (swOcc s p 0))) 31 16 (min 65535 (swOcc s p 1)))
      else if r = 0x1C then some (wPut (wPut w 15 0 (min 65535 (swOcc s p 2))) 31 16 (min 65535 (swOcc s p 3)))
      else none
    else none
  else none

-- Events and arbiter (Tables 20.6, 20.7) ----------------------------------------------------------

/-- The register field of flag `b` of source `e` (Table 20.1). -/
def evField (e b : Nat) : Fd :=
  let at_ := fun (o i : Nat) => (⟨o, i, i⟩ : Fd)
  if e < 48 then at_ (W.coilChEvf e) b
  else if e < 54 then at_ (W.coilGrpEvf (e - 48)) b
  else if e < 70 then
    if e = 61 ∧ 9 ≤ b then at_ W.bsnEvf (b - 9)
    else if e = 69 ∧ 9 ≤ b then at_ W.dirEvf (b - 9)
    else at_ (W.swPEvf (e - 54)) b
  else if e < 76 then at_ (W.cphCcEvf (e - 70)) b
  else if e = 76 then at_ W.cphEvf0 b
  else if e = 77 then at_ W.cphEvf1 b
  else if e < 82 then at_ W.rngEvf (e - 78)
  else if e < 86 then at_ W.nvEvf (e - 82)
  else if e < 92 then at_ W.rfEvf (e - 86)
  else if e < 94 then at_ W.prxEvf (e - 92)
  else if e < 100 then at_ W.sadEvf (e - 94)
  else if e < 104 then at_ W.ledEvf (e - 100)
  else if e < 108 then at_ W.hrEvf (e - 104)
  else if e < 112 then at_ W.plEvf (e - 108)
  else if e < 114 then at_ (W.vioCanEvf (e - 112)) b
  else if e = 114 then at_ W.vioEpdevf b
  else if e = 115 then at_ W.vioEpcevf b
  else if e < 120 then at_ (W.vioTampevf (e - 116)) b
  else if e < 122 then at_ W.ptEvf (e - 120)
  else if e = 122 then (if b < 4 then at_ W.pmEvf b else at_ W.clkEvf (b - 4))
  else if e = 123 then at_ W.pmWevf b
  else if e = 124 then at_ W.snpEvf b
  else if e = 125 then at_ W.ivcEvf b
  else if e = 126 then at_ W.evRtcevf b
  else at_ W.evTmrevf b

/-- How many flags a source has (Table 20.1). -/
def evBits (e : Nat) : Nat :=
  if e < 54 then 4
  else if e < 70 then (if e = 61 then 12 else if e = 69 then 13 else 9)
  else if e < 78 then 3
  else if e < 112 then 1
  else if e < 114 then 6
  else if e < 116 then 4
  else if e < 120 then 2
  else if e < 122 then 1
  else if e = 122 then 7
  else if e = 123 then 4
  else if e = 125 then 3
  else 2

/-- The flag word of a source (R680). -/
def evWord (s : State) (e : Nat) : Nat :=
  (List.range (evBits e)).foldl (fun a b => a + (if s.on (evField e b) then 2 ^ b else 0)) 0

/-- An occurrence counter (R681): key 16·e + b for a flag, 4096 + e for a source. -/
def evOcc (s : State) (key : Nat) : Nat := (sget s.ev.occ key).getD 0

/-- Ivler interrupt `e` is pending (R684). -/
def evPending (s : State) (e : Nat) : Bool :=
  s.get (F.evSrc_level e) != 0 && (evWord s e &&& s.get (F.evSrc_fmask e)) != 0

/-- Units of the coil pool granted (R698). -/
def arbHeld (s : State) : Nat := (s.ev.grants.map fun g => g.units).foldl (· + ·) 0

/-- Units of the system pool held: 110 while SYSPLL runs, and the radio's grant (R701). -/
def arbSys (s : State) : Nat := (if s.on F.clkStat_pllLock then 110 else 0) + s.ev.sysHeld

/-- The budgets as they read (R697). -/
def coilBudget (s : State) : Nat := min 1200 (s.get F.arbCoilbud_budget)
def sysBudget (s : State) : Nat := max 130 (min 300 (s.get F.arbSysbud_budget))

def viewEv (s : State) (off : Nat) : Option W32 :=
  let w := s.getW off
  if off < 0x1200 then
    let e := (off - 0x1000) / 4
    some (wPut w 21 21 (b2n (e == 80 || (decide (116 ≤ e) && decide (e ≤ 119)) || e == 122)))
  else if off = W.evOcc then
    let e := s.get F.evOccidx_src
    some (wPut (wPut w 7 0 (evOcc s (4096 + e))) 15 8 (evOcc s (16 * e + s.get F.evOccidx_flag)))
  else if 0x1220 ≤ off ∧ off < 0x1230 then
    let n := (off - 0x1220) / 4
    some (BitVec.ofNat 32 ((List.range 32).foldl (fun a k => a + (if evPending s (32 * n + k) then 2 ^ k else 0)) 0))
  else none

def viewSnp (s : State) (off : Nat) : Option W32 :=
  let w := s.getW off
  if off = W.arbCoilbud then some (wPut w 10 0 (coilBudget s))
  else if off = W.arbSysbud then some (wPut w 8 0 (sysBudget s))
  else if off = W.arbCoilstat then some (wPut (wPut w 10 0 (arbHeld s)) 26 16 s.ev.resvC0)
  else if off = W.arbSysstat then some (wPut w 8 0 (arbSys s))
  else none

-- Host interface (Tables 14.10, 14.11) -------------------------------------------------------------

/-- A ring's SIZE as it is used: 4 to 12 (R499). -/
def ringSize (x : Nat) : Nat := max 4 (min 12 x)

def sqEntries (s : State) (n : Nat) : Nat := 2 ^ ringSize (s.get (F.hrSqCfg_size n))
def cqEntries (s : State) (n : Nat) : Nat := 2 ^ ringSize (s.get (F.hrCqCfg_size n))
def eqEntries (s : State) : Nat := 2 ^ ringSize (s.get F.hrEqCfg_size)

/-- The feature bits offered (Table 14.3). -/
def featDev (s : State) : Nat :=
  1 + (if s.hst.qspi then 0 else 2) + 4 + 8 + 16 + 32
    + (if s.get F.plCtrl_role == 1 && s.on F.plStat_ringOk then 64 else 0)
    + (if s.getW W.ivcFwext != 0#32 then 128 else 0) + 256

/-- A feature the driver has chosen, with the choice accepted (R498). -/
def featOn (s : State) (bit : Nat) : Bool := s.on F.idDrvstat_featuresOk && bitOf (s.get (F.idFeatDrv_bits 0)) bit

/-- A base with its low bits reading 0 (R499). -/
def alignDown (x a : Nat) : Nat := x / a * a

def viewHost (s : State) (off : Nat) : Option W32 :=
  let w := s.getW off
  if off = W.idDevnum then some (wPut w 7 7 (b2n s.hst.qspi))
  else if off = W.idFeatDev 0 then some (BitVec.ofNat 32 (featDev s))
  else if off = W.hrStat then some (wPut w 6 0 (s.hst.slots.filter fun x => x.busy).length)
  else if off = W.hrEqBaseLo then some (BitVec.ofNat 32 (alignDown w.toNat 16))
  else if off = W.hrEqCfg then some (wPut w 3 0 (ringSize (wBits w 3 0)))
  else if off = W.hrEqStat then some (wPut w 31 31 (b2n (!s.ev.held.isEmpty)))
  else if 0x500 ≤ off ∧ off < 0x900 then
    let n := (off - 0x500) / 0x40
    let r := (off - 0x500) % 0x40
    if r = 0x00 then some (BitVec.ofNat 32 (alignDown w.toNat 64))
    else if r = 0x10 then some (BitVec.ofNat 32 (alignDown w.toNat 32))
    else if r = 0x08 ∨ r = 0x18 then some (wPut w 3 0 (ringSize (wBits w 3 0)))
    else if r = 0x1C then some (wPut w 28 28 (b2n (decide (cqEntries s n ≤ (s.hst.cqRecs.getD n []).length))))
    else none
  else none

-- NV store (Table 11.10) ---------------------------------------------------------------------------

def viewNv (s : State) (off : Nat) : Option W32 :=
  let w := s.getW off
  if off = W.nvCtrl then some (wPut w 15 8 (max 1 (wBits w 15 8)))
  else if off = W.nvStat then
    let w := wPut (wPut w 1 1 (b2n s.nv.cur.isSome)) 2 2 (b2n (isStopped s 28))
    some (wPut (wPut w 4 4 (b2n (s.get F.nvProt_bp == 3))) 15 8 (min 255 (s.nv.cust.length + s.nv.ord.length)))
  else if off = W.nvTorncnt then some (wPut w 13 0 s.nv.torn.length)
  else if off = W.nvTornpg then
    some (wPut w 12 0 (s.nv.torn.getD (s.get F.nvTornidx_idx) 0))
  else none

-- Basin and the directory (Tables 13.4, 13.5) ------------------------------------------------------

/-- The base in MiB of a partition in force (R452). -/
def partBase (s : State) (n : Nat) : Nat := (s.bsn.size.take n).foldl (· + ·) 0

/-- The size in bytes of the capture pool. -/
def capSize (s : State) : Nat := 0x100000 * s.bsn.size.getD 1 0

/-- Bytes the unread capture records occupy. -/
def capUsed (s : State) : Nat := (s.bsn.cap.map fun r => r.size).foldl (· + ·) 0

/-- Members of a group (R466). -/
def grpCount (s : State) (g : Nat) : Nat :=
  (s.dir.entries.filter fun x => entLive x.2 && leAt x.2 11 1 == g).length

def viewBsn (s : State) (off : Nat) : Option W32 :=
  let w := s.getW off
  if off = W.bsnStat then some (wPut w 2 2 (b2n (isStopped s 14)))
  else if 0x3810 ≤ off ∧ off < 0x3824 then some (wPut w 21 16 (partBase s ((off - 0x3810) / 4)))
  else if off = W.bsnFree then some (wPut w 17 0 (poolCells s - swCells s))
  else if off = W.bsnCapfree then some (wPut w 24 0 (capSize s - capUsed s))
  else if off = W.bsnCapstat then some (wPut w 15 0 (min 65535 s.bsn.cap.length))
  else if off = W.dirStat then
    some (wPut (wPut w 1 1 (b2n (isStopped s 14))) 29 16 (s.dir.entries.filter fun x => entValid x.2).length)
  else if off = W.dirGrpcnt then some (wPut w 13 0 (grpCount s (s.get F.dirGrpidx_group)))
  else none

-- Random number unit (Table 10.3) and nonce counters (Table 9.7) ------------------------------------

/-- Instance `i` can deliver (R353, R359). -/
def rngCan (s : State) (i : Nat) : Bool :=
  bitOf (s.get F.rngStat_seeded) i && s.rng.passed.all id && !((s.rng.insts.getD i ⟨[], [], 0, false⟩).reseeding)

/-- A read of RNG_DATA by the host or by firmware would not stall (Table 10.3): it has its bits, ends at once under the fatal
alarm (R361), or is the host's in QSPI mode (R367). -/
def rngReady (s : State) (host : Bool) : Bool :=
  s.on F.rngStat_fatal || (host && s.hst.qspi) || rngCan s (if host then 5 else 4)

/-- The source the next raw word comes from (R369): both alternate, a source out of service or empty is skipped. -/
def rawPick (s : State) : Option Nat :=
  let sel := s.get F.rngCtrl_rawSrc
  let order := if sel = 1 then [0] else if sel = 2 then [1] else [s.rng.rawTurn, 1 - s.rng.rawTurn]
  if !s.rng.passed.all id then none
  else order.find? fun i =>
    s.get (if i = 0 then F.rngStat_jstate else F.rngStat_ostate) == 2 && decide (4 ≤ (s.rng.raw.getD i []).length)

/-- The unit's registers. RNG_DATA and RNG_RAW give bits to reads alone (R366): elsewhere a word of theirs shows 0. -/
def viewRng (src : Src) (s : State) (off : Nat) : Option W32 :=
  let w := s.getW off
  if off = W.rngCtrl then some (if wBits w 1 0 = 3 then wPut w 1 0 0 else w)
  else if off = W.rngStat then
    let host := match src with
      | .host => true | .mgmtHost => true | _ => false
    let w := wPut (wPut w 7 7 (b2n (isStopped s 26))) 10 10 (b2n (rngReady s host))
    let w := if host then wPut w 9 9 0 else wPut w 8 8 0
    some (wPut w 11 11 (b2n ((rawPick s).isSome || s.on F.rngStat_fatal || (host && s.hst.qspi))))
  else if off = W.rngData ∨ off = W.rngRaw then some 0#32
  else none

/-- Handles in use in a range. -/
def cphInUse (s : State) (lo hi : Nat) : Nat :=
  (s.cph.handles.filter fun h => decide (lo ≤ h.1) && decide (h.1 < hi)).length

/-- Operations on the cores, running and suspended. -/
def cphRuns (s : State) : List CphRun := s.cph.cores.flatMap fun c => c.run.toList ++ c.held.toList

/-- Cells of spill reserved for held output (R330): by open streams, and by CCM operations on the cores. -/
def cphSpill (s : State) : Nat :=
  ((s.cph.streams.map fun x => x.2.spill) ++ (cphRuns s).map fun r => r.spill).foldl (· + ·) 0

def viewCph (s : State) (off : Nat) : Option W32 :=
  let w := s.getW off
  if off = W.cphCtrl then some (wPut w 15 8 (max 1 (wBits w 15 8)))
  else if off = W.cphStat then
    let busy := ((List.range 6).filter fun i => (s.cph.cores.getD i ⟨none, none⟩).run.isSome).foldl setBit 0
    let w := wPut (wPut (wPut w 5 0 busy) 6 6 (b2n (isStopped s 24))) 7 7 (b2n s.cph.domain.isSome)
    some (wPut (wPut w 23 16 s.cph.streams.length) 31 24 (min 255 s.cph.queue.length))
  else if off = W.cphRes then
    some (BitVec.ofNat 32 (cphInUse s 0 128 + 2 ^ 8 * cphInUse s 128 256 + 2 ^ 16 * ((cphSpill s + 3) / 4)))
  else if off = W.cphNcstat then
    let c := K.nonce (s.get F.cphNcidx_idx)
    some (BitVec.ofNat 32 (kGet s (c + 15) 1 % 2 + 2 ^ 8 * kGet s (c + 12) 1 + 2 ^ 16 * (kGet s (c + 13) 1 % 16)
      + 2 ^ 20 * (kGet s (c + 14) 1 % 64)))
  else if off = W.cphNcinv then some (BitVec.ofNat 32 (kGet s (K.nonce (s.get F.cphNcidx_idx) + 8) 4))
  else if off = W.cphNcsaved then some (BitVec.ofNat 32 (s.cph.ncSaved.getD (s.get F.cphNcidx_idx) 0))
  else if W.cphCc 0 ≤ off ∧ off < W.cphCc 6 then
    let i := (off - W.cphCc 0) / 4
    let c := s.cph.cores.getD i ⟨none, none⟩
    let offBit := 2 ^ 12 * b2n (bitOf (s.get F.cphStat_coreOff) i) + 2 ^ 11 * b2n c.held.isSome
    match c.run with
    | none => some (BitVec.ofNat 32 offBit)
    | some r =>
      let op := leAt r.r.data 0 1
      let st := op == 1 || op == 3 || op == 4
      some (BitVec.ofNat 32 (op + 2 ^ 8 * r.r.req.cls + 2 ^ 10 + offBit
        + 2 ^ 16 * (if st then leAt r.r.data 6 1 % 64 else 0) + 2 ^ 22 * b2n st))
  else none

-- Coil subsystem (Tables 4.7, 4.8) and Cloade engine (Table 5.12) ------------------------------------

/-- FNOM as it reads: above 160,000 reads as 160,000. -/
def coilFnom (s : State) (n : Nat) : Nat := min 160000 (s.get (F.coilChFnom_fnom n))

/-- A carrier held inside FNOM ± 3.000 kHz and the band (R106). -/
def coilLimit (s : State) (n x : Nat) : Nat :=
  min (min 160000 (coilFnom s n + 30000)) (max (coilFnom s n - 30000) x)

/-- FACT: FNOM with FOLLOW 0 (R107) or where nothing has moved it (R119), else the carrier last held (R108). -/
def coilFact (s : State) (n : Nat) : Nat :=
  if !s.on (F.coilChCtrl_follow n) then coilFnom s n
  else match sget s.coil.fact n with
    | some x => coilLimit s n x
    | none => coilFnom s n

/-- MAXCONC as it reads: 1 to 8, other values 8. -/
def coilMaxconc (s : State) : Nat :=
  let m := s.get F.coilCtrl_maxconc
  if 1 ≤ m ∧ m ≤ 8 then m else 8

/-- Entry (i, j) of the coupling map (R112). -/
def mapKey (i j : Nat) : Nat := 48 * min i j + max i j
def mapAt (s : State) (i j : Nat) : Nat := if i = j then 255 else (sget s.coil.map (mapKey i j)).getD 255

/-- Byte `k` of the map as COIL_MAPDATA shows it; 0 beyond its end. -/
def mapByte (s : State) (k : Nat) : Nat := if k < 2304 then mapAt s (k / 48) (k % 48) else 0

/-- The ready task of a channel that arrived first. -/
def oldestTask (s : State) (n : Nat) : Option CoilTask :=
  (s.coil.ready.filter fun x => x.ch == n).foldl (fun o x => match o with
    | some y => if x.arrival < y.arrival then some x else some y
    | none => some x) none

def viewCoil (s : State) (off : Nat) : Option W32 :=
  let w := s.getW off
  if off = W.coilCtrl then some (wPut (wPut w 3 0 (coilMaxconc s)) 23 20 (max 1 (wBits w 23 20)))
  else if off = W.coilStat then
    let w := wPut (wPut w 1 1 (b2n s.coil.mapFull.isSome)) 4 4 (b2n (isStopped s 16))
    some (wPut (wPut w 11 8 s.coil.running.length) 31 18 s.coil.ready.length)
  else if off = W.coilMapdata then
    let k := s.get F.coilMapidx_idx / 4 * 4
    some (BitVec.ofNat 32 (leNat ((List.range 4).map fun i => byte (mapByte s (k + i)))))
  else if off = W.coilPgdata then
    some (BitVec.ofNat 32 (leNat (memRead s.coil.prog (s.get F.coilPgidx_idx / 4 * 4) 4)))
  else if off = W.coilMapidx ∨ off = W.coilPgidx then some (wPut w 1 0 0)
  else if off = W.coilGrant then some (wPut w 15 0 (arbHeld s))
  else if 0x4100 ≤ off ∧ off < 0x4700 then
    let n := (off - 0x4100) / 0x20
    let r := (off - 0x4100) % 0x20
    if r = 0x04 then some (wPut w 17 0 (coilFnom s n))
    else if r = 0x0C then some (wPut w 17 0 (coilFact s n))
    else if r = 0x10 then
      let w := wPut w 3 3 (b2n (s.coil.running.any fun x => x.t.ch == n))
      some (wPut w 15 8 (min 255 (((oldestTask s n).map fun x => x.skips).getD 0)))
    else none
  else none

/-- ROUNDS as it reads: 1 to 8; GAP clamped to 4 to 8. -/
def cldRounds (s : State) : Nat := max 1 (min 8 (s.get F.cldCfg_rounds))

def viewCld (s : State) (off : Nat) : Option W32 :=
  let w := s.getW off
  if off = W.cldCfg then some (wPut (wPut w 5 2 (cldRounds s)) 19 16 (max 4 (min 8 (wBits w 19 16))))
  else if off = W.cldStat then
    some (wPut (wPut (wPut w 3 0 s.cld.txns.length) 4 4 (b2n (isStopped s 18))) 15 8 (min 255 s.cld.accs.length))
  else if W.cldTx 0 ≤ off ∧ off < W.cldTx 8 then
    match s.cld.txns.find? fun t => W.cldTx t.n == off with
    | some t => some (BitVec.ofNat 32 (t.ch + 2 ^ 6 + 2 ^ 8 * t.lastOp + 2 ^ 16 * t.lastHnd + 2 ^ 24 * t.phase + 2 ^ 28 * t.round))
    | none => some 0#32
  else none

-- Passport tag (Table 6.7) ----------------------------------------------------------------------------

/-- A byte of the header image in NV (Table 6.4): PT_CFG at 0, PT_MBOX at 4 to 7, layout version at 8; 0 is a blank
header, which stands for the factory values (log entry 61). -/
def ptHdr (s : State) (ofs n : Nat) : Nat := leNat (memRead s.nv.cells (0x5E000 + ofs) n)
def ptHdrCfg (s : State) : Nat := if ptHdr s 8 1 = 0 then 1 else ptHdr s 0 1

/-- The passport tag's UID: CLASS 0x04, CAP bit 0 set and the SERIAL fixed at manufacture (R195, R196, Table 5.3). -/
def ptUid (s : State) : List Byte := [4#8, 1#8] ++ slice s.sec.uid 2 6

/-- A field transaction holds the passport memory: from the end of its accepted frame until its response is ready. -/
def ptHold (s : State) : Bool :=
  s.pt.waitRead.isSome || (s.pt.run.any fun t => t.who == 2) || s.pt.queue.any fun t => t.who == 2

/-- A transaction of a tag powered by its field alone writes NV now. -/
def ptWriting (s : State) : Bool := ptAlone s && s.nv.cur.isSome

/-- HVOUT is on (R213, R214). -/
def ptHvout (s : State) : Bool := (ptHdrCfg s).testBit 2 && s.pt.st != 0 && s.pt.hv && !ptWriting s

def viewPt (s : State) (off : Nat) : Option W32 :=
  if off = W.ptStat then
    let w := wPut (wPut (s.getW off) 0 0 (b2n s.pt.field)) 3 1 s.pt.st
    let w := wPut (wPut w 4 4 (b2n (ptHold s))) 5 5 (b2n s.pt.cmd)
    some (wPut (wPut (wPut w 6 6 (b2n s.pt.kp.isSome)) 7 7 (b2n (isStopped s 30))) 9 9 (b2n (ptHvout s)))
  else none

-- UHF radio (Tables 7.8, 7.9) --------------------------------------------------------------------------

/-- Profile fields as they read: MOD 3 as 0, PRE at least 2, RATE and DEV clamped. -/
def rfMod (s : State) (n : Nat) : Nat := let m := s.get (F.rfProf_mod n); if m = 3 then 0 else m
def rfPre (s : State) (n : Nat) : Nat := max 2 (s.get (F.rfProf_pre n))
def rfRate (s : State) (n : Nat) : Nat := max 24 (min (if rfMod s n = 2 then 400 else 1000) (s.get (F.rfProf_rate n)))
def rfDev (s : State) (n : Nat) : Nat := max 10 (min 500 (s.get (F.rfProf_dev n)))
def rfDutywarn (s : State) : Nat := min 100 (s.get F.rfCtrl_dutywarn)
def rfDcTemp (s : State) : Nat := max 1 (s.get F.rfCtrl_dcTemp)

/-- USED of an entry: the sum of its 60 bins (R260). -/
def rfUsed (s : State) (e : Nat) : Nat := (s.rf.bins.getD e []).foldl (· + ·) 0

/-- P(s) in 0.1 dBm (R245): −200 + 340·s/31, rounded. -/
def rfTarget (step : Nat) : Int := (((680 * step + 31) / 62 : Nat) : Int) - 200

def viewRf (s : State) (off : Nat) : Option W32 :=
  let w := s.getW off
  if off = W.rfCtrl then some (wPut (wPut w 11 8 (rfDcTemp s)) 22 16 (rfDutywarn s))
  else if off = W.rfStat then
    let w := wPut (wPut w 4 4 (b2n (isStopped s 20))) 5 5 (b2n s.sec.regLock)
    some (wPut (wPut w 15 8 (min 255 s.rf.queue.length)) 19 16 (min 15 s.rf.held.length))
  else if off = W.rfRegidx then some (wPut w 1 0 0)
  else if off = W.rfRegdata then
    let k := s.get F.rfRegidx_idx / 4 * 4
    some (BitVec.ofNat 32 (leNat (memRead s.rf.image k 4)))
  else if off = W.rfTstamp then some (BitVec.ofNat 32 (rfTstamp s))
  else if 0x5040 ≤ off ∧ off < 0x5080 then some (BitVec.ofNat 32 (min (2 ^ 22 - 1) (rfUsed s ((off - 0x5040) / 4))))
  else if 0x5080 ≤ off ∧ off < 0x5100 then
    let n := (off - 0x5080) / 0x10
    let r := (off - 0x5080) % 0x10
    if r = 0 then some (wPut (wPut (wPut w 1 0 (rfMod s n)) 12 8 (rfPre s n)) 31 16 (rfRate s n))
    else if r = 4 then some (wPut w 11 0 (rfDev s n))
    else none
  else if 0x5100 ≤ off ∧ off < 0x5180 then
    let k := (off - 0x5100) / 4
    some (BitVec.ofNat 32 (unsigned 10 (rfTarget k) + 2 ^ 16 * leNat (memRead s.rf.image (208 + 2 * k) 2)))
  else none

-- Proximity unit (Table 8.10) ----------------------------------------------------------------------------

/-- Fields as they read: NL and NH 10 to 20, HOPS 40 to 80 and even, MINHOPS 5 to 20, LFTOL to 100, PHOFS to 6,283. -/
def prxNl (s : State) : Nat := max 10 (min 20 (s.get F.prxPlan_nl))
def prxNh (s : State) : Nat := max 10 (min 20 (s.get F.prxPlan_nh))
def prxHops (s : State) : Nat := max 40 (min 80 (s.get F.prxPlan_hops / 2 * 2))
def prxMinhops (s : State) : Nat := max 5 (min 20 (s.get F.prxThr0_minhops))
def prxLftol (s : State) : Nat := min 100 (s.get F.prxThr2_lftol)
def prxPhofs (s : State) : Nat := min 6283 (s.get F.prxCal0_phofs)

def viewPrx (s : State) (off : Nat) : Option W32 :=
  let w := s.getW off
  if off = W.prxStat then
    let w := wPut (wPut w 0 0 (b2n (s.prx.cur.isSome || s.prx.stalled.isSome))) 1 1 (b2n (isStopped s 22))
    let q := (s.rf.queue.filter fun x => x.kind == 7).length
    some (wPut (wPut w 2 2 (b2n (decide (2 ≤ s.get F.secStat_lc)))) 15 8 (min 255 q))
  else if off = W.prxPlan then some (wPut (wPut (wPut w 12 8 (prxNl s)) 20 16 (prxNh s)) 30 24 (prxHops s))
  else if off = W.prxThr0 then some (wPut w 4 0 (prxMinhops s))
  else if off = W.prxThr2 then some (wPut w 7 0 (prxLftol s))
  else if off = W.prxCal0 then some (wPut w 31 16 (prxPhofs s))
  else none

-- Vehicle, meter and release I/O (Table 22.3) ------------------------------------------------------------

/-- MINON, MINOFF and DEADTIME as they read. -/
def mtrOn (s : State) : Nat := max 2 (min 100 (s.get F.vioMtrcfg_minon))
def mtrOff (s : State) : Nat := max 2 (min 100 (s.get F.vioMtrcfg_minoff))

/-- A CAN controller runs: enabled, and SYSPLL runs (R731). -/
def canRuns (s : State) (n : Nat) : Bool := s.on (F.vioCanCfg_en n) && s.on F.clkStat_pllLock

/-- Levels of REL_A and REL_B as driven (Table 2.7). -/
def relLevel (s : State) (b : Bool) : Bool :=
  let ph := (s.now - s.sad.pulseAt) % 1000
  let d := max 2 (min 50 (s.get F.sadPulse_deadtime))
  s.on F.sadStat_pulsing && (if b then decide (500 ≤ ph) && decide (ph < 1000 - d) else decide (ph < 500 - d))

/-- The GP pins (R746): an output's level, of an input the level at the pin, which is free (log entry 77). -/
def gpLevel (s : State) (i : Nat) : Bool :=
  if bitOf (s.get F.vioGpcfg0_dir) i then bitOf (s.get F.vioGpcfg0_out) i else bitOf (Config.gpPins s.now) i

def viewVio (s : State) (off : Nat) : Option W32 :=
  let w := s.getW off
  if off = W.vioStat then
    let w := wPut (wPut w 0 0 (b2n (isStopped s 38))) 1 1 (b2n (relLevel s false != s.vio.badA))
    some (wPut (wPut w 2 2 (b2n (relLevel s true != s.vio.badB))) 4 4 (Config.relFbRaw s.now % 2))
  else if off = W.vioMtrcfg then some (wPut (wPut w 7 0 (mtrOn s)) 15 8 (mtrOff s))
  else if off = W.vioCanStat 0 ∨ off = W.vioCanStat 1 then
    let n := if off = W.vioCanStat 0 then 0 else 1
    some (if canRuns s n then wPut w 1 0 (max 1 (wBits w 1 0)) else wPut w 1 0 0)
  else if off = W.vioGpcfg0 then
    some (wPut w 23 16 (((List.range 8).filter fun i => gpLevel s i).foldl setBit 0))
  else if off = W.vioGpcfg1 then
    some ((List.range 8).foldl (fun w i => if wBits w (17 + 2 * i) (16 + 2 * i) = 3 then wPut w (17 + 2 * i) (16 + 2 * i) 0 else w) w)
  else none

-- Power manager (Table 18.6) and the core's control block (Table 16.8) -------------------------------------

/-- VBO, DRAIN_MAX and PERIOD as they read. -/
def pmVbo (s : State) : Nat := max 50 (min 80 (s.get F.pmCtrl_vbo))
def pmDrainMax (s : State) : Nat := max 1 (s.get F.pmCtrl_drainMax)
def pmPeriod (s : State) : Nat := max 10 (min 4000 (s.get F.pmLsncfg_period))

def viewPm (s : State) (off : Nat) : Option W32 :=
  let w := s.getW off
  if off = W.pmCtrl then some (wPut (wPut w 15 8 (pmVbo s)) 31 16 (pmDrainMax s))
  else if off = W.pmLsncfg then some (wPut w 11 0 (pmPeriod s))
  else none

/-- Bytes of receive ring n (R597), and its base. -/
def ivcRing (s : State) (n : Nat) : Nat := 2 ^ (8 + min 8 (s.get (F.ivcQCfg_size n)))
def ivcBase (s : State) (n : Nat) : Nat := s.get (F.ivcQBase_base n) / 256 * 256

/-- The core runs: out of reset (R602) and clocked (Table 18.1). -/
def ivcRunning (s : State) : Bool :=
  s.on F.ivcCtrl_run && s.on F.clkStat_cfgDone && decide (4 ≤ s.get F.pmStat_current) && decide (s.get F.pmStat_current ≤ 6)

def viewIvc (s : State) (off : Nat) : Option W32 :=
  let w := s.getW off
  if off = W.ivcStat then
    let w := wPut (wPut (wPut w 0 0 (b2n (ivcRunning s))) 1 1 (wBits s.iv.core 8 8)) 2 2 (wBits s.iv.core 9 9)
    some (wPut w 3 3 (b2n s.iv.tx.isSome))
  else if off = W.ivcTxaddr then some (wPut w 1 0 0)
  else if 0xA900 ≤ off ∧ off < 0xAA00 then
    let n := (off - 0xA900) / 0x10
    if off = W.ivcQBase n then some (wPut w 7 0 0)
    else if off = W.ivcQCfg n then some (wPut w 3 0 (min 8 (wBits w 3 0)))
    else none
  else none

-- Security (Table 21.8) ---------------------------------------------------------------------------

/-- The level the debug port grants (R725): 2 without authorisation in BLANK, and in PROVISIONED with no domain key. -/
def dbgLevel (s : State) : Nat :=
  let lc := s.get F.secStat_lc
  if lc = 0 ∨ (lc = 1 ∧ s.cph.domain.isNone) then 2 else s.get F.secStat_dbgLevel

def viewSec (s : State) (off : Nat) : Option W32 :=
  if off = W.secStat then some (wPut (s.getW off) 9 8 (dbgLevel s)) else none

-- Lease ledger (Table 3.5) ------------------------------------------------------------------------

/-- METER_K 0 reads as 1,000; STOPPED. -/
def viewLed (s : State) (off : Nat) : Option W32 :=
  let w := s.getW off
  if off = W.ledCtrl then some (if wBits w 31 16 = 0 then wPut w 31 16 1000 else w)
  else if off = W.ledStat then some (wPut w 5 5 (b2n (isStopped s 34)))
  else none

-- Cascade (Table 15.3) -----------------------------------------------------------------------------

/-- ROLE as it reads: 3 is 0 (R532). -/
def plRole (s : State) : Nat := let r := s.get F.plCtrl_role; if r = 3 then 0 else r

/-- NDEV as it reads: clamped to 2 to 64 (Table 15.3). -/
def plNdevCfg (s : State) : Nat := max 2 (min 64 (s.get F.plCtrl_ndev))

/-- The links may run: SYSPLL is the core clock and the switch is not parked (R557), and ROLE is not standalone (R532). -/
def plRuns (s : State) : Bool := plRole s != 0 && s.on F.clkStat_onPll && !s.on F.swStat_parked

/-- A link that may run and is not up trains (R535). -/
def viewPl (s : State) (off : Nat) : Option W32 :=
  let w := s.getW off
  if off = W.plCtrl then some (wPut (wPut w 1 0 (plRole s)) 14 8 (plNdevCfg s))
  else if off = W.plStat then some (wPut w 3 3 (b2n (isStopped s 36)))
  else if off = W.plLink0 ∨ off = W.plLink0 + 4 then some (wPut w 1 1 (b2n (plRuns s && wBits w 0 0 == 0)))
  else none

-- The read ------------------------------------------------------------------------------------------

/-- What a read of a set-up register returns (R11, R788); `src` is the reader, which RNG_STAT depends on. -/
def regRead (src : Src) (s : State) (off : Nat) : W32 :=
  let v :=
    if off < 0x1000 then viewHost s off else if off < 0x1800 then viewEv s off else if off < 0x2000 then viewSnp s off
    else if 0x3000 ≤ off ∧ off < 0x3800 then viewSw s off
    else if 0x3800 ≤ off ∧ off < 0x4000 then viewBsn s off
    else if 0x4000 ≤ off ∧ off < 0x4800 then viewCoil s off
    else if 0x4800 ≤ off ∧ off < 0x5000 then viewCld s off
    else if 0x5000 ≤ off ∧ off < 0x5800 then viewRf s off
    else if 0x5800 ≤ off ∧ off < 0x6000 then viewPrx s off
    else if 0x6000 ≤ off ∧ off < 0x6800 then viewCph s off
    else if 0x6800 ≤ off ∧ off < 0x7000 then viewRng src s off
    else if 0x7000 ≤ off ∧ off < 0x7800 then viewNv s off
    else if 0x7800 ≤ off ∧ off < 0x8000 then viewPt s off
    else if 0x8000 ≤ off ∧ off < 0x8800 then viewSad s off
    else if 0x8800 ≤ off ∧ off < 0x9000 then viewLed s off
    else if 0x9000 ≤ off ∧ off < 0x9800 then viewPl s off
    else if 0x2000 ≤ off ∧ off < 0x3000 then viewPm s off
    else if 0x9800 ≤ off ∧ off < 0xA000 then viewVio s off
    else if 0xA000 ≤ off ∧ off < 0xA800 then viewSec s off
    else if 0xA800 ≤ off ∧ off < 0xB000 then viewIvc s off
    else none
  if (regSpec off).isNone then 0#32 else v.getD (s.getW off)

end Sys2Proof.Machine
end

