-- ==== Sys2Proof/Machine/Events.lean ====
section
/-! DEFINITION. Raising a flag (20_events_snapshot_arbiter.md R679–R691): its occurrence counters, its event record on
the host's ring (R519, R520) or toward a cascade head (R555), its log entry (R687) and the snapshot it may trigger
(R692–R696); and the power arbiter's grants (R697–R702). -/

namespace Sys2Proof.Machine

-- The host's event ring ---------------------------------------------------------------------------

/-- Bus address of a ring, from its two base words. -/
def base64 (lo hi : W32) (align : Nat) : Nat := alignDown (lo.toNat + 2 ^ 32 * hi.toNat) align

/-- The device writes host memory (R489), or in QSPI mode the ring window (R491). -/
def hostWrite (s : State) (addr : Nat) (bs : List Byte) : State :=
  { s with hst := { s.hst with mem := memWrite s.hst.mem addr bs } }

/-- An interrupt message to the host, in PCI Express mode (R513, R519). -/
def hostIrq (s : State) (vector : Nat) : State :=
  if s.hst.qspi then s else { s with hst := { s.hst with msi := s.hst.msi ++ [vector] } }

/-- An event record's 16 bytes (Table 14.7). -/
def evRecord (r : HeldEv) (phase : Nat) : List Byte :=
  [byte r.src, byte (r.dev % 64 + 128 * phase), byte r.occ, byte (b2n r.merged)]
    ++ leBytes 4 r.evf ++ leBytes 4 r.rtc ++ leBytes 4 r.tstamp

/-- TAIL moves past a record, and PHASE turns at the ring's end (R516). -/
def eqAdvance (s : State) : State :=
  let tail := s.get F.hrEqStat_tail
  let phase := s.get F.hrEqStat_phase
  let wrap := tail + 1 == eqEntries s
  (s.set F.hrEqStat_tail (if wrap then 0 else tail + 1)).set F.hrEqStat_phase (if wrap then 1 - phase else phase)

/-- Note a record that the host has not released, and whether it interrupted. -/
def eqNote (s : State) (irq : Bool) : State := { s with hst := { s.hst with eqRecs := s.hst.eqRecs ++ [irq] } }

/-- Write one record to the event ring (R516, R519). -/
def eqWrite (s : State) (r : HeldEv) : State :=
  let irq := s.on F.hrEqCfg_irqEn
  let addr := base64 (s.getW W.hrEqBaseLo) (s.getW W.hrEqBaseHi) 16 + 16 * s.get F.hrEqStat_tail
  let s := eqNote (eqAdvance (hostWrite s addr (evRecord r (s.get F.hrEqStat_phase)))) irq
  if irq then hostIrq s (s.get F.hrEqCfg_vector) else s

/-- Hold a record for its device and source, merging it with one already held (R520); ascending source order. -/
def holdRec : List HeldEv → HeldEv → List HeldEv
  | [], r => [r]
  | h :: l, r =>
    if h.src = r.src ∧ h.dev = r.dev then { r with merged := true } :: l
    else if r.src < h.src then r :: h :: l
    else h :: holdRec l r

/-- Events post: the ring is enabled, P8 is up and the driver is ready (R497, R686). -/
def evPosts (s : State) : Bool := s.on F.hrEqCfg_en && !portDown s 8 && s.on F.idDrvstat_driverOk

/-- Post a record to the host's event ring, or hold it while the ring is full (R520, R686). -/
def eqPost (s : State) (r : HeldEv) : State :=
  if !evPosts s then s
  else if eqEntries s ≤ s.hst.eqRecs.length then { s with ev := { s.ev with held := holdRec s.ev.held r } }
  else eqWrite s r

-- Raising a flag -----------------------------------------------------------------------------------

/-- Count one occurrence: the flag's counter and its source's, both saturating at 255 (R681). -/
def evCount (s : State) (e b : Nat) : State :=
  let inc := fun (l : List (Nat × Nat)) k => sput l k (satAdd 255 ((sget l k).getD 0) 1)
  { s with ev := { s.ev with occ := inc (inc s.ev.occ (16 * e + b)) (4096 + e) } }

/-- A member forwards its records to the head (R555). -/
def evForwards (s : State) : Bool :=
  s.get F.plCtrl_role == 2 && s.on F.plCtrl_evfwd && s.on F.plStat_ringOk

/-- A record is posted to the host's ring and toward the head, where EV_SRCe says so (R555, R686). -/
def evPost (s : State) (e : Nat) (r : HeldEv) : State :=
  if !s.on (F.evSrc_post e) then s
  else
    let s := eqPost s r
    if evForwards s then { s with ev := { s.ev with fwd := s.ev.fwd ++ [r] } } else s

/-- The log entry of an occurrence, where EV_SRCe says so (R687). -/
def evLog (s : State) (e b : Nat) (r : HeldEv) : State :=
  if s.on (F.evSrc_log e) then logAppend1 s e b 0 (leBytes 4 r.evf ++ [byte r.occ]) else s

/-- The event record of source `e` as it stands. -/
def evRec (s : State) (e : Nat) : HeldEv := ⟨e, thisDev s, false, evOcc s (4096 + e), evWord s e, s.rtcSec, rfTstamp s⟩

/-- An occurrence of flag `b` of source `e`, routed under EV_SRCe (R681, R685–R687); no snapshot yet. -/
def raise0 (s : State) (e b : Nat) : State :=
  let s := evCount (s.set (evField e b) 1) e b
  if !bitOf (s.get (F.evSrc_fmask e)) b then s else evLog (evPost s e (evRec s e)) e b (evRec s e)

-- Snapshot (R692–R696) ------------------------------------------------------------------------------

/-- The register each snapshot word copies (Table 20.3); `none` for the words that copy none. -/
def snapSource (w : Nat) : Option Nat :=
  if 28 ≤ w ∧ w < 44 then some (W.swPOcc01 (w - 28))
  else if 44 ≤ w ∧ w < 50 then some (W.coilGrpStat (w - 44))
  else if 52 ≤ w ∧ w < 56 then some (W.evPend (w - 52))
  else
    [(1, W.rfTstamp), (2, W.sadStat), (3, W.sadTerms), (4, W.ledCredit), (5, W.ledDpulseLo), (6, W.ledCpulseLo),
     (7, W.coilStat), (8, W.coilGrant), (9, W.cldStat), (10, W.ptStat), (11, W.rfStat), (12, W.rfFreq), (13, W.prxStat),
     (14, W.cphStat), (15, W.cphRes), (16, W.rngStat), (17, W.nvStat), (18, W.swStat), (19, W.bsnFree), (20, W.dirStat),
     (21, W.hrStat), (22, W.plStat), (23, W.pmStat), (24, W.pmVhold), (25, W.clkStat), (26, W.arbCoilstat),
     (27, W.arbSysstat), (50, W.ivcStat), (56, W.vioEpdcnt), (57, W.vioEpccnt)].lookup w

/-- The value of snapshot word `w` (R694, Table 20.3). -/
def snapWord (s : State) (w : Nat) : W32 :=
  if w = 0 then BitVec.ofNat 32 s.rtcSec
  else if w = 51 then s.iv.pc
  else match snapSource w with
    | some off => regRead .fw s off
    | none => 0#32

/-- The 64 words are copied, and SNP_STAT and SNP_CNT follow (R693–R695). -/
def snapTake (s : State) (cause : Nat) : State :=
  let ws := (List.range 64).map (snapWord s)
  let s := (List.range 64).foldl (fun t w => t.setW (W.snpData w) (ws.getD w 0#32)) s
  ((((s.set F.snpStat_armed 0).set F.snpStat_valid 1).set F.snpStat_cause cause).wrapInc F.snpStat_seq).bump F.snpCnt_taken 1

/-- A pulse on SNAP_OUT, unless SNAP_IN was the trigger (R696). -/
def snapPulse (s : State) (cause : Nat) : State :=
  if s.on F.snpCtrl_outEn && cause != 2 then { s with ev := { s.ev with snapOut := s.ev.snapOut + 1 } } else s

/-- A trigger of the given cause bits (1 TRIG, 2 SNAP_IN, 4 event): the snapshot if armed and on SYSPLL (R692, R693,
R695), otherwise a missed trigger. -/
def snapTrigger (s : State) (cause : Nat) : State :=
  if s.on F.snpStat_armed && s.on F.clkStat_onPll then raise0 (snapPulse (snapTake s cause) cause) 124 0
  else raise0 (s.bump F.snpCnt_missed 1) 124 1

/-- An occurrence of flag `b` of source `e`: `raise0`, and the snapshot trigger of SNP_CTRL.EVSRC (R692). -/
def raise (s : State) (e b : Nat) : State :=
  let hit := s.on F.snpCtrl_evEn && s.get F.snpCtrl_evsrc == e && bitOf (s.get (F.evSrc_fmask e)) b
  let s := raise0 s e b
  if hit then snapTrigger s 4 else s

-- Refused writes (R525) ------------------------------------------------------------------------------

/-- HR_REJ.SRC: 0 BAR0 or QSPI, 1 firmware, 2 MGMT frame; the debug port writes as firmware (R727). -/
def rejSrc : Src → Nat
  | .host => 0 | .fw => 1 | .debug => 1 | .mgmtHost => 2 | .mgmtFw => 2

/-- A field write was refused: HR_REJ records it and CFG_REJECT is raised (R525). -/
def cfgReject (s : State) (src : Src) (off : Nat) : State :=
  let s := { s with hst := { s.hst with rejNo := s.hst.rejNo + 1 } }
  raise ((s.set F.hrRej_offset off).set F.hrRej_src (rejSrc src)) 105 0

/-- The port a register command of this source counts as entering by (R385). -/
def srcPort : Src → Nat
  | .host => 8 | .mgmtHost => 8 | .fw => 12 | .mgmtFw => 12 | .debug => 12

-- Power arbiter (R697–R702) --------------------------------------------------------------------------

/-- Note the highest units held (ARB_PEAK). -/
def arbPeak (s : State) : State :=
  let s := s.set F.arbPeak_coil (max (s.get F.arbPeak_coil) (arbHeld s))
  s.set F.arbPeak_sys (max (s.get F.arbPeak_sys) (arbSys s))

/-- Units under revocation that have not come back yet (R699). -/
def arbRevoking (s : State) : Nat := ((s.ev.grants.filter fun g => g.revoked).map fun g => g.units).foldl (· + ·) 0

/-- Grant units to a channel: the newest grant stands last. -/
def arbGive (s : State) (ch cls units : Nat) : State :=
  arbPeak { s with ev := { s.ev with grants := s.ev.grants ++ [⟨ch, cls, units, false⟩] } }

/-- Revoke C2 grants, latest first, while `need` says more is needed; answers how many were revoked. -/
def revokeWhile : Nat → (List Grant → Bool) → List Grant → List Grant × Nat
  | 0, _, gs => (gs, 0)
  | n + 1, need, gs =>
    if !need gs then (gs, 0)
    else
      match gs.reverse.findIdx? fun g => g.cls == 2 && !g.revoked with
      | none => (gs, 0)
      | some i =>
        let (gs, k) := revokeWhile n need (gs.modify (gs.length - 1 - i) fun g => { g with revoked := true })
        (gs, k + 1)

def unitsOf (gs : List Grant) : Nat := (gs.map fun g => g.units).foldl (· + ·) 0

/-- A coil grant request (R698, R699): granted, refused, or for C0 refused with C2 grants revoked to cover it, when the
request waits. -/
def arbRequest (s : State) (ch cls units : Nat) : Bool × State :=
  let held := arbHeld s
  let mine := if cls = 0 ∧ (s.ev.waitC0.head?.map fun w => w.1) = some ch then s.ev.resvC0 else 0
  if held + units + (s.ev.resvC0 - mine) ≤ coilBudget s then
    let s := if cls = 0 then
        { s with ev := { s.ev with waitC0 := s.ev.waitC0.filter fun w => w.1 != ch
                                   resvC0 := s.ev.resvC0 - min mine units } } else s
    let s := if s.ev.waitC0.isEmpty then { s with ev := { s.ev with resvC0 := 0 } } else s
    (true, arbGive s ch cls units)
  else
    let s := s.bump F.arbCnt_refused 1
    if cls ≠ 0 ∨ (s.ev.waitC0.any fun w => w.1 == ch) then (false, s)
    else
      let free := coilBudget s - held
      let need := fun gs => decide (free + unitsOf (gs.filter fun g => g.revoked) < units)
      let (gs, k) := revokeWhile s.ev.grants.length need s.ev.grants
      if need gs then (false, s)
      else (false, { (s.bump F.arbCnt_revoked k) with ev := { s.ev with grants := gs, waitC0 := s.ev.waitC0 ++ [(ch, units)] } })

/-- A channel returns its grant (R699): revoked units go to RESV_C0 while a C0 request waits. -/
def arbReturn (s : State) (ch : Nat) : State :=
  match s.ev.grants.find? fun g => g.ch == ch with
  | none => s
  | some g =>
    let s := { s with ev := { s.ev with grants := s.ev.grants.filter fun x => x.ch != ch } }
    if g.revoked && !s.ev.waitC0.isEmpty then { s with ev := { s.ev with resvC0 := s.ev.resvC0 + g.units } } else s

/-- A waiting C0 request that will not come back gives its reservation up (R699). -/
def arbForget (s : State) (ch : Nat) : State :=
  let w := s.ev.waitC0.filter fun x => x.1 != ch
  { s with ev := { s.ev with waitC0 := w, resvC0 := if w.isEmpty then 0 else s.ev.resvC0 } }

/-- A budget cut below the held units revokes C2 grants, latest first (R700). -/
def arbBudget (s : State) : State :=
  let need := fun gs => decide (coilBudget s < unitsOf (gs.filter fun g => !g.revoked))
  let (gs, k) := revokeWhile s.ev.grants.length need s.ev.grants
  { (s.bump F.arbCnt_revoked k) with ev := { s.ev with grants := gs } }

/-- Every grant and reservation is void (R702). -/
def arbVoid (s : State) : State := { s with ev := { s.ev with grants := [], waitC0 := [], resvC0 := 0, sysHeld := 0 } }

end Sys2Proof.Machine
end

