-- ==== Sys2Proof/Machine/PmBase.lean ====
section
/-! DEFINITION. The power manager's part in what other blocks do (18_power_modes_holdup.md): mode changes, wake events
during a SLEEP entry and its abandonment (R641–R643). -/

namespace Sys2Proof.Machine

def pmUpd (s : State) (f : Pm → Pm) : State := { s with pm := f s.pm }

/-- CURRENT changes (Table 18.6): MODE_CHG where the event controller runs in the new mode. -/
def setMode (s : State) (m : Nat) : State :=
  if s.get F.pmStat_current = m then s
  else
    let s := s.set F.pmStat_current m
    if 4 ≤ m ∧ m ≤ 6 then raise s 123 3 else s

/-- A wake of source `w` (R647): its PM_WAKESRC bit, and WAKE. -/
def pmNote (s : State) (w : Nat) : State := raise (s.set F.pmWakesrc_src (setBit (s.get F.pmWakesrc_src) w)) 123 0

/-- A TARGET of LISTEN that an awake device has not reached yet starts the drain of R635. -/
def pmListen (s : State) : State :=
  if s.get F.pmMode_target = 4 ∧ s.pm.entry = 0 ∧ (s.get F.pmStat_current = 5 ∨ s.get F.pmStat_current = 6) then
    pmUpd s fun p => { p with entry := 3 }
  else s

/-- A SLEEP entry is abandoned at abort point `ap` (R641, R643): the switch reopens, the program and the core go on. -/
def pmAbandon (s : State) (ap : Nat) (w : Option Nat) : State :=
  let s := (s.set F.pmLastentry_result ap).set F.pmLastentry_wakesrc (w.getD 0xFF)
  pmListen (raise (pmUpd s fun p => { p with entry := 0, ckpt := false, wake := none, prog := false }) 123 1)

/-- A wake event during a SLEEP entry (R641, R642): step 2 is cut short at once, later steps end at their abort point. -/
def pmEntryWake (s : State) (w : Nat) : State :=
  if s.pm.entry = 1 then pmAbandon (pmNote s w) 2 (some w)
  else if s.pm.entry = 2 ∧ s.pm.wake.isNone then pmUpd (pmNote s w) fun p => { p with wake := some w }
  else s

/-- Time passes while no command waits (log entry 1): 10 µs for the device where its microsecond counter runs (R794), and for the
RTC, which runs in every mode but OFF (Table 18.1). -/
def idleTick (s : State) : State :=
  let m := s.get F.pmStat_current
  { s with now := if 3 ≤ m ∧ m ≤ 6 then s.now + 10 else s.now
           rtc := if m = 0 then s.rtc else s.rtc + 10 }

end Sys2Proof.Machine
end

