-- ==== Sys2Proof/Machine/Switch.lean ====
section
/-! DEFINITION. The frame switch (12_frame_switch.md): ingress checks and stamping (R413–R415), streams (R427–R429),
epochs (R431, R432), multicast (R434–R439), admission and the scheduler (R416, R421–R426), egress (R417–R420), switch
completions (R440, R441) and ports going down and up (R442–R445). -/

namespace Sys2Proof.Machine

-- Streams -------------------------------------------------------------------------------------------

/-- The counter of a stream (R427). -/
def seqOf (s : State) (k : StreamKey) : Nat := ((s.sw.seqs.find? fun x => x.1 == k).map fun x => x.2).getD 0

/-- The next FH_SEQ of a stream, counted on modulo 65,536 (R427). -/
def takeSeq (s : State) (k : StreamKey) : Nat × State :=
  let n := seqOf s k
  (n, { s with sw := { s.sw with seqs := (k, (n + 1) % 65536) :: s.sw.seqs.filter fun x => x.1 != k } })

/-- The stream a frame inside the switch belongs to (R427). -/
def keyOf (x : SwCopy) : StreamKey := ⟨x.origin, x.frame.sport, x.frame.ssub, x.frame.cls, x.outPort⟩

/-- Put a frame, its header stamped but for FH_SEQ, into the virtual output queue of a port (R414, R427); a C0 frame ends a
SLEEP entry (R642). -/
def swQueue (s : State) (f : Frame) (origin outPort outSub : Nat) (group : Option Nat) : State :=
  let (n, s) := takeSeq s ⟨origin, f.sport, f.ssub, f.cls, outPort⟩
  let x : SwCopy := { id := s.sw.nextId, frame := { f with seq := n }, origin, inPort := f.sport, outPort, outSub
                      admitted := false, left := frameCells f, egress := false, since := s.now, group }
  let s := { s with sw := { s.sw with frames := s.sw.frames ++ [x], nextId := s.sw.nextId + 1 } }
  if f.cls = 0 then pmEntryWake s 18 else s

-- Routing to the ring (R415, R548) ----------------------------------------------------------------------

/-- The port toward another device: P10 when its route is PL1, P9 when it is PL0 (R548). -/
def plRoute (s : State) (d : Nat) : Option Nat :=
  let bit := fun (lo hi : Nat) => bitOf (s.getW (if d < 32 then lo else hi)).toNat (d % 32)
  if bit W.plReach1Lo W.plReach1Hi then some 10
  else if bit W.plReach0Lo W.plReach0Hi then some 9
  else none

-- Switch completions (R440) -------------------------------------------------------------------------------

/-- The ports of a list as a mask. -/
def portMask (ps : List Nat) : Nat := ps.foldl setBit 0

/-- SW_COMPLETION to the originator `r` of a frame of type `typ` for `dport`, `dsub` (R438, R440, R441). -/
def swComplete (s : State) (r : Req) (typ dport dsub status : Nat) (delivered failed stale : Nat) : State :=
  let payload := [byte status, byte typ] ++ leBytes 2 delivered ++ leBytes 2 failed ++ leBytes 2 stale
    ++ [byte dport, byte dsub] ++ zeros 6
  let f := { mkFrame 0xFF r.cls r.port r.sub r.dev r.optag payload with sport := 15, ssub := 12 }
  if r.dev = thisDev s then
    if subDown s r.port r.sub then s.bump F.swCnt1_orphan 1
    else swQueue s { f with dir := true } (thisDev s) r.port r.sub none
  else
    match plRoute s r.dev with
    | some p => if portDown s p then s.bump F.swCnt1_orphan 1 else swQueue s f (thisDev s) p r.sub none
    | none => s.bump F.swCnt1_orphan 1

/-- An EVENT_FWD frame at the head's host interface, which discards it without completion while P8 is down (R555). -/
def fwdLost (s : State) (port : Nat) (f : Frame) : Bool := port == 8 && f.typ == 0x40 && portDown s 8

/-- Completion of a frame inside the switch; a frame of FH_TYPE 0x80 or above is never completed (Table 12.4). -/
def swCompleteFrame (s : State) (f : Frame) (status : Nat) : State :=
  if 0x80 ≤ f.typ then s else swComplete s (frameReq f) f.typ f.dport f.dsub status 0 0 0

-- Multicast accounting (R437, R438) -------------------------------------------------------------------------

/-- The status of a multicast frame whose copies are all settled (R438). -/
def mcStatus (m : McRec) : Nat :=
  if m.failed.isEmpty then St.ok
  else if m.delivered.isEmpty then
    ((List.range 16).findSome? fun p => m.failed.lookup p).getD St.portDown
  else St.mcPartial

/-- Send the SW_COMPLETION of a multicast frame once no copy is pending (R438). -/
def mcSettle (s : State) (id : Nat) : State :=
  match s.sw.mcs.find? fun m => m.id == id with
  | none => s
  | some m =>
    if !m.pend.isEmpty then s
    else
      let s := { s with sw := { s.sw with mcs := s.sw.mcs.filter fun x => x.id != id } }
      if 0x80 ≤ m.frame.typ then s
      else swComplete s (frameReq m.frame) m.frame.typ m.frame.dport m.frame.dsub (mcStatus m)
        (portMask m.delivered) (portMask (m.failed.map fun x => x.1))
        (portMask ((m.failed.filter fun x => x.2 == St.staleDiscard).map fun x => x.1))

/-- Change a multicast record. -/
def mcUpdate (s : State) (id : Nat) (f : McRec → McRec) : State :=
  { s with sw := { s.sw with mcs := s.sw.mcs.map fun m => if m.id = id then f m else m } }

/-- A copy to port `p` failed (R437): counted, flagged and settled. -/
def mcFail (s : State) (id p status : Nat) : State :=
  let s := raise (s.bump (F.swPCnt1_mcfail p) 1) (54 + p) 7
  mcSettle (mcUpdate s id fun m => { m with pend := m.pend.filter (· != p), failed := m.failed ++ [(p, status)] }) id

/-- A copy to port `p` was delivered. -/
def mcDeliver (s : State) (id p : Nat) : State :=
  mcSettle (mcUpdate s id fun m => { m with pend := m.pend.filter (· != p), delivered := m.delivered ++ [p] }) id

-- Groups (R434, Table 12.5) -----------------------------------------------------------------------------------

def Group.zero : Group := ⟨false, 0, 0, 0, List.replicate 16 0⟩

/-- Multicast group `g`. -/
def groupOf (s : State) (g : Nat) : Group := (sget s.sw.groups g).getD Group.zero

/-- The 24 bytes of a group entry. -/
def groupBytes (g : Group) : List Byte :=
  [byte (b2n g.valid), byte g.epoch, byte g.revokeAt, 0#8] ++ leBytes 2 g.ports ++ [0#8, 0#8]
    ++ (List.range 16).map fun p => byte (g.subs.getD p 0)

-- Ingress (R413–R415) -------------------------------------------------------------------------------------------

/-- The EPOCH of a directory entry, and its REVOKE_AT (R431, Table 13.2). -/
def dirEpoch (s : State) (i : Nat) : Nat := leAt (dirEntry s i) 12 1
def dirRevokeAt (s : State) (i : Nat) : Nat := leAt (dirEntry s i) 13 1

/-- FH_EPOCH of a unicast frame, and of a multicast frame for another device (R431). -/
def swEpochStamp (s : State) (f : Frame) : Nat :=
  if f.revChk && !f.mc then (f.dirIdx.map (dirEpoch s)).getD 0 else 0

/-- The copies of a multicast frame at its destination device (R436, R437). -/
def swMulticast (s : State) (f : Frame) (origin : Nat) : State :=
  let g := groupOf s f.mgrp
  let members := (List.range 16).filter fun p =>
    bitOf g.ports p && !(p == f.sport && g.subs.getD p 0 == f.ssub)
  let id := s.sw.nextId
  let s := { s with sw := { s.sw with nextId := id + 1, mcs := s.sw.mcs ++ [⟨id, f, origin, members, [], []⟩] } }
  let s := members.foldl (fun s p =>
    if subDown s p (g.subs.getD p 0) then mcFail s id p St.portDown
    else swQueue s f origin p (g.subs.getD p 0) (some id)) s
  mcSettle s id

/-- Checks 3 to 5 of Table 12.4, the rewrite of R414 and the queueing of a frame that entered by `port` and `sub`;
`origin` is this device, or the device the cascade port supplies: no source names another one (log entry 133). A multicast
frame for another device is stamped there, under that device's group (R431, R439, log entry 154). -/
def swIngress (s : State) (port sub origin : Nat) (rsvOk : Bool) (f : Frame) : State :=
  let r : Req := ⟨port, sub, origin, f.cls, f.optag, false⟩
  let fail := fun (s : State) (status : Nat) =>
    let s := if status = St.badDescriptor ∨ 0x80 ≤ f.typ then s.bump F.swCnt0_baddesc 1 else s
    if 0x80 ≤ f.typ then s else swComplete s r f.typ f.dport f.dsub status 0 0 0
  let isHere := f.dir || f.dev == thisDev s
  let f := { f with sport := port, ssub := sub, cm := false
                    revChk := f.revChk && !(port == 8 || port == 9 || port == 10 || port == 12) }
  let f := { f with epoch := swEpochStamp s f }
  if !rsvOk || typeReserved f.typ || ((f.cls == 3) != (baseType f.typ == 0x10)) then fail s St.badDescriptor
  else if !isHere then
    match plRoute s f.dev with
    | none => (fail s St.portDown).bump F.plCnt1_flushed 1
    | some p => if portDown s p then fail s St.portDown else swQueue s f origin p f.dsub none
  else if f.mc then
    if (groupOf s f.mgrp).valid && f.dport == 0 && f.dsub == 0 then
      swMulticast s { f with dir := true, dev := origin, epoch := (groupOf s f.mgrp).epoch } origin
    else fail s St.badDescriptor
  else if !subListed f.dport f.dsub then fail s St.badDescriptor
  else if subDown s f.dport f.dsub then (if fwdLost s f.dport f then s else fail s St.portDown)
  else swQueue s { f with dir := true, dev := origin } origin f.dport f.dsub none

/-- A block of this device sends a frame from its port and sub-port. -/
def sendFrame (s : State) (port sub : Nat) (f : Frame) : State := swIngress s port sub (thisDev s) true f

/-- A block answers a request (R412): nothing for a multicast copy (R438). -/
def complete (s : State) (port sub : Nat) (r : Req) (typ : Nat) (payload : List Byte) : State :=
  if r.mc then s
  else sendFrame s port sub (mkFrame (typ + 0x80) r.cls r.port r.sub r.dev r.optag payload)

-- Admission (R416, R423–R426, R429) --------------------------------------------------------------------------------

/-- Copies of the same stream that stand before this one. -/
def aheadInStream (s : State) (x : SwCopy) : Nat :=
  ((s.sw.frames.takeWhile fun y => y.id != x.id).filter fun y => keyOf y == keyOf x).length

/-- Room for a class at an output: its quota, and for C0 the headroom as well (R423). -/
def swLimit (s : State) (p c : Nat) : Nat := swQuota s p c + (if c = 0 then s.get (F.swPC0cfg_headroom p) else 0)

/-- Remove a copy from the switch. -/
def swRemove (s : State) (id : Nat) : State :=
  { s with sw := { s.sw with frames := s.sw.frames.filter fun y => y.id != id } }

/-- Change a copy in the switch. -/
def swUpdate (s : State) (id : Nat) (f : SwCopy → SwCopy) : State :=
  { s with sw := { s.sw with frames := s.sw.frames.map fun y => if y.id = id then f y else y } }

/-- A copy leaves the switch without being delivered. -/
def swDrop (s : State) (x : SwCopy) (status : Nat) : State :=
  let s := swRemove s x.id
  match x.group with
  | some g => mcFail s g x.outPort status
  | none => if fwdLost s x.outPort x.frame then s else swCompleteFrame s x.frame status

/-- Judge one waiting copy (R416, R423, R425, R426, R457). -/
def swAdmit1 (s : State) (x : SwCopy) : State :=
  let p := x.outPort
  let c := x.frame.cls
  let n := frameCells x.frame
  if aheadInStream s x ≥ 64 then s
  else if swLimit s p c < swOcc s p c + n then
    let bp := s.get (F.swPStat_bp p)
    if bitOf bp c then s
    else raise (s.set (F.swPStat_bp p) (setBit bp c)) (54 + p) (if c = 0 then 4 else 2)
  else if poolCells s < swCells s + n then raise (swDrop s x St.internalFault) 61 11
  else
    let mark := c == 0 && decide (swMark s p ≤ swOcc s p 0)
    let s := if mark then raise (s.bump (F.swPCnt1_marked p) 1) (54 + p) 3 else s
    swUpdate s x.id fun y => { y with admitted := true, frame := { y.frame with cm := mark } }

/-- Back-pressure shows only while it lasts (R426). -/
def swClearBp (s : State) : State :=
  (List.range 16).foldl (fun s p =>
    (List.range 4).foldl (fun s c =>
      if s.sw.frames.any fun x => x.outPort == p && x.frame.cls == c && !x.admitted
           && decide (swLimit s p c < swOcc s p c + frameCells x.frame) then s
      else s.set (F.swPStat_bp p) (clrBit (s.get (F.swPStat_bp p)) c)) s) s

/-- Ingress of a class is open: a SLEEP entry closes C1 to C3 (Table 18.3), a move to LISTEN all (R635). -/
def ingressOpen (s : State) (cls : Nat) : Bool := s.pm.entry == 0 || (s.pm.entry != 3 && cls == 0)

/-- The switch admits what fits, in arrival order; parked or stopped it admits nothing (R446, R448). -/
def swAdmit (s : State) : State :=
  if s.on F.swStat_parked || noNewWork s 12 then s
  else swClearBp ((s.sw.frames.filter fun x => !x.admitted && ingressOpen s x.frame.cls).foldl swAdmit1 s)

-- The scheduler (R421) -----------------------------------------------------------------------------------------------

/-- The cell that input `i` would send to output `o` in class `c`: the first admitted copy with a cell left. -/
def voqHead (s : State) (i o c : Nat) : Option SwCopy :=
  s.sw.frames.find? fun x => x.inPort == i && x.outPort == o && x.frame.cls == c && x.admitted && decide (0 < x.left)

/-- A head cell has waited longer than SW_CTRL.AGE µs. -/
def swAged (s : State) (x : SwCopy) : Bool :=
  s.get F.swCtrl_age != 0 && decide (x.since + s.get F.swCtrl_age < s.now)

/-- The rank of a class at an output among the requesting inputs: C0, then an aged class, then C3, C1, C2. -/
def classRank (s : State) (o c : Nat) (ins : List Nat) : Option Nat :=
  let hs := ins.filterMap fun i => voqHead s i o c
  if hs.isEmpty then none
  else if c = 0 then some 0
  else if hs.any (swAged s) then some 1
  else some (if c = 3 then 2 else if c = 1 then 3 else 4)

/-- The best class of an output. -/
def bestClass (s : State) (o : Nat) (ins : List Nat) : Option Nat :=
  ([0, 3, 1, 2].filterMap fun c => (classRank s o c ins).map fun r => (c, r)).foldl
    (fun best x => match best with
      | none => some x
      | some b => if x.2 < b.2 then some x else some b) none |>.map fun x => x.1

/-- The first of `l` at or after `p`, counting round 16. -/
def firstFrom (l : List Nat) (p : Nat) : Option Nat := (List.range 16).findSome? fun k =>
  let i := (p + k) % 16
  if l.contains i then some i else none

/-- One cell slot's progress: matched inputs and outputs, and the accepted (input, output, class). -/
structure SlotSt where
  insM : List Nat
  outsM : List Nat
  acc  : List (Nat × Nat × Nat)
  deriving DecidableEq, Repr

/-- Grants of one iteration: for each unmatched output the class and the input it grants. -/
def swGrants (s : State) (m : SlotSt) : List (Nat × Nat × Nat) :=
  let ins := (List.range 16).filter fun i => !m.insM.contains i
  ((List.range 16).filter fun o => !m.outsM.contains o).filterMap fun o =>
    (bestClass s o ins).bind fun c =>
      (firstFrom (ins.filter fun i => (voqHead s i o c).isSome) (s.sw.gptr.getD (4 * o + c) 0)).map fun i => (o, c, i)

/-- The multicast frame whose head cell input `i` holds: the first admitted copy of one with a cell left. -/
def mcHead (s : State) (i : Nat) : Option Nat :=
  (s.sw.frames.find? fun x => x.inPort == i && x.group.isSome && x.admitted && decide (0 < x.left)).bind fun x => x.group

/-- One input accepts (R421). -/
def swAccept (first : Bool) (gs : List (Nat × Nat × Nat)) (i : Nat) (sm : State × SlotSt) : State × SlotSt :=
  let (s, m) := sm
  let mine := gs.filter fun g => g.2.2 == i
  let take := fun (s : State) (m : SlotSt) (g : Nat × Nat × Nat) =>
    let m : SlotSt := ⟨i :: m.insM, g.1 :: m.outsM, m.acc ++ [(i, g.1, g.2.1)]⟩
    let s := if first then { s with sw := { s.sw with
        aptr := s.sw.aptr.set i ((g.1 + 1) % 16), gptr := s.sw.gptr.set (4 * g.1 + g.2.1) ((i + 1) % 16) } } else s
    (s, m)
  let mcGs : List (Nat × Nat × Nat) := match mcHead s i with
    | some id =>
      if s.sw.mcTurn.getD i false then mine.filter fun g => (voqHead s i g.1 g.2.1).any fun x => x.group == some id
      else []
    | none => []
  if !mcGs.isEmpty then mcGs.foldl (fun sm g => take sm.1 sm.2 g) (s, m)
  else
    match firstFrom (mine.map fun g => g.1) (s.sw.aptr.getD i 0) with
    | none => (s, m)
    | some o => match mine.find? fun g => g.1 == o with
      | some g => take s m g
      | none => (s, m)

/-- One iteration of request, grant and accept. -/
def swIterate (first : Bool) (sm : State × SlotSt) : State × SlotSt :=
  let gs := swGrants sm.1 sm.2
  ((List.range 16).filter fun i => !sm.2.insM.contains i).foldl (fun sm i => swAccept first gs i sm) sm

/-- Inputs that hold both multicast and unicast cells take turns (R421). -/
def swTurns (s : State) : State :=
  { s with sw := { s.sw with mcTurn := (List.range 16).map fun i =>
      let mine := s.sw.frames.filter fun x => x.inPort == i && x.admitted && decide (0 < x.left)
      let t := s.sw.mcTurn.getD i false
      if (mine.any fun x => x.group.isSome) && (mine.any fun x => x.group.isNone) then !t else t } }

/-- One cell slot: two iterations, then one cell per accepted pair (R421). -/
def swSlot (s : State) : State :=
  let s0 := s
  let (s, m) := swIterate false (swIterate true (s, ⟨[], [], []⟩))
  let s := m.acc.foldl (fun s a =>
    match voqHead s a.1 a.2.1 a.2.2 with
    | some x => swUpdate s x.id fun y => { y with left := y.left - 1 }
    | none => s) s
  { s with sw := { s.sw with mcTurn := (swTurns s0).sw.mcTurn } }

-- Egress (R417–R420, R432) ---------------------------------------------------------------------------------------------

/-- A frame may start egress: whole in its queue, or cut through with its first cell across (R417, R418). -/
def swReady (s : State) (x : SwCopy) : Bool :=
  x.admitted && !x.egress
  && (x.left == 0
      || (decide (frameCells x.frame ≤ 4) && bitOf (swCt s x.outPort) x.frame.cls && decide (x.left < frameCells x.frame)))

/-- A link still has cells of this device's in the class to send. -/
def linkBusy (s : State) (l c : Nat) : Bool :=
  (s.pl.links.getD l PlLink.fresh).waiting.any fun x => x.cls == c && !x.pass

/-- The destination takes frames of this class now: a stopped or stopping block takes only C3 (R23, R24), a full capture
pool in STOP mode no C2 (R462), a link with cells of the class still to send none of that class (R539), a host ring
without room none (R517), and a firmware queue that is off or lacks room none (R597, R598). -/
def dstTakes (s : State) (x : SwCopy) : Bool :=
  (x.frame.cls == 3 || !noNewWork s (blockOfPort x.outPort x.outSub))
  && !(x.outPort == 7 && x.frame.cls == 2 && !s.bsn.capWait.isEmpty)
  && !(x.outPort == 12 && (!s.on (F.ivcQCfg_en x.outSub) || s.iv.qWait.any fun w => w.1 == x.outSub))
  && !(x.outPort == 8 && s.hst.cplWait.any fun w => w.1 == x.outSub)
  && !(x.outPort == 9 && linkBusy s 0 x.frame.cls) && !(x.outPort == 10 && linkBusy s 1 x.frame.cls)
  && !subDown s x.outPort x.outSub

/-- The next frame of a port: class order C0, C3, C1, C2, sub-ports in rotation, stream order (R419, R428). -/
def egPick (s : State) (p : Nat) : Option SwCopy :=
  [0, 3, 1, 2].findSome? fun c =>
    let cs := s.sw.frames.filter fun x =>
      x.outPort == p && x.frame.cls == c && swReady s x && dstTakes s x && aheadInStream s x == 0
    let ptr := s.sw.egPtr.getD (4 * p + c) 0
    (List.range 256).findSome? fun k => cs.find? fun x => x.outSub == (ptr + k) % 256

/-- The entry a copy's epoch is judged by: its group's, or the directory entry's (R432). -/
def swEpochs (s : State) (x : SwCopy) : Option (Nat × Nat) :=
  if x.group.isSome then let g := groupOf s x.frame.mgrp; some (g.epoch, g.revokeAt)
  else if x.frame.revChk then x.frame.dirIdx.map fun i => (dirEpoch s i, dirRevokeAt s i)
  else none

/-- The frame is stale (R432). -/
def swStale (s : State) (x : SwCopy) : Bool :=
  match swEpochs s x with
  | none => false
  | some (e, r) => decide ((e + 256 - r) % 256 < (e + 256 - x.frame.epoch) % 256)

/-- A free output port picks its next frame and starts egress, or discards it as stale. -/
def egStart (s : State) (p : Nat) : State :=
  if s.on F.swStat_parked || s.sw.frames.any fun x => x.outPort == p && x.egress then s
  else
    match egPick s p with
    | none => s
    | some x =>
      let s := { s with sw := { s.sw with egPtr := s.sw.egPtr.set (4 * p + x.frame.cls) ((x.outSub + 1) % 256) } }
      if swStale s x then
        swDrop (raise (s.bump (F.swPCnt0_stale p) 1) (54 + p) 6) x St.staleDiscard
      else swUpdate s x.id fun y => { y with egress := true }

/-- The frame a port has in egress with its last cell across. -/
def egDone (s : State) (p : Nat) : Option SwCopy :=
  s.sw.frames.find? fun x => x.outPort == p && x.egress && x.left == 0

/-- The destination has accepted the frame's last byte: its cells are free (R420) and a copy counts as delivered. -/
def swDelivered (s : State) (x : SwCopy) : State :=
  let s := swRemove s x.id
  match x.group with
  | some g => mcDeliver s g x.outPort
  | none => s

-- Ports down and up (R442–R445) --------------------------------------------------------------------------------------------

/-- Flush every copy for which `p` holds with PORT_DOWN (R442). -/
def swFlush (s : State) (p : SwCopy → Bool) : State :=
  (s.sw.frames.filter p).foldl (fun s x => swDrop (s.bump (F.swPCnt0_flushed x.outPort) 1) x St.portDown) s

/-- A port goes down. -/
def swPortGoesDown (s : State) (p : Nat) : State :=
  if portDown s p then s
  else swFlush (raise (s.set (F.swPStat_down p) 1) (54 + p) 0) fun x => x.outPort == p

/-- A sub-port goes down. -/
def swSubGoesDown (s : State) (p k : Nat) : State :=
  let m := s.get (F.swPSdown_sub p)
  if bitOf m k then s
  else swFlush (raise (s.set (F.swPSdown_sub p) (setBit m k)) (54 + p) 0) fun x => x.outPort == p && x.outSub == k

/-- A port comes back up, its queues empty (R445). -/
def swPortComesUp (s : State) (p : Nat) : State :=
  if !portDown s p || !s.on (F.swPCtrl_en p) then s
  else raise (s.set (F.swPStat_down p) 0) (54 + p) 1

/-- A sub-port comes back up. -/
def swSubComesUp (s : State) (p k : Nat) : State :=
  let m := s.get (F.swPSdown_sub p)
  if !bitOf m k then s else raise (s.set (F.swPSdown_sub p) (clrBit m k)) (54 + p) 1

-- Stop and start (R446, R447) ---------------------------------------------------------------------------------------------------

/-- Mark a block stopping, unless it is stopped already (R25). -/
def stopBlock (s : State) (blk : Nat) : State :=
  if isStopped s blk || isStopping s blk then s
  else { s with stops := { s.stops with stopping := s.stops.stopping ++ [blk] } }

/-- Let a block run again. -/
def startBlock (s : State) (blk : Nat) : State :=
  { s with stops := { s.stops with stopping := s.stops.stopping.filter (· != blk)
                                   stopped := s.stops.stopped.filter (· != blk) } }

/-- The stopping switch is idle: no cell crossing, every queue empty or bound for a stopped or down destination (R446). -/
def swIdle (s : State) : Bool :=
  s.sw.frames.all fun x => !x.admitted || (x.left == 0 && !x.egress
    && (noNewWork s (blockOfPort x.outPort x.outSub) || subDown s x.outPort x.outSub))

/-- Q0 + Q1 + Q2 + Q3 + HEADROOM over the 16 ports (R447). -/
def quotaSum (s : State) : Nat :=
  (List.range 16).foldl (fun a p => a + swQuota s p 0 + swQuota s p 1 + swQuota s p 2 + swQuota s p 3
    + s.get (F.swPC0cfg_headroom p)) 0

/-- SW_CMD.START (R447): whether it is accepted, and the state after it. -/
def swStartOp (s : State) : Bool × State :=
  if !noNewWork s 12 then (true, s)
  else if poolCells s < quotaSum s then (false, s.set F.swStat_quotaErr 1)
  else (true, startBlock (s.set F.swStat_quotaErr 0) 12)

/-- The words of record 0x0041 (R450). -/
def recSwitchWords : List Nat :=
  W.swCtrl :: (List.range 16).flatMap fun p => [W.swPCtrl p, W.swPQ01 p, W.swPQ23 p, W.swPC0cfg p]

/-- The payload of record 0x0040: bytes 0 and 4 to 23 of every group (R450). -/
def recGroupsBytes (s : State) : List Byte :=
  (List.range 256).flatMap fun g => let b := groupBytes (groupOf s g); b.take 1 ++ b.drop 4

/-- SW_CMD.SAVE (R450). -/
def swSaveOp (s : State) (src : Src) : State :=
  let (_, s) := nvSubmit s (.record recSwitch (wordsBytes s recSwitchWords)) false false (srcPort src) .none
  (nvSubmit s (.record recGroups (recGroupsBytes s)) false false (srcPort src) .none).2

/-- SW_CMD.CLR_CNT. -/
def swClrCntOp (s : State) : State :=
  (List.range 16).foldl (fun s p => (s.setW (W.swPCnt0 p) 0#32).setW (W.swPCnt1 p) 0#32)
    ((s.setW W.swCnt0 0#32).setW W.swCnt1 0#32)

/-- Load a group entry into SW_MGBUF0–5. -/
def mgReadOp (s : State) (g : Nat) : State :=
  loadWords s ((List.range 6).map W.swMgbuf) (groupBytes (groupOf s g))

/-- A group entry as written: reserved bits 0 and every member sub-port in Table 12.1 (R435). -/
def mgWriteOk (b : List Byte) : Bool :=
  decide (leAt b 0 1 < 2) && leAt b 3 1 == 0 && leAt b 6 2 == 0
  && (List.range 16).all fun p => !bitOf (leAt b 4 2) p || subListed p (leAt b (8 + p) 1)

/-- Write a group entry as one unit from SW_MGBUF0–5 (R435): whether it is accepted. -/
def mgWriteOp (s : State) (g : Nat) (revoke : Bool) : Bool × State :=
  let b := wordsBytes s ((List.range 6).map W.swMgbuf)
  if !mgWriteOk b then (false, s)
  else
    let old := groupOf s g
    let e := (old.epoch + 1) % 256
    let new : Group := ⟨leAt b 0 1 == 1, e, if revoke then e else old.revokeAt, leAt b 4 2,
                        (List.range 16).map fun p => leAt b (8 + p) 1⟩
    let s := { s with sw := { s.sw with groups := sputD Group.zero s.sw.groups g new } }
    (true, mgReadOp s g)

/-- Event records a member has yet to forward enter the switch as EVENT_FWD frames (R555). -/
def fwdEvents (s : State) : State :=
  let rs := s.ev.fwd
  let s := { s with ev := { s.ev with fwd := [] } }
  rs.foldl (fun s r => sendFrame s 15 4 (mkFrame 0x40 2 8 0 0 0 (evRecord r 0))) s

-- The commands -------------------------------------------------------------------------------------------------------------------

/-- FRAME_INGRESS (R413): check 1 on the bytes as delivered, then `swIngress`. -/
def execSwFrameIngress (port sub origin : Nat) (bytes : List Byte) (s : State) : Host.Outcome State Fault Refusal :=
  .next <|
    if !hdrOk bytes then raise (s.bump F.swCnt0_hcrc 1) (54 + port) 8
    else swIngress s port sub (if port = 9 ∨ port = 10 then origin else thisDev s) (hdrRsvOk bytes) (frameOf bytes)

/-- CELL_SLOT (R421): the switch admits what fits and moves one cell per matched pair; parked, no frame moves (R448). -/
def execSwCellSlot (s : State) : Host.Outcome State Fault Refusal :=
  .next <| if s.on F.swStat_parked then s else swSlot (swAdmit (fwdEvents s))

/-- EGRESS_START (R419, R432). -/
def execSwEgressStart (port : Nat) (s : State) : Host.Outcome State Fault Refusal := .next (egStart s port)

/-- SEQ_GAP (R430): the frame `id` was lost inside the switch by an internal fault; it is not completed, the frames held
behind it are released and the flag of its output is raised. -/
def execSwSeqGap (id : Nat) (s : State) : Host.Outcome State Fault Refusal :=
  .next <| match s.sw.frames.find? fun x => x.id == id with
    | none => s
    | some x => raise ((swRemove s id).bump F.swCnt1_gap 1) (54 + x.outPort) 5

/-- PORT_UP (R445). -/
def execSwPortUp (port : Nat) (sub : Option Nat) (s : State) : Host.Outcome State Fault Refusal :=
  .next <| match sub with
    | none => swPortComesUp s port
    | some k => swSubComesUp s port k

/-- SW_CMD.STOP (R446). -/
def execSwStop (s : State) : Host.Outcome State Fault Refusal := .next (stopBlock s 12)

/-- SW_CMD.SAVE (R450). -/
def execSwSave (src : Src) (s : State) : Host.Outcome State Fault Refusal := .next (swSaveOp s src)

/-- SW_CMD.CLR_CNT (R451). -/
def execSwClrCnt (s : State) : Host.Outcome State Fault Refusal := .next (swClrCntOp s)

/-- SW_MGCMD READ (R451). -/
def execSwMgRead (group : Nat) (s : State) : Host.Outcome State Fault Refusal := .next (mgReadOp s group)

/-- SW_MGCMD WRITE (R435). -/
def execSwMgWrite (src : Src) (group : Nat) (revoke : Bool) (s : State) : Host.Outcome State Fault Refusal :=
  .next <| match mgWriteOp s group revoke with
    | (true, s) => s
    | (false, s) => cfgReject s src W.swMgcmd

end Sys2Proof.Machine
end

