-- ==== Sys2Proof/Machine/Basin.lean ====
section
/-! DEFINITION. Basin (13_basin_directory.md R452–R463): the partitions and APPLY, and the capture pool. -/

namespace Sys2Proof.Machine

/-- Replace Basin's state. -/
def bsnUpd (s : State) (f : Bsn → Bsn) : State := { s with bsn := f s.bsn }

-- Partitions (R452–R454) -----------------------------------------------------------------------------

/-- Record 0x0042 (R454): the five sizes as words (log entry 29). -/
def recBasin : RecDesc := devRec 0x0042 20 0x57100 0x57180

/-- The sizes BSN_PART0–4 hold. -/
def partSizes (s : State) : List Nat := (List.range 5).map fun n => s.get ⟨W.bsnPart0 + 4 * n, 5, 0⟩

/-- The base in MiB of partition `n` under given sizes. -/
def baseOf (sizes : List Nat) (n : Nat) : Nat := (sizes.take n).foldl (· + ·) 0

/-- Partition `n` keeps its base and size. -/
def partSame (old new : List Nat) (n : Nat) : Bool := baseOf old n == baseOf new n && old.getD n 0 == new.getD n 0

/-- The conditions of R453. -/
def applyOk (s : State) : Bool :=
  let old := s.bsn.size
  let new := partSizes s
  let lim := [8, 0, 0, 1, 1]
  new.foldl (· + ·) 0 == 62
  && (List.range 5).all (fun n => decide (lim.getD n 0 ≤ new.getD n 0))
  && isStopped s 12
  && (partSame old new 0 || swCells s == 0)
  && (partSame old new 1 || s.bsn.cap.isEmpty)
  && (partSame old new 4 || (isStopped s 24 && cphInUse s 0 128 == 0 && cphInUse s 128 256 == 0 && cphSpill s == 0
        && s.cph.streams.isEmpty))

/-- The bytes of `m` that lie in partitions whose base and size do not change (R454). -/
def keepSame (old new : List Nat) (m : List Host.Cell) : List Host.Cell :=
  m.filter fun c => (List.range 5).any fun n =>
    partSame old new n && decide (0x100000 * baseOf new n ≤ c.1) && decide (c.1 < 0x100000 * (baseOf new n + new.getD n 0))

/-- The end of APPLY: changed partitions zeroised, the sizes in force (R454). -/
def applyEnd (s : State) : State :=
  let old := s.bsn.size
  let new := s.bsn.applyTo
  let s := bsnUpd s fun b => { b with size := new, mem := keepSame old new b.mem, applyTo := []
                                      capPos := if partSame old new 1 then b.capPos else 0 }
  raise ((s.set F.bsnStat_applying 0).set F.bsnStat_applied 1) 61 9

-- Capture pool (R459–R463) -----------------------------------------------------------------------------

/-- Offset of the capture pool in Basin. -/
def capBase (s : State) : Nat := 0x100000 * partBase s 1

/-- `n` bytes of the capture ring from place `pos`. -/
def capGet (s : State) (pos n : Nat) : List Byte :=
  (List.range n).map fun i => memGet s.bsn.mem (capBase s + (pos + i) % capSize s)

/-- Write bytes into the capture ring from place `pos`. -/
def capPut : State → Nat → List Byte → State
  | s, _, [] => s
  | s, pos, b :: bs =>
    capPut (bsnUpd s fun x => { x with mem := memPut x.mem (capBase s + pos % capSize s) b }) (pos + 1) bs

/-- Bytes a record of LEN bytes occupies (R460). -/
def capRecSize (len : Nat) : Nat := (16 + len + 15) / 16 * 16

/-- A capture request is well formed for its OP (R459): its class, and bytes 1 to 7 all 0. -/
def capFormOk (req : Req) (p : List Byte) : Bool :=
  let op := leAt p 0 1
  decide (8 ≤ p.length) && slice p 1 7 == zeros 7 && ((op == 1 && req.cls == 2) || ((op == 2 || op == 3) && req.cls == 1))

/-- The completion of a capture request. -/
def capAnswer (s : State) (req : Req) (status op rseq len : Nat) (data : List Byte) : State :=
  complete s 7 0 req 0x0B ([byte status, byte op, 0#8, 0#8] ++ leBytes 4 rseq ++ leBytes 4 len ++ data)

/-- A completion that tells of no record: LEN 0, and an RSEQ the spec does not state (log entry 30). -/
def capAnswerNone (s : State) (req : Req) (status op : Nat) : State :=
  let (q, s) := s.draw
  capAnswer s req status op q 0 []

/-- RING mode: free the oldest records until `need` bytes fit (R462). -/
def capMakeRoom : Nat → Nat → State → State
  | 0, _, s => s
  | n + 1, need, s =>
    if capUsed s + need ≤ capSize s then s
    else capMakeRoom n need (bsnUpd (s.bump F.bsnCapstat_over 1) fun b => { b with cap := b.cap.tail })

/-- Write a record to the ring and complete its STORE (R460). -/
def capStore (s : State) (req : Req) (p : List Byte) : State :=
  let data := p.drop 8
  let n := data.length
  let bytes := leBytes 4 s.bsn.rseq ++ leBytes 4 s.rtcSec ++ [byte req.port, byte req.sub, byte req.dev, 0#8] ++ leBytes 4 n ++ data
  let q := s.bsn.rseq
  let s := capPut s s.bsn.capPos bytes
  let s := bsnUpd s fun b => { b with
    cap := b.cap ++ [⟨b.capPos, capRecSize n, q, n⟩]
    capPos := (b.capPos + capRecSize n) % capSize s
    rseq := (q + 1) % 2 ^ 32 }
  capAnswer s req St.ok 1 q n []

/-- One capture request; false when it is a STORE that has to wait for room (R462). -/
def capTry (s : State) (req : Req) (p : List Byte) : Bool × State :=
  let op := leAt p 0 1
  let n := p.length - 8
  if !capFormOk req p || (op == 1 && capSize s < capRecSize n) then
    (true, capAnswerNone s req St.badDescriptor op)
  else if op = 1 then
    if capUsed s + capRecSize n ≤ capSize s then (true, capStore s req p)
    else if s.get F.bsnCtrl_capmode = 1 then (true, capStore (capMakeRoom s.bsn.cap.length (capRecSize n) s) req p)
    else (false, s)
  else if op = 2 then
    match s.bsn.cap with
    | [] => (true, capAnswerNone s req St.ok 2)
    | r :: rs =>
      let data := capGet s r.pos (16 + r.len)
      (true, capAnswer (bsnUpd s fun b => { b with cap := rs }) req St.ok 2 r.rseq r.len data)
  else (true, capAnswerNone (bsnUpd s fun b => { b with cap := [] }) req St.ok 3)

/-- Take the waiting capture requests in order: none while the block is stopped (R24), and no STORE past one that still
does not fit (R462). -/
def capRetry (s : State) : State :=
  if noNewWork s 14 then s
  else
    let ws := s.bsn.capWait
    let s := bsnUpd s fun b => { b with capWait := [] }
    ws.foldl (fun s w =>
      if leAt w.2 0 1 = 1 ∧ (s.bsn.capWait.any fun x => leAt x.2 0 1 == 1) then
        bsnUpd s fun b => { b with capWait := b.capWait ++ [w] }
      else match capTry s w.1 w.2 with
        | (true, s) => s
        | (false, s) => bsnUpd s fun b => { b with capWait := b.capWait ++ [w] }) s

/-- A capture request of row `op` arrives at P7 (log entry 117): it waits behind an earlier STORE that does not fit, or for
CONFIG_START; a STORE that has to wait for room raises CAP_FULL (R462, log entry 135). -/
def capArrive (s : State) (op : Nat) (req : Req) (payload : List Byte) : State :=
  let wait := bsnUpd s fun b => { b with capWait := b.capWait ++ [(req, payload)] }
  if noNewWork s 14 then wait
  else if leAt payload 0 1 ≠ op then capAnswerNone s req St.badDescriptor (leAt payload 0 1)
  else if op = 1 ∧ !s.bsn.capWait.isEmpty then wait
  else match capTry s req payload with
    | (true, s) => if op = 1 then s else capRetry s
    | (false, s) => raise (bsnUpd s fun b => { b with capWait := b.capWait ++ [(req, payload)] }) 61 10

-- The commands --------------------------------------------------------------------------------------------

/-- BSN_CMD.APPLY (R453). -/
def bsnApplyOp (s : State) (src : Src) : State :=
  if applyOk s then
    (bsnUpd s fun b => { b with applyTo := partSizes s }).set F.bsnStat_applying 1 |>.set F.bsnStat_applied 0
  else cfgReject s src W.bsnCmd

/-- BSN_CMD.SAVE (R454): the sizes in force. -/
def bsnSaveOp (s : State) (src : Src) : State :=
  (nvSubmit s (.record recBasin (s.bsn.size.flatMap (leBytes 4))) false false (srcPort src) .none).2

/-- BSN_CMD.CAP_FLUSH (R461). -/
def bsnCapFlushOp (s : State) : State := capRetry (bsnUpd s fun b => { b with cap := [] })

/-- BSN_CMD.CLR_CNT. -/
def bsnClrCntOp (s : State) : State := s.set F.bsnCapstat_over 0

/-- APPLY (R453). -/
def execBsnApply (src : Src) (s : State) : Host.Outcome State Fault Refusal := .next (bsnApplyOp s src)

/-- APPLY_DONE (R454). -/
def execBsnApplyDone (s : State) : Host.Outcome State Fault Refusal :=
  .next <| if s.on F.bsnStat_applying then applyEnd s else s

/-- BSN_SAVE (R454). -/
def execBsnSave (src : Src) (s : State) : Host.Outcome State Fault Refusal := .next (bsnSaveOp s src)

/-- CAP_FLUSH (R461, R486). -/
def execBsnCapFlush (s : State) : Host.Outcome State Fault Refusal := .next (bsnCapFlushOp s)

/-- BSN_CLR_CNT (R486). -/
def execBsnClrCnt (s : State) : Host.Outcome State Fault Refusal := .next (bsnClrCntOp s)

/-- STORE (R460, R462, R463). -/
def execBsnStore (req : Req) (payload : List Byte) (s : State) : Host.Outcome State Fault Refusal :=
  .next (capArrive s 1 req payload)

/-- CAPTURE_READ (R461). -/
def execBsnCaptureRead (req : Req) (payload : List Byte) (s : State) : Host.Outcome State Fault Refusal :=
  .next (capArrive s 2 req payload)

/-- CAPTURE_FLUSH (R461). -/
def execBsnCaptureFlush (req : Req) (payload : List Byte) (s : State) : Host.Outcome State Fault Refusal :=
  .next (capArrive s 3 req payload)

end Sys2Proof.Machine
end

