-- ==== Sys2Proof/Machine/Crypto.lean ====
section
/-! DEFINITION. The cryptographic functions the spec names by standard: AES (FIPS 197), CTR, CMAC (SP 800-38B), GCM
(SP 800-38D), CCM (SP 800-38C), the key wrap of RFC 3394, the KDF of R304 (SP 800-108), CTR_DRBG with AES-256 and the
derivation function (SP 800-90A), SHA-256 (FIPS 180-4) and ECDSA over P-256 (FIPS 186-4). -/

namespace Sys2Proof.Machine

-- AES -----------------------------------------------------------------------------------------------

/-- Multiplication by x in GF(2^8). -/
def xtime (b : Byte) : Byte := (b <<< 1) ^^^ (if b.getLsbD 7 then 0x1B#8 else 0#8)

/-- Multiplication in GF(2^8): `n` low bits of `a`. -/
def gmulN : Nat → Byte → Byte → Byte
  | 0, _, _ => 0#8
  | n + 1, a, b => (if a.getLsbD 0 then b else 0#8) ^^^ gmulN n (a >>> 1) (xtime b)

def gmul (a b : Byte) : Byte := gmulN 8 a b

/-- The inverse in GF(2^8), x^254; 0 for 0. -/
def ginv (x : Byte) : Byte :=
  let x2 := gmul x x
  let x4 := gmul x2 x2
  let x8 := gmul x4 x4
  let x16 := gmul x8 x8
  let x32 := gmul x16 x16
  let x64 := gmul x32 x32
  let x128 := gmul x64 x64
  gmul x128 (gmul x64 (gmul x32 (gmul x16 (gmul x8 (gmul x4 x2)))))

/-- SubBytes of one byte and its inverse. -/
def sbox (x : Byte) : Byte :=
  let b := ginv x
  b ^^^ b.rotateLeft 1 ^^^ b.rotateLeft 2 ^^^ b.rotateLeft 3 ^^^ b.rotateLeft 4 ^^^ 0x63#8

def sboxInv (x : Byte) : Byte := ginv (x.rotateLeft 1 ^^^ x.rotateLeft 3 ^^^ x.rotateLeft 6 ^^^ 0x05#8)

/-- ShiftRows and its inverse on the 16 bytes, column by column. -/
def shiftRows (b : List Byte) : List Byte := (List.range 16).map fun i => b.getD ((i + 4 * (i % 4)) % 16) 0#8
def shiftRowsInv (b : List Byte) : List Byte := (List.range 16).map fun i => b.getD ((i + 12 * (i % 4)) % 16) 0#8

/-- One column times the circulant of `c`. -/
def mixColumn (c : List Byte) (col : List Byte) : List Byte :=
  (List.range 4).map fun i =>
    (List.range 4).foldl (fun a j => a ^^^ gmul (c.getD ((j + 4 - i) % 4) 0#8) (col.getD j 0#8)) 0#8

def mixColumns (c : List Byte) (b : List Byte) : List Byte := (List.range 4).flatMap fun k => mixColumn c (slice b (4 * k) 4)

/-- The key schedule: `n` more words after `ws` (newest first), `i` the index of the next word. -/
def expandKey : Nat → Nat → Nat → Byte → List (List Byte) → List (List Byte)
  | 0, _, _, _, ws => ws
  | n + 1, nk, i, rc, ws =>
    let prev := ws.headD []
    let back := ws.getD (nk - 1) []
    let t :=
      if i % nk = 0 then
        let r := (prev.drop 1 ++ prev.take 1).map sbox
        (r.headD 0#8 ^^^ rc) :: r.drop 1
      else if nk > 6 ∧ i % nk = 4 then prev.map sbox
      else prev
    expandKey n nk (i + 1) (if i % nk = 0 then xtime rc else rc) (xorBytes back t :: ws)

/-- The round keys of a 16- or 32-byte key, first round first. -/
def roundKeys (key : List Byte) : List (List Byte) :=
  let nk := key.length / 4
  let rounds := nk + 6
  let w0 := ((List.range nk).map fun i => slice key (4 * i) 4).reverse
  let ws := (expandKey (4 * (rounds + 1) - nk) nk nk 1#8 w0).reverse
  (List.range (rounds + 1)).map fun r => (ws.drop (4 * r)).take 4 |>.flatten

/-- Encrypt one block with round keys. -/
def aesEncRk (rks : List (List Byte)) (b : List Byte) : List Byte :=
  let n := rks.length - 1
  let b := xorBytes b (rks.headD [])
  let b := (rks.drop 1 |>.take (n - 1)).foldl (fun b rk => xorBytes (mixColumns [2#8, 3#8, 1#8, 1#8] (shiftRows (b.map sbox))) rk) b
  xorBytes (shiftRows (b.map sbox)) (rks.getD n [])

/-- Decrypt one block with round keys. -/
def aesDecRk (rks : List (List Byte)) (b : List Byte) : List Byte :=
  let n := rks.length - 1
  let b := (shiftRowsInv (xorBytes b (rks.getD n []))).map sboxInv
  let b := ((rks.drop 1).take (n - 1)).reverse.foldl
    (fun b rk => (shiftRowsInv (mixColumns [14#8, 11#8, 13#8, 9#8] (xorBytes b rk))).map sboxInv) b
  xorBytes b (rks.headD [])

/-- AES of one block under a 16- or 32-byte key. -/
def aesEnc (key b : List Byte) : List Byte := aesEncRk (roundKeys key) b
def aesDec (key b : List Byte) : List Byte := aesDecRk (roundKeys key) b

-- Blocks and counters ---------------------------------------------------------------------------------

/-- `bs` in blocks of 16 bytes, the last one possibly shorter. -/
def blocks16 (bs : List Byte) : List (List Byte) :=
  (List.range ((bs.length + 15) / 16)).map fun i => (bs.drop (16 * i)).take 16

/-- The counter block with its low `w` bits advanced by `n`. -/
def ctrAdd (w : Nat) (ctr : List Byte) (n : Nat) : List Byte :=
  let x := beNat ctr
  beBytes 16 (x - x % 2 ^ w + (x + n) % 2 ^ w)

/-- CTR over `bs` from a counter block, its counter field `w` bits wide. -/
def aesCtr (rks : List (List Byte)) (w : Nat) (ctr bs : List Byte) : List Byte :=
  (blocks16 bs).zipIdx.flatMap fun x => xorBytes x.1 (aesEncRk rks (ctrAdd w ctr x.2))

-- CMAC (SP 800-38B) --------------------------------------------------------------------------------------

/-- Doubling in GF(2^128), most significant bit first. -/
def dbl128 (b : List Byte) : List Byte :=
  let x := beNat b
  let y := (2 * x) % 2 ^ 128
  beBytes 16 (if x ≥ 2 ^ 127 then y ^^^ 0x87 else y)

/-- The chaining value after whole blocks. -/
def cmacChain (rks : List (List Byte)) (st : List Byte) (bs : List Byte) : List Byte :=
  (blocks16 bs).foldl (fun st b => aesEncRk rks (xorBytes st b)) st

/-- The tag from a chaining value and the last 0 to 16 bytes; `any` says earlier blocks exist. -/
def cmacLast (rks : List (List Byte)) (st last : List Byte) : List Byte :=
  let k1 := dbl128 (aesEncRk rks (zeros 16))
  if last.length = 16 then aesEncRk rks (xorBytes st (xorBytes last k1))
  else aesEncRk rks (xorBytes st (xorBytes (fit 16 (last ++ [0x80#8])) (dbl128 k1)))

/-- CMAC of a message. -/
def cmac (key bs : List Byte) : List Byte :=
  let rks := roundKeys key
  let n := if bs.isEmpty then 0 else 16 * ((bs.length - 1) / 16)
  cmacLast rks (cmacChain rks (zeros 16) (bs.take n)) (bs.drop n)

-- GCM (SP 800-38D) ------------------------------------------------------------------------------------------

/-- Multiplication in GF(2^128) with GCM's bit order, over the `n` top bits left of `x`. -/
def ghMulN : Nat → BitVec 128 → BitVec 128 → BitVec 128
  | 0, _, _ => 0#128
  | n + 1, x, v =>
    (if x.getLsbD 127 then v else 0#128)
      ^^^ ghMulN n (x <<< 1) ((v >>> 1) ^^^ (if v.getLsbD 0 then (0xE1#128 <<< 120) else 0#128))

def bv128 (bs : List Byte) : BitVec 128 := BitVec.ofNat 128 (beNat (fit 16 bs))

/-- GHASH continued from `y` over `bs` padded to blocks. -/
def ghash (h y : BitVec 128) (bs : List Byte) : BitVec 128 :=
  (blocks16 bs).foldl (fun y b => ghMulN 128 (y ^^^ bv128 b) h) y

/-- The hash subkey. -/
def ghKey (rks : List (List Byte)) : BitVec 128 := bv128 (aesEncRk rks (zeros 16))

/-- The full tag from the GHASH state and the lengths in bytes. -/
def gcmTag (rks : List (List Byte)) (iv : List Byte) (y : BitVec 128) (aadLen dataLen : Nat) : List Byte :=
  let y := ghash (ghKey rks) y (beBytes 8 (8 * aadLen) ++ beBytes 8 (8 * dataLen))
  xorBytes (beBytes 16 y.toNat) (aesEncRk rks (iv ++ beBytes 4 1))

/-- The keystream of GCM over `bs` from data block `blk` on. -/
def gcmCrypt (rks : List (List Byte)) (iv : List Byte) (blk : Nat) (bs : List Byte) : List Byte :=
  aesCtr rks 32 (iv ++ beBytes 4 (2 + blk)) bs

/-- GCM decryption of a whole message: the plaintext if the tag verifies. -/
def gcmOpen (key iv aad ct tag : List Byte) : Option (List Byte) :=
  let rks := roundKeys key
  let y := ghash (ghKey rks) (ghash (ghKey rks) 0#128 aad) ct
  if (gcmTag rks iv y aad.length ct.length).take tag.length = tag then some (gcmCrypt rks iv 0 ct) else none

-- CCM (SP 800-38C), 13-byte nonce, L = 2 --------------------------------------------------------------------

/-- The CBC-MAC of CCM. -/
def ccmMac (rks : List (List Byte)) (nonce aad msg : List Byte) (tagLen : Nat) : List Byte :=
  let flags := byte ((if aad.isEmpty then 0 else 64) + 8 * ((tagLen - 2) / 2) + 1)
  let b0 := flags :: nonce ++ beBytes 2 msg.length
  let a := if aad.isEmpty then [] else
    let l := if aad.length < 0xFF00 then beBytes 2 aad.length else [0xFF#8, 0xFE#8] ++ beBytes 4 aad.length
    let x := l ++ aad
    fit (16 * ((x.length + 15) / 16)) x
  let m := fit (16 * ((msg.length + 15) / 16)) msg
  cmacChain rks (zeros 16) (b0 ++ a ++ m)

/-- The tag as sent, and the CTR of the message. -/
def ccmTag (rks : List (List Byte)) (nonce aad msg : List Byte) (tagLen : Nat) : List Byte :=
  (xorBytes (ccmMac rks nonce aad msg tagLen) (aesEncRk rks (1#8 :: nonce ++ [0#8, 0#8]))).take tagLen

def ccmCrypt (rks : List (List Byte)) (nonce msg : List Byte) : List Byte :=
  aesCtr rks 16 (1#8 :: nonce ++ [0#8, 1#8]) msg

-- Key wrap (RFC 3394) -------------------------------------------------------------------------------------------

def kwIv : List Byte := List.replicate 8 0xA6#8

/-- One wrap step: `t` counts from 1; `a` is the integrity register and `r` the 8-byte blocks. -/
def kwStep (rks : List (List Byte)) (n : Nat) (x : List Byte × List (List Byte)) (t : Nat) : List Byte × List (List Byte) :=
  let i := (t - 1) % n
  let b := aesEncRk rks (x.1 ++ x.2.getD i [])
  (xorBytes (b.take 8) (beBytes 8 t), x.2.set i (b.drop 8))

def kwUnstep (rks : List (List Byte)) (n : Nat) (x : List Byte × List (List Byte)) (t : Nat) : List Byte × List (List Byte) :=
  let i := (t - 1) % n
  let b := aesDecRk rks (xorBytes x.1 (beBytes 8 t) ++ x.2.getD i [])
  (b.take 8, x.2.set i (b.drop 8))

def blocks8 (bs : List Byte) : List (List Byte) := (List.range (bs.length / 8)).map fun i => slice bs (8 * i) 8

/-- Wrap of a key whose length is a multiple of 8. -/
def keyWrap (kek key : List Byte) : List Byte :=
  let rks := roundKeys kek
  let n := key.length / 8
  let r := ((List.range (6 * n)).map (· + 1)).foldl (kwStep rks n) (kwIv, blocks8 key)
  r.1 ++ r.2.flatten

/-- Unwrap: the key if the integrity check passes. -/
def keyUnwrap (kek blob : List Byte) : Option (List Byte) :=
  let rks := roundKeys kek
  let n := blob.length / 8 - 1
  let r := ((List.range (6 * n)).map (· + 1)).reverse.foldl (kwUnstep rks n) (blob.take 8, blocks8 (blob.drop 8))
  if r.1 = kwIv then some r.2.flatten else none

-- KDF (R304) ------------------------------------------------------------------------------------------------------

/-- The label of Table 9.2. -/
def kdfLabel (domain purpose : String) (identity : List Byte) (epoch : Nat) : List Byte :=
  let asc := fun (s : String) => s.toList.map fun c => byte c.toNat
  asc domain ++ asc purpose ++ fit 16 identity ++ leBytes 4 epoch ++ zeros 4

/-- DERIVE: `bits` is 128 or 256. -/
def kdf (kb label : List Byte) (bits : Nat) : List Byte :=
  (List.range (bits / 128)).flatMap fun i => cmac kb ([byte (i + 1)] ++ label ++ [0#8] ++ beBytes 2 bits)

-- CTR_DRBG (SP 800-90A), AES-256, with derivation function -----------------------------------------------------------

/-- BCC of the derivation function. -/
def bcc (rks : List (List Byte)) (bs : List Byte) : List Byte := cmacChain rks (zeros 16) bs

/-- Block_Cipher_df to 48 bytes. -/
def drbgDf (inp : List Byte) : List Byte :=
  let s := beBytes 4 inp.length ++ beBytes 4 48 ++ inp ++ [0x80#8]
  let s := fit (16 * ((s.length + 15) / 16)) s
  let rks := roundKeys ((List.range 32).map byte)
  let t := (List.range 3).flatMap fun i => bcc rks (beBytes 4 i ++ zeros 12 ++ s)
  let rk := roundKeys (t.take 32)
  let x1 := aesEncRk rk (t.drop 32)
  let x2 := aesEncRk rk x1
  x1 ++ x2 ++ aesEncRk rk x2

/-- CTR_DRBG_Update: new (Key, V). -/
def drbgUpdate (data key v : List Byte) : List Byte × List Byte :=
  let rks := roundKeys key
  let t := (List.range 3).flatMap fun i => aesEncRk rks (ctrAdd 128 v (i + 1))
  let t := xorBytes t data
  (t.take 32, t.drop 32)

/-- Instantiate from entropy and nonce (64 bytes) and the personalisation string (R363). -/
def drbgInit (seed pers : List Byte) : List Byte × List Byte := drbgUpdate (drbgDf (seed ++ pers)) (zeros 32) (zeros 16)

/-- Reseed with 64 bytes. -/
def drbgReseed (seed key v : List Byte) : List Byte × List Byte := drbgUpdate (drbgDf seed) key v

/-- Generate `n` bytes, at most 32: the bytes and the new (Key, V). -/
def drbgGen (n : Nat) (key v : List Byte) : List Byte × List Byte × List Byte :=
  let rks := roundKeys key
  let b := (n + 15) / 16
  let out := (List.range b).flatMap fun i => aesEncRk rks (ctrAdd 128 v (i + 1))
  let (k, v) := drbgUpdate (zeros 48) key (ctrAdd 128 v b)
  (out.take n, k, v)

-- SHA-256 (FIPS 180-4, which R719 names) -------------------------------------------------------------------------------

/-- The integer `k`-th root of `x`, found bit by bit below bit `n`. -/
def intRoot (k x : Nat) : Nat → Nat → Nat
  | 0, r => r
  | n + 1, r => intRoot k x n (if (r + 2 ^ n) ^ k ≤ x then r + 2 ^ n else r)

/-- The first 32 bits of the fraction of the `k`-th root of `p`. -/
def rootFraction (k p : Nat) : W32 := BitVec.ofNat 32 (intRoot k (p * 2 ^ (32 * k)) 40 0)

/-- The primes below 312: the first 64. -/
def smallPrimes : List Nat := (List.range 312).filter fun p => decide (1 < p) && (List.range 18).all fun d => d < 2 || d == p || p % d != 0

/-- The round constants: from the cube roots of the first 64 primes. -/
def shaConstants : List W32 := smallPrimes.map (rootFraction 3)

/-- The first hash value: from the square roots of the first 8 primes. -/
def shaStart : List W32 := (smallPrimes.take 8).map (rootFraction 2)

/-- The exclusive or of a word rotated right by each amount. -/
def rotXor (x : W32) (ns : List Nat) : W32 := (ns.map x.rotateRight).foldl (· ^^^ ·) 0#32

/-- The message schedule, newest word first: each new word from those 2, 7, 15 and 16 before it. -/
def shaExtend (ws : List W32) : List W32 :=
  let back := fun n => ws.getD (n - 1) 0#32
  let lo := rotXor (back 15) [7, 18] ^^^ back 15 >>> 3
  let hi := rotXor (back 2) [17, 19] ^^^ back 2 >>> 10
  (back 16 + lo + back 7 + hi) :: ws

/-- One round: the eight working variables with the sum of its constant and its schedule word. -/
def shaRound (v : List W32) (kw : W32) : List W32 :=
  let x := fun n => v.getD n 0#32
  let choice := x 6 ^^^ (x 4 &&& (x 5 ^^^ x 6))
  let majority := (x 0 &&& x 1) ||| (x 2 &&& (x 0 ||| x 1))
  let t := x 7 + rotXor (x 4) [6, 11, 25] + choice + kw
  (t + rotXor (x 0) [2, 13, 22] + majority) :: x 0 :: x 1 :: x 2 :: (x 3 + t) :: [x 4, x 5, x 6]

/-- One 64-byte block. -/
def shaBlock (h : List W32) (b : List Byte) : List W32 :=
  let first := (List.range 16).map fun i => BitVec.ofNat 32 (beNat (slice b (60 - 4 * i) 4))
  let ws := ((List.range 48).foldl (fun ws _ => shaExtend ws) first).reverse
  List.zipWith (· + ·) h ((List.zipWith (· + ·) shaConstants ws).foldl shaRound h)

/-- The message with its padding: a 1 bit, zeros, and its length in bits. -/
def shaPad (m : List Byte) : List Byte := m ++ 0x80#8 :: zeros ((119 - m.length % 64) % 64) ++ beBytes 8 (8 * m.length)

def sha256 (m : List Byte) : List Byte :=
  let p := shaPad m
  ((List.range (p.length / 64)).foldl (fun h i => shaBlock h (slice p (64 * i) 64)) shaStart).flatMap fun w => beBytes 4 w.toNat

-- ECDSA over P-256 -----------------------------------------------------------------------------------------------------

def pP : Nat := 0xffffffff00000001000000000000000000000000ffffffffffffffffffffffff
def pN : Nat := 0xffffffff00000000ffffffffffffffffbce6faada7179e84f3b9cac2fc632551
def pB : Nat := 0x5ac635d8aa3a93e7b3ebbd55769886bc651d06b0cc53b0f63bce3c3e27d2604b
def pGx : Nat := 0x6b17d1f2e12c4247f8bce6e563a440f277037d812deb33a0f4a13945d898c296
def pGy : Nat := 0x4fe342e2fe1a7f9b8ee7eb4a7c0f9e162bce33576b315ececbb6406837bf51f5

/-- x to the power of the low `n` bits of `e`, modulo m. -/
def powMod (m : Nat) : Nat → Nat → Nat → Nat
  | 0, _, _ => 1
  | n + 1, x, e => (if e % 2 = 1 then x else 1) * powMod m n (x * x % m) (e / 2) % m

def invMod (m x : Nat) : Nat := powMod m 256 (x % m) (m - 2)

/-- Affine addition on P-256; `none` is the point at infinity. -/
def ecAdd (a b : Option (Nat × Nat)) : Option (Nat × Nat) :=
  match a, b with
  | none, q => q
  | p, none => p
  | some (x1, y1), some (x2, y2) =>
    if x1 = x2 ∧ (y1 + y2) % pP = 0 then none
    else
      let l := if x1 = x2 then (3 * x1 * x1 + pP - 3) * invMod pP (2 * y1) % pP
        else (y2 + pP - y1) * invMod pP (x2 + pP - x1) % pP
      let x3 := (l * l + 2 * pP - x1 - x2) % pP
      some (x3, (l * (x1 + pP - x3) + pP - y1) % pP)

/-- The multiple of a point by the low `n` bits of `k`. -/
def ecMul : Nat → Nat → Option (Nat × Nat) → Option (Nat × Nat)
  | 0, _, _ => none
  | n + 1, k, p => ecAdd (if k % 2 = 1 then p else none) (ecMul n (k / 2) (ecAdd p p))

/-- ECDSA verification of a SHA-256 digest; `pub` and `sig` are 64 bytes, big-endian halves. -/
def ecdsaVerify (pub digest sig : List Byte) : Bool :=
  let qx := beNat (pub.take 32)
  let qy := beNat (pub.drop 32)
  let r := beNat (sig.take 32)
  let t := beNat (sig.drop 32)
  let onCurve := decide (qx < pP) && decide (qy < pP)
    && (qy * qy) % pP == (qx * qx * qx + (pP - 3) * qx + pB) % pP
  if !onCurve || r == 0 || t == 0 || decide (pN ≤ r) || decide (pN ≤ t) then false
  else
    let w := invMod pN t
    let u1 := beNat digest * w % pN
    let u2 := r * w % pN
    match ecAdd (ecMul 256 u1 (some (pGx, pGy))) (ecMul 256 u2 (some (qx, qy))) with
    | none => false
    | some (x, _) => x % pN == r

end Sys2Proof.Machine
end

