-- ==== Sys2Proof/Machine/Flags.lean ====
section
/-! DEFINITION. The arithmetic and the flags of the Ivler-2 instructions (17_ivler_instructions.md): addition, subtraction
and shifts with their flags (R613, R616), the conditions (Table 17.5), the multiplies (R623), the CRC step (R626), parity and
bit reversal. CORESTAT is the word of Table 16.2. -/

namespace Sys2Proof.Machine

-- CORESTAT (Table 16.2) ------------------------------------------------------------------------------------------------

/-- Bits of CORESTAT. -/
abbrev Cs.z : Nat := 0
abbrev Cs.n : Nat := 1
abbrev Cs.c : Nat := 2
abbrev Cs.v : Nat := 3
abbrev Cs.ie : Nat := 4
abbrev Cs.wide : Nat := 8
abbrev Cs.wlock : Nat := 9
abbrev Cs.rep : Nat := 10
abbrev Cs.trap : Nat := 11
abbrev Cs.nmi : Nat := 12

/-- A bit of a CORESTAT word. -/
def csBit (w : W32) (i : Nat) : Bool := w.toNat.testBit i

/-- A CORESTAT word with one bit set from a truth value. -/
def csPut (w : W32) (i : Nat) (b : Bool) : W32 := wPut w i i (b2n b)

/-- Z and N from a result (R613). -/
def flagsZN (w r : W32) : W32 := csPut (csPut w Cs.z (r == 0#32)) Cs.n r.msb

/-- Z, N, C and V. -/
def flagsAll (w r : W32) (c v : Bool) : W32 := csPut (csPut (flagsZN w r) Cs.c c) Cs.v v

-- Addition and subtraction (R613, R615) ---------------------------------------------------------------------------------

/-- A sum with carry in: the result, the carry out of bit 31, and signed overflow. -/
def addFlags (a b : W32) (cin : Bool) : W32 × Bool × Bool :=
  let r := a + b + BitVec.ofNat 32 (b2n cin)
  (r, decide (2 ^ 32 ≤ a.toNat + b.toNat + b2n cin), decide (a.toInt + b.toInt + (b2n cin : Int) ≠ r.toInt))

/-- A difference with borrow in: the result, no borrow, and signed overflow. -/
def subFlags (a b : W32) (bin : Bool) : W32 × Bool × Bool :=
  let r := a - b - BitVec.ofNat 32 (b2n bin)
  (r, decide (b.toNat + b2n bin ≤ a.toNat), decide (a.toInt - b.toInt - (b2n bin : Int) ≠ r.toInt))

-- Shifts (R616) -----------------------------------------------------------------------------------------------------------

/-- The shift operations. -/
inductive ShOp where
  | shl | shr | sar | ror
  deriving DecidableEq, Repr

/-- A shift by `n`: the result, and C, where `c` is C as it stands. -/
def shiftFlags (op : ShOp) (a : W32) (n : Nat) (c : Bool) : W32 × Bool :=
  match op with
  | .ror => let k := n % 32; if k = 0 then (a, c) else let r := a.rotateRight k; (r, r.msb)
  | .shl => if n = 0 then (a, c) else (a <<< n, decide (n ≤ 32) && a.getLsbD (32 - n))
  | .shr => if n = 0 then (a, c) else (a >>> n, decide (n ≤ 32) && a.getLsbD (n - 1))
  | .sar => if n = 0 then (a, c) else (a.sshiftRight n, if n ≤ 32 then a.getLsbD (n - 1) else a.msb)

-- Conditions (Table 17.5) ---------------------------------------------------------------------------------------------------

/-- A condition under a CORESTAT word and BA. -/
def condHolds (w : W32) (ba : Bool) (cond : Nat) : Bool :=
  let z := csBit w Cs.z
  let n := csBit w Cs.n
  let c := csBit w Cs.c
  let v := csBit w Cs.v
  match cond with
  | 0 => z | 1 => !z | 2 => c | 3 => !c | 4 => n | 5 => !n | 6 => v | 7 => !v
  | 8 => c && !z | 9 => !c || z | 10 => n == v | 11 => n != v | 12 => !z && n == v | 13 => z || n != v
  | 14 => true | _ => ba

-- Multiply and character operations (R623, R626) -------------------------------------------------------------------------------

/-- The 64-bit product, signed or unsigned, as high and low words. -/
def mulWords (sgn : Bool) (a b : W32) : W32 × W32 :=
  let p : BitVec 64 := if sgn then BitVec.ofInt 64 (a.toInt * b.toInt) else BitVec.ofNat 64 (a.toNat * b.toNat)
  (p.extractLsb' 32 32, p.extractLsb' 0 32)

/-- One bit of a CRC step (R626): width `w`, polynomial `poly`, state `s`, data bit `d`. -/
def crcBit (w poly s : Nat) (d : Bool) : Nat :=
  let t := 2 * s % 2 ^ w
  if s.testBit (w - 1) != d then t ^^^ poly % 2 ^ w else t

/-- A CRC step over `n` bytes of `data`, byte 0 first and each byte most significant bit first (R626). -/
def crcStep (w poly rd data n : Nat) : Nat :=
  (List.range n).foldl (fun s k =>
    (List.range 8).foldl (fun s b => crcBit w poly s (data.testBit (8 * k + 7 - b))) s) (rd % 2 ^ w)

/-- The exclusive or of all bits. -/
def parity (a : W32) : Bool := (List.range 32).foldl (fun x i => x != a.getLsbD i) false

/-- The low `n` bits reversed, higher bits 0. -/
def bitRev (a : W32) (n : Nat) : W32 :=
  BitVec.ofNat 32 ((List.range n).foldl (fun x i => x + if a.getLsbD i then 2 ^ (n - 1 - i) else 0) 0)

/-- The low `n` bits sign-extended or zero-extended. -/
def extWord (sgn : Bool) (n x : Nat) : W32 := if sgn then BitVec.ofInt 32 (signed n (x % 2 ^ n)) else BitVec.ofNat 32 (x % 2 ^ n)

end Sys2Proof.Machine
end

