-- ==== Sys2Proof/Machine/Rng.lean ====
section
/-! DEFINITION. The random number unit (10_random_numbers.md): the health tests (R349), seeding and the pool (R350–R353),
failover and the fatal alarm (R355–R358), the expander instances (R363, R364), draws and waiting readers
(R359–R362, R366–R369). The rows that let other blocks' draws go on stand in RngRows.lean. -/

namespace Sys2Proof.Machine

/-- The device's 16-byte identity. -/
def devIdentity (s : State) : List Byte := wordsBytes s ((List.range 4).map W.secDevid)

/-- The state with the unit's part changed. -/
def rngUpd (s : State) (f : Rng → Rng) : State := { s with rng := f s.rng }

/-- The state code of a source: 0 off, 1 warm-up or start-up block, 2 in service, 3 restarting or retest. -/
def rngSrc (s : State) (i : Nat) : Nat := s.get (if i = 0 then F.rngStat_jstate else F.rngStat_ostate)

/-- Set a source's state, and ONE_SOURCE with it. -/
def rngSetSrc (s : State) (i v : Nat) : State :=
  let s := s.set (if i = 0 then F.rngStat_jstate else F.rngStat_ostate) v
  s.setB F.rngStat_oneSource (rngSrc s 0 == 3 || rngSrc s 1 == 3)

-- Draws ---------------------------------------------------------------------------------------------------

/-- What a draw brings: bits and the state after it, a wait (R359) with the state it waits in, or the fatal error indication
(R361). -/
inductive Drawn where
  | bits (b : List Byte) (s : State)
  | wait (s : State)
  | fatal
  deriving DecidableEq, Repr

/-- One generate request of `n` bytes, at most 32, of instance `i`; after 2^20 of them the instance reseeds (R364). -/
def rngDraw (s : State) (i n : Nat) : Drawn :=
  if s.on F.rngStat_fatal then .fatal
  else if !rngCan s i then .wait s
  else
    let x := s.rng.insts.getD i ⟨[], [], 0, false⟩
    let (out, key, v) := drbgGen n x.key x.v
    .bits out (rngUpd s fun r => { r with insts := r.insts.set i ⟨key, v, x.cnt + 1, decide (2 ^ 20 ≤ x.cnt + 1)⟩ })

/-- Up to `left` bytes after `got` from instance `i`, by requests of at most 32 bytes, until it has to be waited for. -/
def rngPart : Nat → State → Nat → Nat → List Byte → List Byte × State
  | 0, s, _, _, got => (got, s)
  | fuel + 1, s, i, left, got =>
    if left = 0 then (got, s)
    else match rngDraw s i (min left 32) with
      | .bits b s => rngPart fuel s i (left - min left 32) (got ++ b)
      | _ => (got, s)

/-- The mask draw at the start of a cipher operation (R300). -/
def maskDraw (s : State) : Drawn := rngDraw s 0 32

/-- The mask draws of `n` operations that one internal client carries out one after another (R300, log entry 28). -/
def maskDraws : Nat → State → Drawn
  | 0, s => .bits [] s
  | n + 1, s => match maskDraw s with
    | .bits _ s => maskDraws n s
    | d => d

/-- The mask draws of `n` operations of a client to which the spec gives no outcome without them (log entry 28). -/
def maskTake (n : Nat) (s : State) : State :=
  match maskDraws n s with
  | .bits _ t => t
  | .wait t => t
  | .fatal => s

-- The raw port (R369) -----------------------------------------------------------------------------------------

/-- Take 32 raw bits for a reader. -/
def rawTake (s : State) : Option (List Byte × State) :=
  (rawPick s).map fun i =>
    let b := s.rng.raw.getD i []
    (b.take 4, rngUpd s fun r => { r with raw := r.raw.set i (b.drop 4), rawTurn := 1 - i })

-- Waiting readers ---------------------------------------------------------------------------------------------

/-- The payload of a frame completion (R368). -/
def rngPayload (status : Nat) (bs : List Byte) : List Byte := [byte status, 0#8, 0#8, 0#8] ++ bs

/-- A register read completes: the value stands in RNG_DATA or RNG_RAW, and a load of the core that waits for it gets it
(R366), a memory CRC step as well (R626). -/
def rngRet (s : State) (host raw : Bool) (bs : List Byte) : State :=
  let x := leNat bs
  let s := s.setW (if raw then W.rngRaw else W.rngData) (BitVec.ofNat 32 x)
  match host, s.iv.load with
  | false, some l =>
    if l.rng = some raw then
      let rd := wGet s.iv.w l.rd
      let iv := match l.crc with
        | none => { s.iv with load := none, w := wSet s.iv.w l.rd (BitVec.ofNat 32 x) }
        | some ra =>
          let v := crcStep s.iv.crw.toNat s.iv.crp.toNat rd.toNat x 4
          { s.iv with load := none, w := wSet (wSet s.iv.w l.rd (BitVec.ofNat 32 v)) ra (wGet s.iv.w ra + 4#32) }
      { s with iv }
    else s
  | _, _ => s

/-- The completion of a MGMT frame (R511). -/
def mgmtDone (s : State) (req : Req) (sub op status ofs : Nat) (value : W32) : State :=
  complete s 15 sub req 0x10 ([byte status, byte op, 0#8, 0#8] ++ leBytes 4 ofs ++ leBytes 4 value.toNat)

/-- The instance a frame's source port selects (R368, Table 10.2). -/
def rngPortInst (p : Nat) : Option Nat :=
  if p = 12 then some 4 else if p = 8 then some 5 else if p = 9 ∨ p = 10 then some 6 else none

/-- 32 bits for a reader of RNG_DATA or RNG_RAW, 0 under the fatal alarm (R361); none while they are not ready. -/
def rngWord (s : State) (raw : Bool) (inst : Nat) : Option (List Byte × State) :=
  if s.on F.rngStat_fatal then some (zeros 4, s)
  else if raw then rawTake s
  else match rngDraw s inst 4 with
    | .bits b s => some (b, s)
    | _ => none

/-- A MGMT read of RNG_DATA or RNG_RAW completes with a value. -/
def rngMgmtRet (s : State) (req : Req) (sub ofs : Nat) (bs : List Byte) : State :=
  mgmtDone s req sub 1 St.ok ofs (BitVec.ofNat 32 (leNat bs))

/-- The debug port's read has got a word; it goes on with the next one when the port is served (Debug.lean). -/
def rngDebugRet (s : State) (bs : List Byte) : State :=
  { s with sec := { s.sec with dbgRd := s.sec.dbgRd.map fun d => (d.1 + 4, d.2.1 - 1, d.2.2 ++ bs) } }

/-- Try to complete one waiter: what still waits, none when it is done. -/
def rngTry (s : State) (w : RngWait) : Option RngWait × State :=
  match w with
  | .read host raw => match rngWord s raw (if host then 5 else 4) with
    | some (b, s) => (none, rngRet s host raw b)
    | none => (some w, s)
  | .mgmt req sub ofs raw => match rngWord s raw ((rngPortInst req.port).getD 4) with
    | some (b, s) => (none, rngMgmtRet s req sub ofs b)
    | none => (some w, s)
  | .debug raw => match rngWord s raw 4 with
    | some (b, s) => (none, rngDebugRet s b)
    | none => (some w, s)
  | .frame req len inst got =>
    if s.on F.rngStat_fatal then (none, complete s 15 26 req 0x06 (rngPayload St.rngFatal []))
    else
      let (got, s) := rngPart 8 s inst (len - got.length) got
      if len ≤ got.length then (none, complete s 15 26 req 0x06 (rngPayload St.ok got))
      else (some (.frame req len inst got), s)

/-- A reader arrives: it is served at once or waits (R354, R359). -/
def rngAsk (s : State) (w : RngWait) : State :=
  let (left, s) := rngTry s w
  rngUpd s fun r => { r with waits := r.waits ++ left.toList }

/-- Serve the waiting readers in arrival order (R359, R361). -/
def rngServe (s : State) : State := s.rng.waits.foldl rngAsk (rngUpd s fun r => { r with waits := [] })

-- Health tests (R349) -------------------------------------------------------------------------------------------

/-- The bits of a block, in the order of the source: byte by byte, least significant bit first. -/
def blockBits (b : List Byte) : List Bool := b.flatMap fun x => (List.range 8).map x.getLsbD

/-- The longest run of identical bits. -/
def longestRun (l : List Bool) : Nat :=
  (l.foldl (fun (x : Option Bool × Nat × Nat) b =>
    let n := if x.1 = some b then x.2.1 + 1 else 1
    (some b, n, max x.2.2 n)) (none, 0, 0)).2.2

/-- A block passes both tests. -/
def blockPasses (s : State) (b : List Byte) : Bool :=
  let l := blockBits b
  decide (longestRun l < s.get F.rngHtcfg_rctC)
    && decide ((l.filter fun x => some x == l.head?).length < s.get F.rngHtcfg_aptC)

-- Seeding -----------------------------------------------------------------------------------------------------------

/-- Seed instance `i` from 64 bytes (R363). -/
def rngSeed (s : State) (i : Nat) (seed : List Byte) : State :=
  let (key, v) := drbgInit seed (devIdentity s ++ [byte i])
  let s := rngUpd s fun r => { r with insts := r.insts.set i ⟨key, v, 0, false⟩ }
  s.set F.rngStat_seeded (setBit (s.get F.rngStat_seeded) i)

/-- A passed block: it seeds the two lowest unseeded instances (R353), or enters the pool, and what arrives while the
pool is full goes to the raw port (R351). -/
def rngUse (s : State) (src : Nat) (b : List Byte) : State :=
  match (List.range 8).filter fun i => !bitOf (s.get F.rngStat_seeded) i with
  | i :: j :: rest =>
    let s := rngSeed (rngSeed s i (b.take 64)) j (b.drop 64)
    if rest.isEmpty then s.set F.rngStat_started 1 else s
  | [i] => (rngSeed s i (b.take 64)).set F.rngStat_started 1
  | [] =>
    let room := 512 - s.rng.pool.length
    rngUpd s fun r => { r with pool := r.pool ++ b.take room
                               raw := if b.length ≤ room then r.raw else r.raw.set src (b.drop room) }

/-- Zeroise every instance and the pool; `off` also stops both sources (R357, R372). -/
def rngZero (s : State) : State :=
  let s := rngUpd s fun r => { r with pool := [], raw := [[], []], insts := State.reset.rng.insts, passed := [false, false] }
  rngSetSrc (rngSetSrc ((s.set F.rngStat_seeded 0).set F.rngStat_started 0) 0 0) 1 0

/-- The fatal alarm (R357). -/
def rngFatal (s : State) (cause : Nat) : State :=
  let s := ((rngZero s).set F.rngStat_fatal 1).set F.rngStat_fatalCause cause
  let log := s.get (F.evSrc_log 80)
  let s := (raise (s.set (F.evSrc_log 80) 0) 80 0).set (F.evSrc_log 80) log
  let s := logAppend1 s 80 0 0 (leBytes 4 (evWord s 80) ++ [byte (evOcc s (4096 + 80)), byte cause])
  rngServe s

/-- A source's block fails (R355, R356). -/
def rngFail (s : State) (i : Nat) : State :=
  let s := raise (s.bump (if i = 0 then F.rngFailcnt_jasper else F.rngFailcnt_opal) 1) 78 0
  let ts := ((s.rng.fails.getD i []).filter fun t => decide (s.now ≤ t + 1000000)) ++ [s.now]
  let s := rngUpd s fun r => { r with fails := r.fails.set i ts }
  if 4 ≤ ts.length then rngFatal s (i + 1)
  else if rngSrc s (1 - i) ≠ 2 then rngFatal s 3
  else rngSetSrc s i 3

/-- A source's block passes: a retest block brings the source back (R355). -/
def rngPass (s : State) (i : Nat) (b : List Byte) : State :=
  let back := rngSrc s i == 3
  let s := rngUpd (rngSetSrc s i 2) fun r => { r with passed := r.passed.set i true }
  rngUse (if back then raise s 79 0 else s) i b

/-- The blocks that end in one cycle (R349–R356): passes first, then failures. -/
def rngBlocks (s : State) (jasper opal : Option (List Byte)) : State :=
  let live := fun i => rngSrc s i != 0
  let bs := [(0, jasper), (1, opal)].filterMap fun x => if live x.1 then x.2.map fun b => (x.1, fit 128 b) else none
  let (ok, bad) := bs.partition fun x => blockPasses s x.2
  if bad.length = 2 then
    let cnt := fun (s : State) i => raise (s.bump (if i = 0 then F.rngFailcnt_jasper else F.rngFailcnt_opal) 1) 78 0
    rngFatal (cnt (cnt s 0) 1) 3
  else rngServe (bad.foldl (fun s x => rngFail s x.1) (ok.foldl (fun s x => rngPass s x.1 x.2) s))

/-- The start of Table 10.1. -/
def rngStart (s : State) : State := rngSetSrc (rngSetSrc (rngZero s) 0 1) 1 1

/-- An instance's reseed ends: 64 bytes from the pool (R364); it goes on waiting while the pool holds fewer. -/
def rngReseed (s : State) (i : Nat) : State :=
  let x := s.rng.insts.getD i ⟨[], [], 0, false⟩
  if !x.reseeding || s.rng.pool.length < 64 then s
  else
    let (key, v) := drbgReseed (s.rng.pool.take 64) x.key x.v
    rngServe ((rngUpd s fun r => { r with pool := r.pool.drop 64, insts := r.insts.set i ⟨key, v, 0, false⟩ }).bump F.rngRscnt_reseeds 1)

/-- STALL_TO for a reader (R360, R367). -/
def rngStall (s : State) (host : Bool) : State :=
  raise (s.set F.rngStat_stallTo (setBit (s.get F.rngStat_stallTo) (if host then 0 else 1))) 81 0

/-- A read of RNG_DATA or RNG_RAW (R366, R367, R369): in QSPI mode the host's never stalls. -/
def rngRead (s : State) (host raw : Bool) : State :=
  let t := rngAsk s (.read host raw)
  if host && s.hst.qspi && (rngTry s (.read host raw)).1.isSome then rngStall (rngRet s host raw (zeros 4)) true else t

-- The commands -----------------------------------------------------------------------------------------------------

/-- A read of RNG_DATA (R366, R367). -/
def execRngData (host : Bool) (s : State) : Host.Outcome State Fault Refusal := .next (rngRead s host false)

/-- A read of RNG_RAW (R369). -/
def execRngRaw (host : Bool) (s : State) : Host.Outcome State Fault Refusal := .next (rngRead s host true)

/-- A frame request is taken (R368). -/
def rngFrameTake (s : State) (req : Req) (payload : List Byte) : State :=
  let len := leAt payload 0 2
  match rngPortInst req.port with
  | some i =>
    if payload.length ≠ 4 ∨ leAt payload 2 2 ≠ 0 ∨ len % 4 ≠ 0 ∨ len < 4 ∨ 256 < len ∨ req.cls = 3 then
      complete s 15 26 req 0x06 (rngPayload St.badDescriptor [])
    else rngAsk s (.frame req len i [])
  | none => complete s 15 26 req 0x06 (rngPayload St.badDescriptor [])

/-- A frame request, kept queued while the unit is stopping or stopped (R24, R371). -/
def execRngFrame (req : Req) (payload : List Byte) (s : State) : Host.Outcome State Fault Refusal :=
  .next (if noNewWork s 26 then rngUpd s fun r => { r with held := r.held ++ [(req, payload)] } else rngFrameTake s req payload)

/-- CONFIG_START: the frame requests kept queued are taken. -/
def rngRelease (s : State) : State :=
  s.rng.held.foldl (fun s h => rngFrameTake s h.1 h.2) (rngUpd s fun r => { r with held := [] })

/-- RNG_CMD.CLR_STALL. -/
def execRngClrStall (s : State) : Host.Outcome State Fault Refusal := .next (s.set F.rngStat_stallTo 0)

/-- RNG_CMD.RESTART (R358): accepted only while FATAL is 1. -/
def rngRestartOp (s : State) : State :=
  if s.on F.rngStat_fatal then
    rngStart (rngUpd ((s.set F.rngStat_fatal 0).set F.rngStat_fatalCause 0) fun r => { r with fails := [[], []] })
  else s

def execRngRestart (s : State) : Host.Outcome State Fault Refusal := .next (rngRestartOp s)

/-- RNG_CMD.CLR_CNT. -/
def execRngClrCnt (s : State) : Host.Outcome State Fault Refusal :=
  .next ((s.setW W.rngFailcnt 0#32).setW W.rngRscnt 0#32)

end Sys2Proof.Machine
end

