-- ==== Sys2Proof/Machine/Saddle.lean ====
section
/-! DEFINITION. The release gate (02_release_gate.md): requests and their completion (R39–R42), term requests and
results (R43–R46), the transitions of Table 2.2 under the precedence of Table 2.3, and the watch on REL_FB (R64, R65).
Saddle decides in evaluation cycles (R33): the commands leave what they bring in `sad.inbox`, and `sadCycle` takes it. -/

namespace Sys2Proof.Machine

-- Small changes ----------------------------------------------------------------------------------------

/-- The state with Saddle's part changed. -/
def sadUpd (s : State) (f : Sad → Sad) : State := { s with sad := f s.sad }

/-- The R42 payload: STATUS, OP, STATE, REASON, FAILED_TERMS (Table 14.8). -/
def sadPayload (s : State) (op status : Nat) : List Byte :=
  [byte status, byte op, 0#8, 0#8, byte (sadState s), byte (s.get F.sadCause_reason)]
    ++ leBytes 2 (s.get F.sadCause_failedTerms)

/-- Complete a request (R41, R42): the status stands in SAD_CAUSE, a failed release raises DENY, and a frame is
answered. -/
def sadAnswer (s : State) (release : Bool) (w : Option SadWho) (status : Nat) : State :=
  let s := if release then s.set F.sadCause_status status else s
  let s := if release && status != St.ok then raise s 95 0 else s
  match w with
  | none => s
  | some w => complete s 14 0 w.req w.typ (sadPayload s w.op status)

/-- Complete every release request being judged. -/
def sadFinish (s : State) (status : Nat) : State :=
  let ws := s.sad.who
  ws.foldl (fun s w => sadAnswer s true w status) (sadUpd s fun x => { x with who := [] })

/-- Write SAD_CAUSE's REASON and FAILED_TERMS. -/
def sadCause (s : State) (reason failed : Nat) : State :=
  (s.set F.sadCause_reason reason).set F.sadCause_failedTerms failed

-- Term requests (R43) -----------------------------------------------------------------------------------

/-- Enabled channels that no enabled slot uses for keys or the depot card: the coils of the module census (log entry
12). -/
def moduleCoils (s : State) : Nat :=
  let used := (List.range 8).foldl (fun m n =>
    let ws := slotWords s n
    if sw ws 0 0 0 = 0 then m
    else
      let m := if bitOf (slReq ws) 0 || bitOf (slReq ws) 3 then m ||| slCoils ws else m
      if bitOf (slReq ws) 12 then setBit m (sw ws 8 5 0) else m) 0
  ((List.range 48).filter fun c => s.on (F.coilChCtrl_en c) && !bitOf used c).foldl setBit 0

/-- A CENSUS_AUTH job entry (Table 4.3). -/
def jobEntry (chmask dirgrp : Nat) : List Byte := [3#8, 0#8] ++ leBytes 6 chmask ++ [byte dirgrp] ++ zeros 7

/-- Send the C0 request of one AGED term (R43, R272, R474). Term 2 comes only from the vehicle, so its request sends no frame
and stands pending, as does one for term 1 when no key is known (log entry 122). FH_OPTAG k + 1 marks its result (log entry 13). -/
def sadSendTerm (s : State) (ws : List W32) (k : Nat) : State :=
  let s := sadUpd s fun x => { x with pend := sput x.pend k s.now }
  let job := fun m g => sendFrame s 14 0 (mkFrame 0x01 0 0 0xFF (thisDev s) (k + 1) (jobEntry m g))
  if k = 0 ∨ k = 3 then job (slCoils ws) 0xFF
  else if k = 4 then job (moduleCoils s) (sw ws 6 23 16)
  else if k = 12 then job (setBit 0 (sw ws 8 5 0)) 0xFF
  else if k = 1 ∧ t0Key s ≠ [] then
    let key := t0Key s
    let f := mkFrame 0x04 0 6 1 (thisDev s) 2
      (fit 8 key ++ [0#8, byte (s.get F.prxCtrl_step), byte (s.get F.prxCtrl_lfReq)] ++ zeros 5)
    sendFrame s 14 0 { f with revChk := true, dirIdx := dirFind s key }
  else s

/-- Term 0 is fresh and true. -/
def t0Ok (s : State) (ws : List W32) : Bool := ((agedFresh s ws 0).map fun r => r.val).getD false

/-- Request those of the terms `ks` that are not pending; while a release is judged, term 1 only once term 0 is fresh and
true (R43), and later for the key that satisfied term 0 (R46, R55). -/
def sadRequestTerms (s : State) (ws : List W32) (ks : List Nat) : State :=
  ks.foldl (fun s k =>
    if termPending s k || (k == 1 && sadState s != SS.released && !t0Ok s ws) then s else sadSendTerm s ws k) s

/-- The AGED terms of a mask that are stale or whose fresh result is false. -/
def agedMissing (s : State) (ws : List W32) (mask : Nat) : List Nat :=
  agedTerms.filter fun k => bitOf mask k && !termTrue s ws k

-- Term results (R43–R46) --------------------------------------------------------------------------------------

/-- The keys of a job that meet role bits on the channels of a mask (R47). -/
def keysMeeting (s : State) (r : TermRes) (coils roles : Nat) : List (List Byte) :=
  (r.keys.filter fun x => bitOf coils x.1 && ((dirUsable s x.2).map fun e => leAt e 10 1 &&& roles != 0).getD false).map
    fun x => x.2

/-- The usable key cards a job found at the depot coil (Table 5.3, term 12). -/
def depotCards (s : State) (r : TermRes) (coil : Nat) : List (List Byte) :=
  (r.keys.filter fun x => x.1 == coil && x.2.head? == some 2#8 && (dirUsable s x.2).isSome).map fun x => x.2

/-- Term 4 of a census: at most MISSING_MAX missing, every tag found authentic, none foreign (R47, Table 4.5), whatever the
job's STATUS; a completion that reports no census, being refused or cut short of Table 4.5, is not one. -/
def censusOk (ws : List W32) (r : TermRes) : Bool :=
  let p := r.payload
  r.typ == 0x81 && p.length == 24 && leAt p 0 1 != St.badDescriptor && decide (leAt p 18 2 ≤ sw ws 6 31 24)
    && leAt p 14 2 == leAt p 16 2 && leAt p 20 2 == 0

/-- Store a term's result and act on it: in ARMING a false one is requested once more and a second ends the attempt
(R44), a true term 0 lets term 1 be requested (R43); in RELEASED and HOLDING a false one is lost (R55). -/
def sadStore (s : State) (ws : List W32) (k : Nat) (val : Bool) (key : List Byte) : State :=
  let s := sadUpd s fun x => { x with res := sput x.res k ⟨val, s.now, key, false⟩, pend := sdel x.pend k }
  let st := sadState s
  if st = SS.arming then
    if val then
      if k = 0 ∧ bitOf (slReq ws) 1 then sadRequestTerms s ws (agedMissing s ws 2) else s
    else if !bitOf (slReq ws) k then s
    else if bitOf s.sad.tries k then sadUpd s fun x => { x with twice := setBit x.twice k }
    else sadRequestTerms (sadUpd s fun x => { x with tries := setBit x.tries k }) ws [k]
  else if st = SS.released ∨ st = SS.holding then
    if !bitOf (slHold ws) k then s
    else if val then sadUpd s fun x => { x with lost := clrBit x.lost k, timedOut := clrBit x.timedOut k }
    else sadUpd s fun x => { x with lost := setBit x.lost k, timedOut := clrBit x.timedOut k }
  else s

/-- A key presented on the active slot's KEYCOILS in POLL, when REQ_MASK holds term 0 and not term 2: a release
request. -/
def sadPresented (s : State) (ws : List W32) (r : TermRes) : Bool :=
  s.get F.pmStat_current == 5 && bitOf (slReq ws) 0 && !bitOf (slReq ws) 2
    && !(keysMeeting s r (slCoils ws) (sw ws 3 23 16)).isEmpty

/-- Take one term result (R43, R46). A program's notice (FH_OPTAG 0) brings what it found; its not finding a key says
nothing. Answers the new state and whether it is a release request. -/
def sadResult (s : State) (r : TermRes) : Bool × State :=
  let ws := sadWords s
  let k0 := keysMeeting s r (slCoils ws) (sw ws 3 23 16)
  let k3 := fun (s : State) => (keysMeeting s r (slCoils ws) (sw ws 3 31 24)).filter fun u => u != t0Key s
  if r.optag = 0 then
    if r.typ ≠ 0x81 then (false, s)
    else
      let asks := sadPresented s ws r
      let s := match k0 with
        | u :: _ => sadStore s ws 0 true u
        | [] => s
      let s := match k3 s with
        | u :: _ => sadStore s ws 3 true u
        | [] => s
      let s := match depotCards s r (sw ws 8 5 0) with
        | u :: _ => sadStore s ws 12 true u
        | [] => s
      let op := leAt r.payload 1 1
      let s := if r.dirgrp = sw ws 6 23 16 ∧ (op = 2 ∨ op = 3) then sadStore s ws 4 (censusOk ws r) [] else s
      (asks, s)
  else
    let k := r.optag - 1
    let put := fun (l : List (List Byte)) => (false, sadStore s ws k (!l.isEmpty) (l.headD []))
    if k = 0 then put k0
    else if k = 3 then put (k3 s)
    else if k = 12 then put (depotCards s r (sw ws 8 5 0))
    else if k = 4 then (false, sadStore s ws 4 (censusOk ws r) [])
    else if k = 1 then
      let p := r.payload
      let ok := r.typ == 0x84 && leAt p 0 1 == 0 && leAt p 1 1 == St.ok && decide (leAt p 4 2 ≤ sw ws 5 15 0)
      (false, sadStore s ws 1 ok (if r.typ = 0x84 then slice p 32 8 else t0Key s))
    else (false, s)

/-- A revoking change of a directory entry: the AGED results of its UID count as aged out (R473); in RELEASED the terms
are requested again (R55). -/
def sadAgeOut (s : State) (uid : List Byte) : State :=
  [0, 1, 3, 12].foldl (fun s k =>
    match sget s.sad.res k with
    | some r =>
      if r.key = uid then
        let s := sadUpd s fun x => { x with res := sput x.res k { r with expired := true } }
        if sadState s = SS.released ∧ bitOf (slHold (sadWords s)) k then sadRequestTerms s (sadWords s) [k] else s
      else s
    | none => s) s

-- Transitions (Table 2.2) ---------------------------------------------------------------------------------------

/-- Record the force causes that hold: the tamper cause with its inputs, and the decommission cause (R31). -/
def sadRecordForce (s : State) : State :=
  let s := if tamperClear s then s
    else kPut (kPut s K.tamper 1 1) K.tampIn 1 (kGet s K.tampIn 1 ||| s.get F.secTamp_latch)
  if s.get F.secStat_lc = 3 ∨ s.get F.secStat_lc = 4 then kPut s K.decom 1 1 else s

/-- No force cause is recorded (R32). -/
def noForceCause (s : State) : Bool := kGet s K.tamper 1 == 0 && kGet s K.decom 1 == 0

/-- One transition: the state, its event, its log record (R66, log entry 14) and what goes with the state entered; leaving
LOCKED or FORCED_LOCK ends a SLEEP entry (R642), and pulses that stop with REL_FB closed raise FB_FAULT (R65). -/
def sadGo (s : State) (dest : Nat) : State :=
  let from_ := sadState s
  let pulsed := s.on F.sadStat_pulsing
  let s := s.set F.sadStat_state dest
  let s := if dest = SS.holding then s else (s.set F.sadStat_forcePending 0).set F.sadStat_endPending 0
  let s :=
    if dest = SS.locked ∨ dest = SS.forced then
      sadUpd (s.set F.sadStat_pulsing 0) fun x =>
        { x with words := [], lost := 0, timedOut := 0, tries := 0, twice := 0, fbWait := false, fbBar := false, rngBar := false }
    else if dest = SS.released ∧ from_ = SS.arming then
      sadUpd (s.set F.sadStat_pulsing 1) fun x =>
        { x with fbWait := true, pulseAt := s.now, lost := 0, timedOut := 0, t8Was := true, fbBar := false, rngBar := false }
    else if dest = SS.released then sadUpd s fun x => { x with fbBar := false, rngBar := false }
    else s
  let s := if pulsed ∧ (dest = SS.locked ∨ dest = SS.forced) ∧ s.on F.sadStat_fbClosed then raise s 98 0 else s
  let s := if (from_ = SS.locked ∨ from_ = SS.forced) ∧ dest ≠ SS.locked ∧ dest ≠ SS.forced then pmEntryWake s 18 else s
  let s := if dest = SS.forced then raise s 97 0 else s
  let s := if dest = SS.holding ∧ from_ ≠ SS.holding then raise s 96 0 else s
  let s := raise s 94 0
  logAppend s 94 dest ([byte from_, byte dest, byte (s.get F.sadCause_reason)] ++ leBytes 2 (s.get F.sadCause_failedTerms))

/-- Terms false or pending of a mask. -/
def failedOf (s : State) (ws : List W32) (mask : Nat) : Nat := termMask fun k => bitOf mask k && !termTrue s ws k

/-- Hold terms false now: an AGED one counts once it is lost (R55, R59). -/
def holdFailed (s : State) (ws : List W32) : Nat :=
  termMask fun k => bitOf (slHold ws) k && (if isAged k then bitOf s.sad.lost k else !liveTerm s ws k)

/-- Hold terms lost other than 7, 9 and 10 (Table 2.2). -/
def holdLost (s : State) (ws : List W32) : Nat :=
  clrBit (clrBit (clrBit (holdFailed s ws) 7) 9) 10

/-- The status of a failed request (R41). -/
def sadStatus (s : State) (ws : List W32) : Nat :=
  let req := slReq ws
  let false_ := fun k => bitOf req k && k != 8 &&
    (if isAged k then (((agedFresh s ws k).map fun r => !r.val).getD false) || bitOf s.sad.tries k && !termTrue s ws k
     else !liveTerm s ws k)
  if !liveTerm s ws 10 then St.rngFatal
  else if bitOf req 5 && !liveTerm s ws 5 then St.creditExhausted
  else if (List.range 16).any false_ then St.policyDeny
  else if failedOf s ws req != 0 then St.timeout
  else St.releaseFbFault

/-- End the attempt or the release: cause, transition, then the requests still waiting (R42). -/
def sadEnd (s : State) (dest reason failed : Nat) : State :=
  let status := sadStatus s (sadWords s)
  sadFinish (sadGo (sadCause s reason failed) dest) status

/-- Enter ARMING for the requests given: the slot in force, FB_FAULT cleared, the missing AGED terms requested (R43,
R50). -/
def sadArm (s : State) (slot : Nat) (who : List (Option SadWho)) : State :=
  let ws := slotWords s slot
  let s := sadUpd (s.set F.sadStat_fbFault 0) fun x =>
    { x with who, armedAt := s.now, slot, words := ws, tries := 0, twice := 0, pend := [] }
  sadRequestTerms (sadGo s SS.arming) ws (agedMissing s ws (slReq ws))

/-- Enter HOLDING, or note a further cause in it (R59): REASON, FAILED_TERMS and the pending flags. -/
def sadHold (s : State) (reason : Nat) (force end_ : Bool) : State :=
  let failed := holdFailed s (sadWords s)
  let newForce := force && !s.on F.sadStat_forcePending
  let newEnd := end_ && !s.on F.sadStat_endPending
  let s := if newForce then raise (sadRecordForce (s.set F.sadStat_forcePending 1)) 97 0 else s
  let s := if newEnd then s.set F.sadStat_endPending 1 else s
  if sadState s ≠ SS.holding then sadGo (sadCause s reason failed) SS.holding
  else if newForce then sadGo (sadCause s reason failed) SS.holding
  else if newEnd then sadCause s reason failed
  else s

-- The evaluation cycle (R33, R38) ----------------------------------------------------------------------------------

/-- What a cycle has besides the sampled terms: end requests, and the expiries that fall in it. -/
structure SadTrig where
  ends  : List (Option SadWho)
  arm   : Bool
  fb    : Bool
  dwell : Bool
  deriving DecidableEq, Repr

/-- REASON of a force cause: 4 tamper, 5 decommission (R59). -/
def forceReason (s : State) : Nat := if tamperClear s then 5 else 4

/-- Deny release requests with POLICY_DENY and a REASON (R39, R40, Table 2.2). -/
def sadDeny (s : State) (reason failed : Nat) (rs : List (Option SadWho)) : State :=
  if rs.isEmpty then s
  else rs.foldl (fun s w => sadAnswer s true w St.policyDeny) (sadCause s reason failed)

/-- A cycle in LOCKED. -/
def cycLocked (s : State) (force : Bool) (rels : List (Option SadWho)) : State :=
  if force then
    let s := sadGo (sadRecordForce (sadCause s (forceReason s) (failedOf s [] 0x280))) SS.forced
    sadDeny s 10 (s.get F.sadCause_failedTerms) rels
  else if rels.isEmpty then s
  else match sadActive s with
    | none => sadDeny (sadGo (sadCause s 9 0) SS.locked) 9 0 rels
    | some n => sadArm s n rels

/-- The pulse trains start; with REL_FB showing the contactors closed already, the requests are confirmed at once (R41,
R64). -/
def sadPermit (s : State) : State :=
  let s := sadGo s SS.released
  if s.on F.sadStat_fbClosed then sadFinish (sadUpd s fun x => { x with fbWait := false }) St.ok else s

/-- A cycle in ARMING: Table 2.3 in order (R44, R45). -/
def cycArming (s : State) (force : Bool) (t : SadTrig) : State :=
  let ws := s.sad.words
  let req := slReq ws
  let failed := failedOf s ws req
  let liveBad := (List.range 16).any fun k => bitOf req k && !isAged k && k != 8 && !liveTerm s ws k
  if force then sadEnd (sadRecordForce s) SS.forced (forceReason s) failed
  else if !liveTerm s ws 10 then sadEnd s SS.locked 6 failed
  else if liveBad || s.sad.twice != 0 then sadEnd s SS.locked 1 failed
  else if failed == 0 then sadPermit s
  else if t.arm then sadEnd s SS.locked 2 failed
  else s

/-- The first REASON of R59 among the causes that hold; 0 when none does. -/
def holdReason (s : State) (force fb : Bool) (ends lost : Bool) : Nat :=
  if force then forceReason s else if !liveTerm s [] 10 then 6 else if fb then 7 else if ends then 8
  else if lost then 3 else 0

/-- REASON of a hold term lost while parked: 1 a term false, 2 when only requests timed out (log entry 15). -/
def lostReason (s : State) (lost : Nat) : Nat :=
  if (List.range 16).all fun k => !bitOf lost k || bitOf s.sad.timedOut k then 2 else 1

/-- A cycle in RELEASED (R54–R56, R59). -/
def cycReleased (s : State) (force : Bool) (t : SadTrig) : State :=
  let ws := s.sad.words
  let fb := t.fb && s.sad.fbWait
  let s := if fb then
      raise (sadUpd (s.set F.sadStat_fbFault 1) fun x => { x with fbWait := false }) 98 0
    else s
  let lost := holdLost s ws
  let t8 := liveTerm s ws 8
  let s := if (s.sad.t8Was && !t8) || holdFailed s ws != 0 then raise s 99 0 else s
  let s := sadUpd s fun x => { x with t8Was := t8 }
  let r := holdReason s force fb (!t.ends.isEmpty) (lost != 0)
  let failed := holdFailed s ws
  let s :=
    if r = 0 then s
    else if force && sadParked s then sadEnd (sadRecordForce s) SS.forced r failed
    else if liveTerm s ws 10 && sadParked s then
      sadEnd s SS.locked (if r = 3 then lostReason s lost else r) failed
    else
      let s := sadHold s r force (!t.ends.isEmpty)
      let s := sadUpd s fun x => { x with rngBar := x.rngBar || !liveTerm s ws 10, fbBar := x.fbBar || fb }
      if fb then sadFinish s (sadStatus s ws) else s
  t.ends.foldl (fun s w => sadAnswer s false w St.ok) s

/-- A cycle in HOLDING (R57–R61). When a pending flag is set, REASON is the first of R59 among the causes of this cycle. -/
def cycHolding (s : State) (force : Bool) (t : SadTrig) : State :=
  let ws := s.sad.words
  let fb := t.fb && s.sad.fbWait
  let s := if fb then
      sadFinish (raise (sadUpd (s.set F.sadStat_fbFault 1) fun x => { x with fbWait := false }) 98 0) (sadStatus s ws)
    else s
  let s := if liveTerm s ws 10 then s else sadUpd s fun x => { x with rngBar := true }
  let parked := sadParked s
  let failed := holdFailed s ws
  let ends := !t.ends.isEmpty
  let forceP := force || s.on F.sadStat_forcePending
  let endP := ends || s.on F.sadStat_endPending
  let s :=
    if forceP && parked then sadEnd (sadRecordForce s) SS.forced (if force then forceReason s else if kGet s K.tamper 1 = 1 then 4 else 5) failed
    else if endP && parked then sadEnd s SS.locked 8 failed
    else if (force && !s.on F.sadStat_forcePending) || (ends && !s.on F.sadStat_endPending) then
      sadHold s (holdReason s force fb ends (holdLost s ws != 0)) force ends
    else if t.dwell && s.on F.sadCtrl_vehEn && s.get F.sadCtrl_parkDwell != 0 && vehFresh s && s.sad.vehPark then
      sadEnd s SS.locked (s.get F.sadCause_reason) failed
    else if !forceP && !endP && !s.sad.rngBar && holdFailed s ws == 0
        && (!s.sad.fbBar || s.on F.sadStat_fbClosed) then sadGo s SS.released
    else s
  t.ends.foldl (fun s w => sadAnswer s false w St.ok) s

/-- A cycle in FORCED_LOCK. -/
def cycForced (s : State) (rels ends : List (Option SadWho)) : State :=
  let s := sadDeny s 10 (failedOf s [] 0x280) rels
  ends.foldl (fun s w => sadAnswer s false w St.ok) s

/-- Take the vehicle frames and term results waiting; answers the release and end requests among the inputs. -/
def sadTake (s : State) : List SadIn → List (Option SadWho) × List (Option SadWho) × State
  | [] => ([], [], s)
  | .release w :: l => let (r, e, s) := sadTake s l; (w :: r, e, s)
  | .endReq w :: l => let (r, e, s) := sadTake s l; (r, w :: e, s)
  | .vehicle park ctx time :: l =>
    let run := if park && vehFresh s && s.sad.vehPark then s.sad.parkAt else if park then some time else none
    sadTake (sadUpd s fun x =>
      { x with vehSeen := true, vehPark := park, vehCtx := ctx, vehAt := time, vehStale := false, parkAt := run }) l
  | .result r :: l =>
    let (asks, s) := sadResult s r
    let (rs, e, s) := sadTake s l
    (if asks then none :: rs else rs, e, s)

/-- Leave requests taken for a later cycle. -/
def sadPutBack (s : State) (rels ends : List (Option SadWho)) : State :=
  sadUpd s fun x => { x with inbox := rels.map .release ++ ends.map .endReq ++ x.inbox }

/-- The inputs of a cycle: answers its release and end requests. While the gate is stopping or stopped requests wait, and
only they (R27). -/
def sadInputs (s : State) : List (Option SadWho) × List (Option SadWho) × State :=
  let (rels, ends, s) := sadTake (sadUpd s fun x => { x with inbox := [] }) s.sad.inbox
  if noNewWork s 32 then ([], [], sadPutBack s rels ends) else (rels, ends, s)

/-- One evaluation cycle with the expiries that fall in it (R33, R38). -/
def sadCycle (s : State) (arm fb dwell : Bool) : State :=
  let (rels, ends, s) := sadInputs s
  let force := !tamperClear s || s.get F.secStat_lc != 2
  let st := sadState s
  if st = SS.locked then
    ends.foldl (fun s w => sadAnswer s false w St.ok) (cycLocked s force rels)
  else if st = SS.arming then
    let s := cycArming (sadUpd s fun x => { x with who := x.who ++ rels }) force ⟨ends, arm, fb, dwell⟩
    ends.foldl (fun s w => sadAnswer s false w St.ok) s
  else if st = SS.released then
    cycReleased (rels.foldl (fun s w => sadAnswer s true w St.ok) s) force ⟨ends, arm, fb, dwell⟩
  else if st = SS.holding then
    cycHolding (sadDeny s 10 (holdFailed s s.sad.words) rels) force ⟨ends, arm, fb, dwell⟩
  else cycForced s rels ends

/-- A release request reaches Saddle: in RELEASED it completes at once, in HOLDING and FORCED_LOCK it is denied at once,
in ARMING it joins the one being judged (R39); in LOCKED, or while the gate is stopping or stopped (R23, R27), a later
cycle takes it. -/
def sadRelease (s : State) (w : Option SadWho) : State :=
  let st := sadState s
  if noNewWork s 32 || st = SS.locked then sadUpd s fun x => { x with inbox := x.inbox ++ [.release w] }
  else if st = SS.arming then sadUpd s fun x => { x with who := x.who ++ [w] }
  else if st = SS.released then sadAnswer s true w St.ok
  else if st = SS.holding then sadDeny s 10 (holdFailed s s.sad.words) [w]
  else sadDeny s 10 (failedOf s [] 0x280) [w]

/-- An input for the next cycle. -/
def sadPost (s : State) (x : SadIn) : State := sadUpd s fun y => { y with inbox := y.inbox ++ [x] }

/-- HOLDUP entry: outputs low at once, the state recorded as LOCKED (R35, Table 2.3). -/
def sadHoldup (s : State) : State :=
  let st := sadState s
  if st = SS.locked ∨ st = SS.forced then s else sadGo (sadUpd s fun x => { x with who := [] }) SS.locked

/-- The start of the gate after a reset (R30). -/
def sadStart (s : State) : State :=
  let s := (s.setW W.sadStat 0#32).set F.sadStat_state (if noForceCause s then SS.locked else SS.forced)
  { s with sad := State.reset.sad }

/-- Record 0x0002: Saddle's settings, then the ten words of each slot and padding (R51). -/
def recSaddleWords : List Nat :=
  [W.sadCtrl, W.sadCtx, W.sadPulse, W.sadFb]
    ++ (List.range 8).flatMap fun n => (List.range 16).map fun k => W.sadPslotW0 n + 4 * k

/-- The slot words allow EN = 1 (R52). -/
def slotOk (ws : List W32) : Bool :=
  let req := sw ws 0 31 16
  !((bitOf req 1 || bitOf req 3) && !bitOf req 0)
    && !((bitOf req 0 || bitOf req 3) && slCoils ws == 0)
    && !(bitOf req 12 && decide (47 < sw ws 8 5 0))
    && !(bitOf req 14 && (decide (1439 < sw ws 9 10 0) || decide (1439 < sw ws 9 26 16)))

-- The commands ------------------------------------------------------------------------------------------------------

/-- EVALUATION_CYCLE (R33). -/
def execSadEvaluationCycle (s : State) : Host.Outcome State Fault Refusal := .next (sadCycle s false false false)

/-- TERM_RESULT (R43): taken by the next evaluation cycle. -/
def execSadTermResult (r : TermRes) (s : State) : Host.Outcome State Fault Refusal := .next (sadPost s (.result r))

/-- ARM_TIMEOUT (R38): the cycle in which the limit runs out; a term result in it still counts. -/
def execSadArmTimeout (s : State) : Host.Outcome State Fault Refusal := .next (sadCycle s true false false)

/-- PARK_DWELL (R37, R61): the cycle in which PARKED has been held for PARK_DWELL. -/
def execSadParkDwell (s : State) : Host.Outcome State Fault Refusal := .next (sadCycle s false false true)

/-- VEH_STALE (R36): the status is stale, which counts as motion and breaks the PARKED run. -/
def execSadVehStale (s : State) : Host.Outcome State Fault Refusal :=
  .next (sadUpd s fun x => { x with vehStale := true, parkAt := none })

/-- In RELEASED a hold term of age is requested again (R55). -/
def sadRefresh (s : State) (k : Nat) : State :=
  if sadState s = SS.released ∧ isAged k ∧ bitOf (slHold s.sad.words) k then sadRequestTerms s s.sad.words [k] else s

/-- The result of a term counts as aged out. -/
def sadExpire (s : State) (k : Nat) : State :=
  match sget s.sad.res k with
  | none => s
  | some r => sadUpd s fun x => { x with res := sput x.res k { r with expired := true } }

/-- TERM_MAXAGE (R55): the term counts as aged out, as one without a result does (SAD_AGE reads 0xFFFF_FFFF); in RELEASED a
hold term is requested again and stays true while the request runs. -/
def execSadTermMaxage (term : Nat) (s : State) : Host.Outcome State Fault Refusal := .next (sadRefresh (sadExpire s term) term)

/-- FB_WINDOW_EXPIRY (R64): the cycle in which the window ends. -/
def execSadFbWindowExpiry (s : State) : Host.Outcome State Fault Refusal := .next (sadCycle s false true false)

/-- REL_FB_CHANGE (R64, R65): REL_FB has held a new level for DEBOUNCE. -/
def execSadRelFbChange (level : Bool) (s : State) : Host.Outcome State Fault Refusal :=
  .next <|
    let closed := level != s.on F.sadFb_pol
    if closed == s.on F.sadStat_fbClosed then s
    else
      let s := s.setB F.sadStat_fbClosed closed
      if closed then
        if !s.on F.sadStat_pulsing then raise s 98 0
        else if s.sad.fbWait then sadFinish (sadUpd s fun x => { x with fbWait := false }) St.ok
        else s
      else if s.on F.sadStat_pulsing && !s.sad.fbWait then raise s 98 0
      else s

/-- The host's sources: BAR0, QSPI and MGMT frames from host ports. -/
def srcIsHost : Src → Bool
  | .host => true | .mgmtHost => true | _ => false

/-- SAD_CMD.REQUEST (R40): ignored from the host without HOSTREQ_EN. -/
def execSadRequest (src : Src) (s : State) : Host.Outcome State Fault Refusal :=
  .next <| if srcIsHost src && !s.on F.sadCtrl_hostreqEn then s else sadRelease s none

/-- SAD_CMD.END. -/
def execSadEnd (s : State) : Host.Outcome State Fault Refusal := .next (sadPost s (.endReq none))

/-- SAD_CMD.FORCE_CLEAR (R32): leaves FORCED_LOCK if terms 7 and 9 are true and no force cause is recorded. -/
def sadForceClear (s : State) : State :=
  if sadState s = SS.forced ∧ tamperClear s ∧ s.get F.secStat_lc = 2 ∧ noForceCause s then
    sadGo (sadCause s 0 0) SS.locked
  else s
def execSadForceClear (s : State) : Host.Outcome State Fault Refusal := .next (sadForceClear s)

/-- SAD_CMD.SAVE_POLICY (R51): in BLANK and PROVISIONED; refused elsewhere (log entry 16). -/
def savePolicyOp (src : Src) (s : State) : State :=
  if s.get F.secStat_lc < 2 then
    (nvSubmit s (.record recSaddle (wordsBytes s recSaddleWords)) true false (srcPort src) .none).2
  else cfgReject s src W.sadCmd

def execSadSavePolicy (src : Src) (s : State) : Host.Outcome State Fault Refusal := .next (savePolicyOp src s)

/-- SAD_CMD.RECHECK: every AGED term of the active slot is requested now (Table 2.10, R43). -/
def sadRecheck (s : State) : State :=
  let ws := sadWords s
  sadRequestTerms s ws (agedTerms.filter fun k => bitOf (slReq ws ||| slHold ws) k)
def execSadRecheck (s : State) : Host.Outcome State Fault Refusal := .next (sadRecheck s)

/-- The completion of a frame that Saddle refuses to take. -/
def sadBad (s : State) (w : SadWho) : State := complete s 14 0 w.req w.typ (sadPayload s w.op St.badDescriptor)

/-- A SADDLE_REQ frame is well formed (R512): class C1 or C2, OP alone in its first 8 bytes. A frame whose OP byte is not its
row's is one of an unknown OP (log entry 117). -/
def saddleReqOk (req : Req) (op : Nat) (payload : List Byte) : Bool :=
  (req.cls == 1 || req.cls == 2) && payload.take 8 == byte op :: zeros 7

/-- The host's release request of SADDLE_REQ (R40). -/
def sadAsk (s : State) (req : Req) (w : SadWho) : State :=
  if !s.on F.sadCtrl_hostreqEn && req.port != 12 then
    let st := sadState s
    let failed := if st = SS.released ∨ st = SS.holding then holdFailed s s.sad.words else failedOf s [] 0x280
    sadDeny s 10 failed [some w]
  else sadRelease s (some w)

/-- Saddle takes a frame: VEHICLE from P11 only (R737), KIND 2 making term 2 true from its arrival, or SADDLE_REQ with
OP 1 or 2 (R512). -/
def sadFrameRun (s : State) : SadFrame → State
  | .status req parked ctx =>
    if req.port ≠ 11 then sadBad s ⟨req, 0x08, 1⟩
    else complete (sadPost s (.vehicle parked (ctx % 4) s.now)) 14 0 req 0x08 (sadPayload s 1 St.ok)
  | .start req =>
    if req.port ≠ 11 then sadBad s ⟨req, 0x08, 2⟩
    else sadRelease (sadStore s (sadWords s) 2 true []) (some ⟨req, 0x08, 2⟩)
  | .stop req =>
    if req.port ≠ 11 then sadBad s ⟨req, 0x08, 3⟩ else sadPost s (.endReq (some ⟨req, 0x08, 3⟩))
  | .ask op req payload =>
    let w : SadWho := ⟨req, 0x0C, op⟩
    if !saddleReqOk req op payload then sadBad s w
    else if op = 1 then sadAsk s req w
    else sadPost s (.endReq (some w))

/-- A frame reaches P14: held while the gate is stopping or stopped (R23, R24), taken otherwise. -/
def sadFrame (s : State) (f : SadFrame) : State :=
  if noNewWork s 32 then sadUpd s fun x => { x with held := x.held ++ [f] } else sadFrameRun s f

/-- CONFIG_START of the gate: the frames held are taken in arrival order. -/
def sadResume (s : State) : State :=
  let fs := s.sad.held
  fs.foldl sadFrameRun (sadUpd s fun x => { x with held := [] })

/-- VEHICLE frame of KIND 1 (R737). -/
def execSadVehicleStatus (req : Req) (parked : Bool) (ctx : Nat) (s : State) : Host.Outcome State Fault Refusal :=
  .next (sadFrame s (.status req parked ctx))

/-- VEHICLE frame of KIND 2 (R737): a release request. -/
def execSadVehicleStart (req : Req) (s : State) : Host.Outcome State Fault Refusal := .next (sadFrame s (.start req))

/-- VEHICLE frame of KIND 3 (R737): an end request. -/
def execSadVehicleStop (req : Req) (s : State) : Host.Outcome State Fault Refusal := .next (sadFrame s (.stop req))

/-- SADDLE_REQ with OP 1 (R40, R512): the host's release request. -/
def execSaddleReqRelease (req : Req) (payload : List Byte) (s : State) : Host.Outcome State Fault Refusal :=
  .next (sadFrame s (.ask 1 req payload))

/-- SADDLE_REQ with OP 2 (R512): an end request. -/
def execSaddleReqEnd (req : Req) (payload : List Byte) (s : State) : Host.Outcome State Fault Refusal :=
  .next (sadFrame s (.ask 2 req payload))

/-- TERM_REFRESH_TIMEOUT (R55): ARM_TIMEOUT has passed since a hold term was requested again: it is lost. -/
def execSadTermRefreshTimeout (term : Nat) (s : State) : Host.Outcome State Fault Refusal :=
  .next <|
    if sadState s = SS.released ∧ isAged term ∧ bitOf (slHold s.sad.words) term ∧ termPending s term then
      sadUpd s fun x => { x with lost := setBit x.lost term, timedOut := setBit x.timedOut term, pend := sdel x.pend term }
    else s

end Sys2Proof.Machine
end

