-- ==== Sys2Proof/Machine/Ledger.lean ====
section
/-! DEFINITION. The lease ledger (03_lease_ledger.md): pulses (R67–R72), credit and its flags (R73–R77), tokens
(R78–R86), checkpoints and the restore of the keep set (R88–R92), reports and closing statements (R93–R95). -/

namespace Sys2Proof.Machine

/-- The state with the ledger's part changed. -/
def ledUpd (s : State) (f : Led → Led) : State := { s with led := f s.led }

/-- A signed Wh value cut to 32 bits with saturation (R77). -/
def whSat (x : Int) : Nat := unsigned 32 (max (-(2 ^ 31)) (min (2 ^ 31 - 1) x))

def ledCredit (s : State) : Int := wh (s.getW W.ledCredit)
def ledSetCredit (s : State) (x : Int) : State := s.set F.ledCredit_credit (whSat x)

/-- METER_K: 0 reads as 1,000. -/
def meterK (s : State) : Nat := if s.get F.ledCtrl_meterK = 0 then 1000 else s.get F.ledCtrl_meterK

/-- A 64-bit value in two registers. -/
def get64 (s : State) (lo hi : Nat) : Nat := (s.getW lo).toNat + 2 ^ 32 * (s.getW hi).toNat
def set64 (s : State) (lo hi v : Nat) : State := (s.setW lo (BitVec.ofNat 32 v)).setW hi (BitVec.ofNat 32 (v / 2 ^ 32))

-- Checkpoints (R88–R90) -----------------------------------------------------------------------------------

/-- INV of a nonce counter. -/
def ncInv (s : State) (c : Nat) : Nat := kGet s (K.nonce c + 8) 4

/-- Complete a token (R81, Table 14.8). -/
def tokComplete (s : State) (t : TokWait) : State :=
  let s := raise (s.set F.ledStat_tokenStatus t.status) 102 0
  complete s 14 1 t.req 0x09 ([byte t.status, byte t.typ, 0#8, 0#8] ++ leBytes 8 (get64 s W.ledSeqLo W.ledSeqHi)
    ++ leBytes 4 (s.getW W.ledCredit).toNat)

/-- What precedes every keep-set image: KSEQ advances (R89) and the abandon records clear (R389). -/
def keepSaveBegin (s : State) : State :=
  let s := s.wrapInc F.ledKseq_kseq
  (List.range 8).foldl (fun s i => s.setW (W.nvAbandon i) 0#32) (s.setW W.nvAbcnt 0#32)

/-- Page 3 of the passport as a save finds it (Table 6.3, R204); the group's size saturates at 255 (log entry 129). -/
def savePage (s : State) : List Byte :=
  let grp := match sadActive s with
    | some n =>
      let g := wBits (slotWord s n 6) 23 16
      (s.dir.entries.filter fun x => entLive x.2 && leAt x.2 11 1 == g).length
    | none => 0
  leBytes 4 (s.get F.ledLease_leaseId) ++ [byte (s.get F.secStat_lc), byte (sadState s), byte (min 255 grp), 0#8]
    ++ leBytes 4 s.rtcSec ++ leBytes 4 (s.getW W.ledKseq).toNat

/-- Start a checkpoint: both copies of pair KSEQ mod 16 (R89). While one runs, a further one follows it. Block protect 3
refuses it: the tokens that wait then complete NV_PROTECTED (R398, log entry 24). `pages` says the passport pages follow
it (R204). -/
def ckptStart (s : State) (pages : Bool) : State :=
  let s := ledUpd s fun l => { l with pageWant := l.pageWant || pages }
  if s.on F.ledStat_ckptBusy then ledUpd s fun l => { l with again := true }
  else if s.get F.nvProt_bp == 3 then
    let ts := s.led.tokNext
    ts.foldl (fun s t => tokComplete s { t with status := St.nvProtected }) (ledUpd (s.bump F.nvCnt_refused 1) fun l => { l with tokNext := [] })
  else
    let s := (keepSaveBegin s).set F.ledStat_ckptBusy 1
    let s := ledUpd s fun l => { l with
      tokNow := l.tokNext, tokNext := [], again := false, touched := false, pageNow := l.pageWant, pageWant := false, page3 := savePage s
      lifeSaved := kGet s K.life 8, savedAt := s.rtcSec }
    let s := { s with cph := { s.cph with ncCap := (List.range 64).map (ncInv s) } }
    let k := s.get F.ledKseq_kseq
    nvOwn s (.both (recKeep (k % 16)) k (keepBytes s)) true 14 .checkpoint

/-- Record 0x0002 takes the slot of a POLICY token, once the checkpoint that holds its effect has been written (R84, R85). -/
def policyWrite (s : State) : State :=
  let (ok, s) := nvSubmit s (.record recSaddle (wordsBytes s recSaddleWords)) true true 14 .policy
  if ok then s else ledUpd s fun l => { l with policy := none }

/-- A checkpoint ends (R84, R92, R327, R653). A torn one gives its tokens its status, their effect standing (log entry 123). -/
def ckptDone (s : State) (status : Nat) : State :=
  let ts := s.led.tokNow
  let s := (s.set F.ledStat_ckptBusy 0).set F.ledStat_conflict 0
  let s := if status = St.ok then { s with cph := { s.cph with ncSaved := s.cph.ncCap } } else s
  let s := if status = St.ok ∧ ¬ s.led.touched then s.set F.pmStat_keepDirty 0 else s
  let s := ts.foldl (fun s t => tokComplete s (if status = St.ok then t else { t with status })) (ledUpd s fun l => { l with tokNow := [] })
  let s := if ts.any fun t => t.typ == 3 && t.status == St.ok then policyWrite s else s
  if s.led.again then ckptStart s false else s

-- Credit and flags (R73–R77) -----------------------------------------------------------------------------------

/-- GRACE_EFF (R73). -/
def graceEff (s : State) : Nat := min (s.get F.ledGrace_graceWh) (s.get F.ledGcap_cap)

/-- Evaluate AVAIL and the flags (R73, R74). Entry to EXHAUSTED starts a checkpoint while the ledger runs, but not at the
first evaluation after a start. -/
def ledEval (s : State) : State :=
  let avail : Int := wh (BitVec.ofNat 32 (whSat (ledCredit s + graceEff s)))
  let ex := decide (avail ≤ 0)
  let low := decide (avail ≤ (s.get F.ledLowmark_lowmark : Int))
  let newEx := ex && !s.on F.ledStat_exhausted
  let newLow := low && !s.on F.ledStat_low
  let first := !s.led.evaluated
  let s := s.set F.ledAvail_avail (unsigned 32 avail)
  let s := ((s.setB F.ledStat_exhausted ex).setB F.ledStat_low low).setB F.ledStat_inGrace
    (decide (ledCredit s < 0) && decide (0 < avail))
  let s := ledUpd s fun l => { l with evaluated := true }
  let s := if newLow then raise s 100 0 else s
  if newEx then
    let s := raise s 101 0
    if first || isStopped s 34 then s else ckptStart s true
  else s

-- Pulses (R67–R72) -----------------------------------------------------------------------------------------------

/-- `n` discharge pulses (R68). -/
def ledDischarge (s : State) (n : Nat) : State :=
  if n = 0 then s
  else
    let s := set64 (keepTouch s) W.ledDpulseLo W.ledDpulseHi (get64 s W.ledDpulseLo W.ledDpulseHi + n)
    let acc := kGet s K.accD 4 + 1000 * n
    let w := acc / meterK s
    let s := kPut (kPut s K.accD 4 (acc % meterK s)) K.life 8 (kGet s K.life 8 + w)
    if s.on F.ledStat_open then ledSetCredit (s.bump F.ledLeasewh_leaseWh w) (ledCredit s - w) else s

/-- `n` charge pulses (R68, R69). -/
def ledCharge (s : State) (n : Nat) : State :=
  if n = 0 then s
  else
    let s := set64 (keepTouch s) W.ledCpulseLo W.ledCpulseHi (get64 s W.ledCpulseLo W.ledCpulseHi + n)
    let acc := kGet s K.accC 4 + 1000 * n
    let w := acc / meterK s
    let s := kPut s K.accC 4 (acc % meterK s)
    if s.on F.ledStat_open ∧ s.on F.ledCtrl_net then
      let back := min w (s.get F.ledLeasewh_leaseWh)
      ledSetCredit (s.set F.ledLeasewh_leaseWh (s.get F.ledLeasewh_leaseWh - back)) (ledCredit s + back)
    else s

/-- The pulses of each kind that the meter counters hold and the ledger has not taken yet. -/
def ledNew (s : State) : Nat × Nat :=
  ((s.get F.vioEpdcnt_count + 2 ^ 32 - s.led.takenD) % 2 ^ 32, (s.get F.vioEpccnt_count + 2 ^ 32 - s.led.takenC) % 2 ^ 32)

/-- The ledger applies pulses: not outside LISTEN, POLL and RUN (R72, R646), not at a start before the other copy of the pair is
written (R89), and not while a closing statement is (R94). -/
def ledCounts (s : State) : Bool :=
  decide (4 ≤ s.get F.pmStat_current) && !nvHoldup s && s.on F.clkStat_cfgDone && !s.led.copyB && !s.led.closing

/-- Every pulse not yet taken is converted (R67); the flags follow later. -/
def ledCatchUp (s : State) : State :=
  if !ledCounts s then s
  else
    let n := ledNew s
    let s := ledUpd s fun l => { l with takenD := s.get F.vioEpdcnt_count, takenC := s.get F.vioEpccnt_count }
    ledCharge (ledDischarge s n.1) n.2

/-- The flags after pulses, and the checkpoint due with 1,000 Wh since the last save (R74, R88). -/
def ledSettle (s : State) : State :=
  let s := ledEval s
  if s.led.lifeSaved + 1000 ≤ kGet s K.life 8 then ckptStart s false else s

/-- Apply every qualified pulse, if there is one (R67). -/
def ledApplyAll (s : State) : State := if ledNew s = (0, 0) || !ledCounts s then s else ledSettle (ledCatchUp s)

/-- Apply every qualified pulse, unless the ledger is stopped (R28). -/
def ledApply (s : State) : State := if isStopped s 34 then s else ledApplyAll s

-- Keys and seals -----------------------------------------------------------------------------------------------------

/-- The epoch in the label of a purpose: the lessor epoch for tokens and authorisations (R715), 0 for reports and statements,
whose rule names none (R93, R307). -/
def lessorEpoch (s : State) (purpose : String) : Nat :=
  if purpose = "LRPT" ∨ purpose = "LSTM" then 0 else s.get F.secEpoch_epoch

/-- The 256-bit key of a purpose under the installed lessor domain key (R304, R307, log entry 25). -/
def lessorKey (s : State) (purpose : String) : Option (List Byte) :=
  s.cph.domain.map fun kb => kdf kb (kdfLabel "LSSR" purpose (devIdentity s) (lessorEpoch s purpose)) 256

/-- Bytes 0 to 79 of a report or closing statement (Table 3.4). -/
def ledReportBody (s : State) (typ : Nat) (nonce : List Byte) : List Byte :=
  [byte typ, 0#8, 0#8, 0#8] ++ devIdentity s ++ leBytes 4 (s.getW W.ledLease).toNat
    ++ leBytes 8 (get64 s W.ledSeqLo W.ledSeqHi) ++ leBytes 8 (get64 s W.ledDpulseLo W.ledDpulseHi)
    ++ leBytes 8 (get64 s W.ledCpulseLo W.ledCpulseHi) ++ leBytes 4 (s.getW W.ledLeasewh).toNat
    ++ leBytes 4 (s.getW W.ledCredit).toNat ++ leBytes 4 s.rtcSec ++ leBytes 4 (s.getW W.ledKseq).toNat ++ fit 16 nonce

/-- A closing statement with its MAC; with no domain key installed the MAC's 16 bytes are free values (log entry 26). -/
def ledStatement (s : State) : List Byte × State :=
  let b := ledReportBody s 0x82 []
  match lessorKey s "LSTM" with
  | some k => (b ++ cmac k b, maskTake 2 s)
  | none => let (m, s) := s.drawBytes 16; (b ++ m, s)

/-- Steps 3 and 4 of a ledger close (R94), once the statement is written: the lease fields to 0, then the checkpoint. -/
def ledClosed (s : State) : State :=
  let s := kPut (ledUpd s fun l => { l with closing := false }) K.stmt 1 ((kGet s K.stmt 1 + 1) % 4)
  let s := [W.ledCredit, W.ledGrace, W.ledLeasewh, W.ledLease, W.ledWstart, W.ledWend].foldl (fun s o => s.setW o 0#32) s
  ckptStart (ledEval (s.set F.ledStat_open 0)) true

/-- Ledger close (R94): every qualified pulse, also in a stopped ledger, then the statement, in the place of the oldest (R95).
The ledger closes when the statement is written, so that a hold-up before leaves it open for the next start (R710). -/
def ledClose (s : State) : State :=
  let s := ledApplyAll s
  let (st, s) := ledStatement s
  match nvSubmit s (.record (recClosing (kGet s K.stmt 1 % 4)) st) true true 14 .closing with
  | (true, s) => ledUpd s fun l => { l with closing := true }
  | (false, s) => ledClosed s

-- Tokens (R78–R86) -----------------------------------------------------------------------------------------------------

/-- Token length by TYPE (Table 3.1). -/
def tokLen (typ : Nat) : Nat := if typ = 1 then 88 else if typ = 2 then 104 else if typ = 3 then 140 else 0

/-- Checks 1 to 3 of Table 3.3; `none` when they pass. -/
def tokCheck (s : State) (t : List Byte) : Option Nat :=
  let typ := leAt t 1 1
  let lc := s.get F.secStat_lc
  if leAt t 0 1 ≠ 1 ∨ tokLen typ = 0 ∨ leAt t 2 2 ≠ tokLen typ ∨ t.length ≠ tokLen typ then some St.tokenInvalid
  else if slice t 4 16 ≠ devIdentity s ∨ ¬ (lc = 1 ∨ lc = 2) then some St.tokenInvalid
  else if typ ≠ 2 ∧ ¬ (s.on F.ledStat_open ∧ leAt t 20 4 = s.get F.ledLease_leaseId) then some St.tokenInvalid
  else if s.cph.domain.isNone then some St.keyUnavailable
  else none

/-- A POLICY image's words. -/
def imageWords (b : List Byte) : List W32 := (List.range 16).map fun k => BitVec.ofNat 32 (leAt b (4 * k) 4)

/-- Step 8: body values in range, reserved bytes 0, those of the image's layout among them (Table 2.5), a POLICY image passes
R52. -/
def tokBodyOk (s : State) (typ : Nat) (b : List Byte) : Bool :=
  if typ = 1 then
    decide (leAt b 0 4 < 2 ^ 31) && decide (leAt b 4 4 < 2 ^ 31) && (slice b 8 8 == zeros 8)
      && decide (ledCredit s + leAt b 0 4 < 2 ^ 31)
  else if typ = 2 then
    decide (1 ≤ leAt b 8 2) && decide (leAt b 8 2 ≤ 10000) && decide (leAt b 10 1 ≤ 1) && (slice b 11 21 == zeros 21)
  else
    let ws := imageWords (b.drop 4)
    decide (leAt b 0 1 < 8) && (slice b 1 3 == zeros 3) && (slice b 10 2 == zeros 2) && (slice b 37 1 == zeros 1)
      && (slice b 44 24 == zeros 24)
      && (sw ws 0 0 0 == 0 || slotOk ws)

/-- The slot words of an image, with the RSV bits of Table 2.5 at 0. -/
def policyLoad (s : State) (n : Nat) (img : List Byte) : State :=
  (List.range 16).foldl (fun (s : State) k =>
    s.setW (W.sadPslotW0 n + 4 * k) (BitVec.ofNat 32 (leAt img (4 * k) 4) &&& slotMask k)) s

/-- The SEQ that record 0x0002 holds; 0 for none. -/
def saddleSeq (s : State) : Nat := ((recSelect s recSaddle).map fun r => r.seq).getD 0

/-- Step 9: the token's effect (R78, R85), in a ledger that has taken the pulses qualified before it; the flags follow both
changes (R76). -/
def tokApply (s : State) (t b : List Byte) : State :=
  let typ := leAt t 1 1
  if typ = 1 then
    ledEval ((ledSetCredit s (ledCredit s + leAt b 0 4)).set F.ledGrace_graceWh (leAt b 4 4))
  else if typ = 2 then
    let s := ((s.set F.ledLease_leaseId (leAt t 20 4)).set F.ledWstart_leaseStart (leAt b 0 4)).set F.ledWend_leaseEnd (leAt b 4 4)
    ledEval (((s.set F.ledCtrl_meterK (leAt b 8 2)).set F.ledCtrl_net (leAt b 10 1)).set F.ledStat_open 1)
  else
    let n := leAt b 0 1
    ledEval (ledUpd (policyLoad s n (b.drop 4)) fun l =>
      { l with policy := if s.get F.nvProt_bp = 3 then none else some (n, saddleSeq s, slice b 4 64) })

/-- Steps 6 to 9 for an authentic token (R82, R84, R86): it completes once its checkpoint is written. -/
def tokAuthentic (s : State) (req : Req) (t b : List Byte) : State :=
  let typ := leAt t 1 1
  let seq := leAt t 24 8
  if seq ≤ get64 s W.ledSeqLo W.ledSeqHi then tokComplete s ⟨req, typ, St.tokenReplay⟩
  else
    let s := set64 (keepTouch s) W.ledSeqLo W.ledSeqHi seq
    let s := if s.on F.ledStat_rtcUnsure then
        let s := if s.rtcSec < leAt t 32 4 then { s with rtc := 1000000 * leAt t 32 4 } else s
        s.set F.ledStat_rtcUnsure 0
      else s
    let u := ledCatchUp s
    let status :=
      if s.rtcSec < leAt t 36 4 ∨ leAt t 40 4 < s.rtcSec then St.tokenWindow
      else if !tokBodyOk u typ b then St.cfgReject
      else St.ok
    let s := if status = St.ok then tokApply u t b else s
    ckptStart (ledUpd s fun l => { l with tokNext := l.tokNext ++ [⟨req, typ, status⟩] }) true

/-- A report request (R93, Table 14.8). -/
def ledReport (s : State) (req : Req) (p : List Byte) : State :=
  let fail := fun (s : State) st => complete s 14 1 req 0x0C ([byte st, 3#8] ++ zeros 2)
  match lessorKey s "LRPT" with
  | none => fail s St.keyUnavailable
  | some k =>
    let b := ledReportBody s 0x81 (slice p 8 16)
    complete s 14 1 req 0x0C ([0#8, 3#8, 0#8, 0#8] ++ b ++ cmac k b)

/-- A token or report request that has its mask draws, of the key's derivation and of the seal or MAC (R300), waits for it (R81), or meets the fatal alarm. -/
def ledCrypto (s : State) (req : Req) (isTok : Bool) (p : List Byte) : State :=
  match maskDraws 2 s with
  | .fatal =>
    if isTok then tokComplete s ⟨req, leAt p 1 1, St.rngFatal⟩
    else complete s 14 1 req 0x0C ([byte St.rngFatal, 3#8] ++ zeros 2)
  | .wait s => ledUpd s fun l => { l with stalled := l.stalled ++ [(req, isTok, p)] }
  | .bits _ s =>
    if !isTok then ledReport s req p
    else
      let n := p.length
      match (lessorKey s "LTOK").bind fun k => gcmOpen k (slice p 44 12) (p.take 56) (slice p 56 (n - 72)) (p.drop (n - 16)) with
      | none => tokComplete s ⟨req, leAt p 1 1, St.authFail⟩
      | some b => tokAuthentic s req p b

/-- The waiting tokens and reports try again, in arrival order. -/
def ledResume (s : State) : State :=
  let ws := s.led.stalled
  ws.foldl (fun s w => ledCrypto s w.1 w.2.1 w.2.2) (ledUpd s fun l => { l with stalled := [] })

/-- The n-th waiting token or report has waited 2 ms (R81, R362). -/
def ledStall (s : State) (n : Nat) : State :=
  match s.led.stalled[n]? with
  | none => s
  | some (req, isTok, p) =>
    let s := ledUpd s fun l => { l with stalled := l.stalled.eraseIdx n }
    if isTok then tokComplete s ⟨req, leAt p 1 1, St.timeout⟩
    else complete s 14 1 req 0x0C ([byte St.timeout, 3#8] ++ zeros 2)

-- Restore at start (R86, R89, R91, R92) ----------------------------------------------------------------------------------

/-- The valid copy KSEQs of a pair. -/
def pairSeq (s : State) (p : Nat) : Option Nat :=
  match recCopy s (recKeep p) false, recCopy s (recKeep p) true with
  | none, none => none
  | some (a, _), none => some a
  | none, some (b, _) => some b
  | some (a, _), some (b, _) => some (max a b)

/-- The pair with the highest KSEQ that holds a valid copy (R91). -/
def bestPair (s : State) : Option Nat :=
  ((List.range 16).foldl (fun (best : Option (Nat × Nat)) p =>
    match pairSeq s p, best with
    | none, b => b
    | some q, none => some (p, q)
    | some q, some (p', q') => if q' < q then some (p, q) else some (p', q')) none).map fun x => x.1

/-- Both copies' lifetime counters into the event log (R92). -/
def logConflict (s : State) (a b : List Byte) : State :=
  let d := fun (x : List Byte) => slice x 0 8 ++ slice x 8 8
  logAppend1 (logAppend1 s 103 0 0 (d a)) 103 0 1 (d b)

/-- The keep set restored: answers whether one was, and the state. The other copy is rewritten when only one is valid or
newer (R89). -/
def ledRestore (s : State) : Bool × State :=
  match bestPair s with
  | none => (false, s)
  | some p =>
    let d := recKeep p
    match recSelect s d with
    | none => (false, s)
    | some r =>
      let s := keepLoad s r.payload
      let s := if r.conflict then
          match recCopy s d false, recCopy s d true with
          | some (_, a), some (_, b) => logConflict (raise (s.set F.ledStat_conflict 1) 103 0) a b
          | _, _ => s
        else if r.repair then ledUpd (nvOwn s (.copy d (!r.copyB) r.seq r.payload) true 14 .keepCopy) fun l => { l with copyB := s.get F.nvProt_bp != 3 }
        else s
      (true, s)

/-- A POLICY token's effect that a save holds and record 0x0002 does not, since it still has the SEQ of before, takes effect
and is written (R84). -/
def policyRestore (s : State) : State :=
  let n := kGet s K.policy 1
  if n = 0 ∨ 8 < n ∨ saddleSeq s ≠ kGet s (K.policy + 4) 4 then s
  else
    let img := memRead s.keep (K.policy + 8) 64
    policyWrite (ledUpd (policyLoad s (n - 1) img) fun l => { l with policy := some (n - 1, saddleSeq s, img) })

/-- The ledger's start: hidden values from the restored keep set; the RTC from the save when the always-on domain has
lost its time (R86). The meter counters outlive every reset but the loss of the always-on domain, from which they count anew
(R741), and the keep set says how much of them its counters hold, so pulses since the save are applied again (R646, R677). -/
def ledStart (s : State) (restored rtcLost : Bool) : State :=
  let s := if rtcLost ∧ restored then { s with rtc := 1000000 * kGet s K.time 4 } else s
  let s := if rtcLost then s.set F.ledStat_rtcUnsure 1 else s
  policyRestore { s with led := { State.reset.led with
      lifeSaved := kGet s K.life 8, savedAt := if restored then kGet s K.time 4 else s.rtcSec
      takenD := if rtcLost then 0 else kGet s K.takenD 4, takenC := if rtcLost then 0 else kGet s K.takenC 4
      copyB := s.led.copyB, recCtrl := s.led.recCtrl } }

-- The commands -----------------------------------------------------------------------------------------------------------

/-- PULSE_APPLY (R67, R68). -/
def execLedPulseApply (s : State) : Host.Outcome State Fault Refusal := .next (ledApply s)

/-- CHECKPOINT_DUE (R88): 24 h have passed since the last save. -/
def execLedCheckpointDue (s : State) : Host.Outcome State Fault Refusal := .next (ckptStart s false)

/-- LED_CMD.CHECKPOINT (R88). -/
def execLedCheckpoint (s : State) : Host.Outcome State Fault Refusal := .next (ckptStart s true)

/-- A token or report request is taken up (R81, R93, R512). -/
def ledTake (s : State) (req : Req) (isTok : Bool) (p : List Byte) : State :=
  if isTok then
    match tokCheck s p with
    | some st => tokComplete s ⟨req, leAt p 1 1, st⟩
    | none => ledCrypto s req true p
  else if !saddleReqOk req 3 p || p.length != 24 then
    complete s 14 1 req 0x0C ([byte St.badDescriptor, 3#8] ++ zeros 2)
  else ledCrypto s req false p

/-- A frame reaches the ledger: it waits while the ledger is stopping or stopped (R23, R24), a token also while an earlier
POLICY token's slot is not yet in its record (log entry 124). -/
def ledFrame (s : State) (req : Req) (isTok : Bool) (p : List Byte) : State :=
  if noNewWork s 34 || (isTok && s.led.policy.isSome) then ledUpd s fun l => { l with held := l.held ++ [(req, isTok, p)] }
  else ledTake s req isTok p

/-- The frames that waited are taken in arrival order. -/
def ledRelease (s : State) : State :=
  let ws := s.led.held
  ws.foldl (fun s w => ledFrame s w.1 w.2.1 w.2.2) (ledUpd s fun l => { l with held := [] })

/-- Record 0x0002 with a POLICY token's slot is written: tokens that waited for it go on. -/
def policyDone (s : State) : State := ledRelease (ledUpd s fun l => { l with policy := none })

/-- A TOKEN frame (R81). -/
def execLedTokenFrame (req : Req) (token : List Byte) (s : State) : Host.Outcome State Fault Refusal :=
  .next (ledFrame s req true token)

/-- SADDLE_REQ with OP 3 (R93, R512): the ledger report under the host's nonce. -/
def execSaddleReqReport (req : Req) (payload : List Byte) (s : State) : Host.Outcome State Fault Refusal :=
  .next (ledFrame s req false payload)

/-- Record 0x0003: NET and METER_K as written through the registers, and LOWMARK (R796). -/
def recLedgerBytes (s : State) : List Byte := fit 16 (leBytes 4 s.led.recCtrl.toNat ++ leBytes 4 (s.getW W.ledLowmark).toNat)

/-- CONFIG_START of the ledger: record 0x0003 if its fields were written, the flags, the pulses held, then the frames in arrival
order (R28, R796). -/
def ledConfigStart (s : State) : State :=
  let s := if s.led.recDirty then
      nvOwn (ledUpd s fun l => { l with recDirty := false }) (.record recLedger (recLedgerBytes s)) true 14 .none
    else s
  ledRelease (ledApply (ledEval (ledUpd s fun l => { l with gate := none })))

/-- The ledger becomes stopped: the gate keeps AVAIL and EXHAUSTED as last reported (R28). -/
def ledStopped (s : State) : State :=
  ledUpd s fun l => { l with gate := some (s.getW W.ledAvail, s.on F.ledStat_exhausted) }

/-- A register write of the ledger's settings: record 0x0003 is due, LED_CTRL as written (R796); a change of GRACE_EFF or of
LOW's threshold moves the flags (R74). -/
def ledRegChanged (s : State) (off : Nat) : State :=
  let s := if off = W.ledGcap then s else ledUpd s fun l => { l with recDirty := true }
  if off = W.ledCtrl then keepTouch (ledUpd s fun l => { l with recCtrl := s.getW W.ledCtrl }) else ledEval s

end Sys2Proof.Machine
end

