-- ==== Sys2Proof/Machine/Cipher.lean ====
section
/-! DEFINITION. The cipher engine (09_cipher_engine.md): requests and their checks (Table 9.6), handles and key classes
(R309–R314), nonce counters (R324–R327), streams and holding (R320, R329–R333), the scheduler with suspension (R322,
R335, R336), context save and restore (R338–R340) and the lessor domain key (R315–R317). -/

namespace Sys2Proof.Machine

/-- The state with the engine's part changed. -/
def cphUpd (s : State) (f : Cph → Cph) : State := { s with cph := f s.cph }

-- Header fields (Table 9.4) --------------------------------------------------------------------------

abbrev hOp (d : List Byte) : Nat := leAt d 0 1
abbrev hFlag (d : List Byte) (i : Nat) : Bool := bitOf (leAt d 1 1) i
abbrev hFirst (d : List Byte) : Bool := hFlag d 0
abbrev hLast (d : List Byte) : Bool := hFlag d 1
abbrev hDec (d : List Byte) : Bool := hFlag d 2
abbrev hIvCtr (d : List Byte) : Bool := hFlag d 3
abbrev hKlen (d : List Byte) : Bool := hFlag d 4
abbrev hKh (d : List Byte) : Nat := leAt d 2 1
abbrev hKhB (d : List Byte) : Nat := leAt d 3 1
abbrev hNctr (d : List Byte) : Nat := leAt d 4 1
abbrev hTagLen (d : List Byte) : Nat := leAt d 5 1
abbrev hStream (d : List Byte) : Nat := leAt d 6 1
abbrev hCtrw (d : List Byte) : Nat := leAt d 7 1
abbrev hAadLen (d : List Byte) : Nat := leAt d 8 2
abbrev hDataLen (d : List Byte) : Nat := leAt d 12 4
abbrev hAad (d : List Byte) : List Byte := (d.drop 64).take (hAadLen d)
abbrev hData (d : List Byte) : List Byte := d.drop (64 + hAadLen d)
abbrev hMsgLen (d : List Byte) : Nat := leAt d 48 4
abbrev hTag (d : List Byte) : List Byte := slice d 32 (hTagLen d)

namespace Op

abbrev gcm := 0x01
abbrev ccm := 0x02
abbrev cmac := 0x03
abbrev ctr := 0x04
abbrev ecb := 0x05
abbrev ecbKey := 0x06
abbrev derive := 0x07
abbrev loadKey := 0x08
abbrev freeKey := 0x09
abbrev wrap := 0x0A
abbrev unwrap := 0x0B
abbrev nonceAlloc := 0x0C
abbrev nonceFree := 0x0D
abbrev saveCtx := 0x0E
abbrev restoreCtx := 0x0F
abbrev domainInstall := 0x10
abbrev domainClear := 0x11

end Op

/-- Operations on a stream of segments (R320). -/
def opStreams (op : Nat) : Bool := op == Op.gcm || op == Op.cmac || op == Op.ctr

/-- Operations that name a stream. -/
def opNamesStream (op : Nat) : Bool := opStreams op || op == Op.saveCtx || op == Op.restoreCtx

/-- Operations that run on a core; the others only change handles and counters. -/
def opNeedsCore (op : Nat) : Bool :=
  !(op == Op.loadKey || op == Op.freeKey || op == Op.nonceAlloc || op == Op.nonceFree || op == Op.domainClear)

/-- Operations that need a key in KH. -/
def opUsesKh (op : Nat) : Bool :=
  op == Op.ccm || op == Op.ecb || op == Op.ecbKey || op == Op.freeKey || op == Op.wrap || op == Op.unwrap
    || op == Op.nonceAlloc || op == Op.domainInstall

/-- Operations that load a key into KH_B. -/
def opLoads (op : Nat) : Bool := op == Op.ecbKey || op == Op.derive || op == Op.loadKey || op == Op.unwrap

-- Owners (R303, R310) --------------------------------------------------------------------------------------

/-- External clients: P8, P9, P10 and P12. -/
def cphExt (r : Req) : Bool := r.port == 8 || r.port == 9 || r.port == 10 || r.port == 12

def cphOwner (r : Req) : CphOwner := if cphExt r then ⟨true, r.dev, r.port⟩ else ⟨false, r.port, r.sub⟩

def cphKey (s : State) (h : Nat) : Option CphKey := sget s.cph.handles h
def cphStream (s : State) (n : Nat) : Option CphStream := sget s.cph.streams n

-- Nonce counters (R324–R327) ---------------------------------------------------------------------------------

/-- A counter is allocated; its bound handle; its owner. -/
def ncAlloc (s : State) (c : Nat) : Bool := kGet s (K.nonce c + 15) 1 % 2 == 1
def ncKh (s : State) (c : Nat) : Nat := kGet s (K.nonce c + 12) 1
def ncOwner (s : State) (c : Nat) : CphOwner :=
  let p := kGet s (K.nonce c + 13) 1
  let x := kGet s (K.nonce c + 14) 1
  if kGet s (K.nonce c + 15) 1 / 2 % 2 = 1 then ⟨true, x, p⟩ else ⟨false, p, x⟩

/-- The lowest free counter of the requester's range. -/
def ncFree (s : State) (ext : Bool) : Option Nat :=
  (List.range 64).find? fun c => decide (16 ≤ c) == ext && !ncAlloc s c

-- Keys the engine derives itself ----------------------------------------------------------------------------------

/-- A ROOT-derived 256-bit key of this chapter. -/
def rootKey (s : State) (purpose : String) (epoch : Nat) : List Byte :=
  kdf s.sec.root (kdfLabel "ROOT" purpose (devIdentity s) epoch) 256

/-- The domain key changed (R316, R198): LESSOR_DERIVED handles and streams go, the passport key follows. -/
def domainChanged (s : State) (key : Option (List Byte)) (epoch : Nat) : State :=
  let gone := (s.cph.streams.filter fun x => x.2.cls == 1).map fun x => (x.1, x.2.owner)
  let s := cphUpd s fun c => { c with
    domain := key
    handles := c.handles.filter fun h => h.2.cls != 1
    streams := c.streams.filter fun x => x.2.cls != 1
    lost := c.lost ++ gone }
  let s := { s with pt := { s.pt with kpDue := some epoch } }
  raise s 77 2

/-- The blob of the lessor domain key with its epoch: record 0x0009 (R315). -/
def domainRecord (s : State) (key : List Byte) (epoch : Nat) : List Byte :=
  fit 48 (keyWrap (rootKey s "KEKL" epoch) key ++ leBytes 4 epoch)

/-- Store a domain key; what follows its completion is `domainDone`. Refused, the status is NV_PROTECTED at once. -/
def domainStore (s : State) (req : Req) (sec : Bool) (core epoch : Nat) (key : List Byte) : Bool × State :=
  nvSubmit s (.record recDomain (domainRecord s key epoch)) true false req.port (.domain req sec core epoch key)

/-- The domain key at a start (R317); without one the passport's key cells are to be cleared (R198). -/
def domainLoad (s : State) : State :=
  let clear := fun (s : State) => { s with pt := { s.pt with kpDue := some 0 } }
  match recSelect s recDomain with
  | none => clear s
  | some r =>
    let epoch := leAt r.payload 40 4
    match keyUnwrap (rootKey s "KEKL" epoch) (r.payload.take 40) with
    | some k => cphUpd s fun c => { c with domain := some k }
    | none => raise (clear s) 77 2

-- Completions (Table 9.5) ---------------------------------------------------------------------------------------------

/-- What a completion carries besides the request. -/
structure CphOut where
  status : Nat
  core   : Nat
  flags  : Nat
  nctr   : Nat
  iv     : List Byte
  out    : List Byte
  deriving DecidableEq, Repr

def CphOut.err (status : Nat) : CphOut := ⟨status, 0xFF, 0, 0xFF, [], []⟩

/-- Send one completion frame. -/
def cphReply (s : State) (r : CphReq) (o : CphOut) : State :=
  complete s 13 0xFF r.req 0x05
    ([byte o.status, byte (hOp r.data), byte o.core, byte o.flags] ++ leBytes 4 o.out.length
      ++ [byte o.nctr, byte (hStream r.data)] ++ zeros 6 ++ fit 16 o.iv ++ o.out)

/-- Held output of more than 16 KiB goes in several completion frames, all but the last with MORE (R332). -/
def cphReplyMany : Nat → State → CphReq → CphOut → State
  | 0, s, r, o => cphReply s r o
  | n + 1, s, r, o =>
    if o.out.length ≤ 16384 then cphReply s r o
    else cphReplyMany n (cphReply s r { o with out := o.out.take 16384, flags := o.flags + 4 }) r { o with out := o.out.drop 16384 }

/-- Close a stream. -/
def cphClose (s : State) (n : Nat) : State :=
  cphUpd s fun c => { c with streams := sdel c.streams n, lost := c.lost.filter fun x => x.1 != n }

/-- The owner's stream, open or closed by R316. -/
def cphMine (s : State) (r : CphReq) : Bool :=
  let n := hStream r.data
  (cphStream s n).any (fun x => decide (x.owner = cphOwner r.req)) || s.cph.lost.contains (n, cphOwner r.req)

/-- Complete a request with a status; a failing segment closes its stream if it is its owner's (R342). -/
def cphFailReq (s : State) (r : CphReq) (status : Nat) : State :=
  let s := if opStreams (hOp r.data) && cphMine s r then cphClose s (hStream r.data) else s
  let s := if status = St.timeout then raise s 76 2 else s
  let s := if status = St.nonceExhausted then raise (s.bump F.cphCnt1_nonceexh 1) 77 1 else s
  cphReply s r (CphOut.err status)

-- Checks (Table 9.6) ------------------------------------------------------------------------------------------------------

/-- Every byte of `d` in [a, b) is 0. -/
def zeroIn (d : List Byte) (a b : Nat) : Bool := slice d a (b - a) == zeros (b - a)

/-- The unused bytes of IV and PARAM are 0 (Table 9.4). -/
def cphParamsOk (d : List Byte) : Bool :=
  let op := hOp d
  let tag := (op == Op.gcm || op == Op.ccm || op == Op.cmac) && hDec d && hLast d
  let msg := (op == Op.gcm || op == Op.ccm || op == Op.cmac) && hDec d && hFirst d
  let ivOk :=
    if op = Op.ctr then hFirst d || zeroIn d 16 32
    else if op = Op.gcm then (if hFirst d && !hIvCtr d then zeroIn d 28 32 else zeroIn d 16 32)
    else if op = Op.ccm then zeroIn d 29 32
    else zeroIn d 16 32
  let paramOk :=
    if op = Op.derive then true
    else if op = Op.loadKey then hKlen d || zeroIn d 48 64
    else zeroIn d (if tag then 32 + hTagLen d else 32) 48 && (msg || zeroIn d 48 52) && zeroIn d 52 64
  ivOk && paramOk

/-- Check 2: the request is well formed (R305, R318, R320). -/
def cphFormOk (s : State) (sub : Nat) (r : CphReq) : Bool :=
  let d := r.data
  let op := hOp d
  let n := hStream d
  let t := hTagLen d
  let seg :=
    if !opStreams op then true
    else (hLast d || hDataLen d % 16 == 0) && (hFirst d || hAadLen d == 0)
      && (if hFirst d then (cphStream s n).isNone
          else s.cph.lost.contains (n, cphOwner r.req)
            || (cphStream s n).any fun x => decide (x.owner = cphOwner r.req) && x.op == op && (op != Op.gcm || x.decrypt == hDec d))
  let internalOnly := fun (h : Nat) => cphExt r.req || h == 0xFF || decide (h < 128)
  sub == 0xFF && r.req.cls != 3
    && decide (1 ≤ op) && decide (op ≤ 0x11) && decide (64 ≤ d.length) && natBits (leAt d 1 1) 7 5 == 0 && zeroIn d 10 12
    && d.length == 64 + hAadLen d + hDataLen d
    && (if op = Op.gcm then decide (12 ≤ t) && decide (t ≤ 16)
        else if op = Op.ccm then decide (4 ≤ t) && decide (t ≤ 16) && t % 2 == 0
        else if op = Op.cmac then decide (4 ≤ t) && decide (t ≤ 16) else t == 0)
    && (if op = Op.ctr then decide (8 ≤ hCtrw d) && decide (hCtrw d ≤ 128) else hCtrw d == 0)
    && (if opNamesStream op then decide (n < 64) else n == 0)
    && (hNctr d == 0xFF || decide (hNctr d < 64))
    && (!(op == Op.nonceFree || (op == Op.gcm && hIvCtr d && hFirst d && !hDec d)) || hNctr d != 0xFF)
    && (op != Op.ccm || (hFirst d && hLast d && decide (hDataLen d ≤ 65535)))
    && (!(op == Op.ecb || op == Op.ecbKey) || hDataLen d == 16)
    && (op != Op.unwrap || hDataLen d == 24 || hDataLen d == 40)
    && internalOnly (hKh d) && internalOnly (hKhB d)
    && (op != Op.saveCtx || ((cphStream s n).map fun x => decide (x.owner = cphOwner r.req)).getD false)
    && (op != Op.restoreCtx || (cphStream s n).isNone)
    && (op != Op.derive || ((slice d 32 4 == (kdfLabel "ROOT" "" [] 0).take 4 || slice d 32 4 == (kdfLabel "LSSR" "" [] 0).take 4) && zeroIn d 60 64))
    && (!(opUsesKh op || (opStreams op && hFirst d)) || hKh d != 0xFF)
    && (!(op == Op.wrap || (opLoads op && cphExt r.req)) || hKhB d != 0xFF)
    && cphParamsOk d && seg

/-- Who holds a handle: the owner of its key, or of the operation that is loading it. -/
def cphHolder (s : State) (h : Nat) : Option CphOwner :=
  match cphKey s h with
  | some k => some k.owner
  | none => ((cphRuns s).find? fun x => x.hb == some h).map fun x => cphOwner x.r.req

/-- A handle held by another owner. -/
def cphForeign (s : State) (r : CphReq) (h : Nat) : Bool :=
  h != 0xFF && (cphHolder s h).any fun o => decide (o ≠ cphOwner r.req)

/-- The security block's own requests: P15 sub-port 40. -/
def cphFromSec (r : CphReq) : Bool := r.req.port == 15 && r.req.sub == 40

/-- Check 3: key usage. -/
def cphUsageOk (s : State) (r : CphReq) : Bool :=
  let d := r.data
  let op := hOp d
  let ext := cphExt r.req
  let a := cphKey s (hKh d)
  let c := hNctr d
  !(ext && (op == Op.ecb || op == Op.ecbKey))
    && (!(op == Op.domainInstall || op == Op.domainClear) || cphFromSec r)
    && !(ext && op == Op.derive && decide (0x41 ≤ leAt d 36 1) && decide (leAt d 36 1 ≤ 0x5A))
    && !(ext && decide (hKh d < 128)) && !(ext && decide (hKhB d < 128))
    && !(cphForeign s r (hKh d) || cphForeign s r (hKhB d))
    && !(op == Op.wrap && ((a.map fun k => decide (1 < k.cls)).getD false || ((cphKey s (hKhB d)).map fun k => k.cls == 2).getD false))
    && !(op == Op.domainInstall && (a.map fun k => k.cls != 4 || k.key.length != 32).getD false)
    && !(op == Op.gcm && hIvCtr d && hFirst d && !hDec d && !(ncAlloc s c && ncKh s c == hKh d && decide (ncOwner s c = cphOwner r.req)))
    && !(op == Op.nonceFree && !(ncAlloc s c && decide (ncOwner s c = cphOwner r.req)))
    && !(op == Op.saveCtx && (cphStream s (hStream d)).any fun x => x.decrypt && x.op == Op.gcm)

/-- Check 4: the keys are there. -/
def cphKeysOk (s : State) (r : CphReq) : Bool :=
  let d := r.data
  let op := hOp d
  (!(opUsesKh op || (opStreams op && hFirst d)) || (cphKey s (hKh d)).isSome)
    && (op != Op.wrap || (cphKey s (hKhB d)).isSome)
    && (op != Op.derive || (if slice d 32 4 == (kdfLabel "ROOT" "" [] 0).take 4 then s.on F.secStat_rootOk else s.cph.domain.isSome))
    && !(opStreams op && !hFirst d && s.cph.lost.contains (hStream d, cphOwner r.req))

/-- Data bytes of the stream before this segment, and its MSGLEN. -/
def segBefore (s : State) (d : List Byte) : Nat × Nat :=
  if hFirst d then (0, hMsgLen d) else ((cphStream s (hStream d)).map fun x => (x.dataLen, x.msgLen)).getD (0, 0)

/-- The counter field at the start of a segment; one that stands at 0 after earlier data has used its last value, so any
further block would wrap it (R328). -/
def ctrField (later : Bool) (w : Nat) (iv : List Byte) : Nat :=
  if later && beNat iv % 2 ^ w == 0 then 2 ^ w else beNat iv % 2 ^ w

/-- Check 5: lengths (R328, R330, R331). -/
def cphLenOk (s : State) (r : CphReq) : Bool :=
  let d := r.data
  let op := hOp d
  let (before, msg) := segBefore s d
  let total := before + hDataLen d
  let holds := hDec d && (op == Op.gcm || op == Op.ccm)
  !(op == Op.gcm && decide (16 * (2 ^ 32 - 2) < total))
    && !(op == Op.ctr &&
      (let iv := if hFirst d then slice d 16 16 else ((cphStream s (hStream d)).map fun x => x.iv).getD []
       let w := if hFirst d then hCtrw d else ((cphStream s (hStream d)).map fun x => x.ctrw).getD 128
       let c := ctrField (before != 0) w iv
       decide (2 ^ w < c + (hDataLen d + 15) / 16)))
    && !(holds && (decide (1048576 < msg) || decide (msg < total) || (hLast d && total != msg)))

/-- Check 6: nonces (R324, R325). -/
def cphNonceOk (s : State) (r : CphReq) : Bool :=
  let d := r.data
  !(hOp d == Op.nonceAlloc && (ncFree s (cphExt r.req)).isNone)
    && !(hOp d == Op.gcm && hIvCtr d && hFirst d && !hDec d && ncInv s (hNctr d) == 0xFFFFFFFF)

/-- The context in a RESTORE_CTX blob: clear, or unwrapped (R339); `none` when the integrity check fails. -/
def ctxOf (s : State) (d : List Byte) : Option (List Byte) :=
  let b := hData d
  if b.length = 96 then some b else keyUnwrap (rootKey s "CTXW" (s.get F.cphBoot_boot)) b

/-- The owner bytes of a context. -/
def ownerBytes (o : CphOwner) : List Byte := [byte (b2n o.ext), byte o.a, byte o.b, 0#8]

/-- Check 7: R340. A clear blob is one of a SESSION_CLEAR key; a blob of another length than R339's two is no context. -/
def cphCtxOk (s : State) (r : CphReq) : Bool :=
  if hOp r.data = Op.restoreCtx then
    if hDataLen r.data ≠ 96 ∧ hDataLen r.data ≠ 104 then false
    else match ctxOf s r.data with
    | none => true
    | some c =>
      sget s.cph.saves (hStream r.data) == some (leAt c 8 4) && leAt c 4 4 == s.get F.cphBoot_boot
        && slice c 12 4 == ownerBytes (cphOwner r.req)
        && ((hData r.data).length == 104) == (leAt c 2 1 % 16 != 3)
  else true

/-- The first of checks 1 to 7 that fails. -/
def cphCheck (s : State) (sub : Nat) (r : CphReq) : Option Nat :=
  if !s.on F.cphCtrl_en then some St.portDown
  else if !cphFormOk s sub r then some St.badDescriptor
  else if !cphUsageOk s r then some St.keyUsage
  else if !cphKeysOk s r then some St.keyUnavailable
  else if !cphLenOk s r then some St.lengthLimit
  else if !cphNonceOk s r then some St.nonceExhausted
  else if !cphCtxOk s r then some St.ctxStale
  else if s.get F.cphStat_coreOff == 63 then some St.internalFault
  else none

-- Waits (R312, R327, R330) ----------------------------------------------------------------------------------------------------

/-- Free cells of cipher spill: the partition less 64 KiB for handles and stream contexts. -/
def spillFree (s : State) : Nat := 4 * (1024 * s.bsn.size.getD 4 0 - 64) - cphSpill s

/-- The message is held in spill, not in the core's hold buffer (R329). -/
def heldInSpill (d : List Byte) : Bool :=
  hDec d && (hOp d == Op.gcm || hOp d == Op.ccm) && !(hFirst d && hLast d && decide (hDataLen d ≤ 16384))

/-- Cells a FIRST segment reserves. -/
def spillNeed (d : List Byte) : Nat := if heldInSpill d && hFirst d then (hMsgLen d + 255) / 256 else 0

/-- The handle an operation loads: KH_B, or for an internal client that leaves it 0xFF the lowest free one. -/
def loadHandle (s : State) (r : CphReq) : Option Nat :=
  if hKhB r.data ≠ 0xFF then some (hKhB r.data)
  else (List.range 128).find? fun h => (cphHolder s h).isNone

/-- A FIRST segment finds too little free spill, or one that arrived before it waits for spill (R330). -/
def spillWaits (s : State) (r : CphReq) : Bool :=
  spillNeed r.data != 0 && (decide (spillFree s < spillNeed r.data)
    || s.cph.queue.any fun w => w.waiting && decide (w.id < r.id) && spillNeed w.data != 0)

/-- A GCM encrypt FIRST segment that takes its IV from a nonce counter (R325). -/
def takesIv (d : List Byte) : Bool := hOp d == Op.gcm && hIvCtr d && hFirst d && !hDec d

/-- The wait a request is in: the event flag it raises, if any. -/
def cphWait (s : State) (r : CphReq) : Option (Option Nat) :=
  let d := r.data
  if opLoads (hOp d) && (loadHandle s r).isNone then some (some 1)
  else if takesIv d && decide (s.cph.ncSaved.getD (hNctr d) 0 + 65536 ≤ ncInv s (hNctr d) + 1) then some none
  else if spillWaits s r then some (some 0)
  else none

-- The effect of an operation ------------------------------------------------------------------------------------------------------

/-- Load a key into a handle (R311). -/
def cphLoad (s : State) (r : CphReq) (h : Option Nat) (cls : Nat) (key : List Byte) : State :=
  match h with
  | some h => cphUpd s fun c => { c with handles := sput c.handles h ⟨cls, key, cphOwner r.req⟩ }
  | none => s

/-- A stream no segment has opened. -/
def blankStream : CphStream := ⟨0, false, ⟨false, 0, 0⟩, 0, [], 0, 0, [], [], [], 0, 0, 0, [], 0⟩

/-- The stream a segment runs on: a FIRST one opens it with its key, its IV and its reservation. -/
def segStream (run : CphRun) : CphStream :=
  let d := run.r.data
  if hFirst d then
    let k := run.keyA.getD ⟨0, [], ⟨false, 0, 0⟩⟩
    { op := hOp d, decrypt := hDec d, owner := cphOwner run.r.req, cls := k.cls, key := k.key, tagLen := hTagLen d
      ctrw := hCtrw d, iv := run.iv, acc := zeros 16, tail := [], aadLen := hAadLen d, dataLen := 0
      msgLen := if hDec d then hMsgLen d else 0, held := [], spill := spillNeed d }
  else run.str

/-- One GCM segment: the stream after it and its output. -/
def gcmSeg (x : CphStream) (d : List Byte) : CphStream × List Byte :=
  let rks := roundKeys x.key
  let y0 := bv128 x.acc
  let y := if hFirst d then ghash (ghKey rks) y0 (hAad d) else y0
  let inp := hData d
  let out := gcmCrypt rks x.iv (x.dataLen / 16) inp
  let y := ghash (ghKey rks) y (if x.decrypt then inp else out)
  ({ x with acc := beBytes 16 y.toNat, dataLen := x.dataLen + inp.length
            held := if x.decrypt then x.held ++ out else [] }, out)

/-- The tag of a GCM stream. -/
def gcmStreamTag (x : CphStream) : List Byte :=
  (gcmTag (roundKeys x.key) x.iv (bv128 x.acc) x.aadLen x.dataLen).take x.tagLen

/-- One CMAC segment; the last whole block is held back. -/
def cmacSeg (x : CphStream) (d : List Byte) : CphStream :=
  let bs := x.tail ++ hData d
  let n := if bs.isEmpty then 0 else 16 * ((bs.length - 1) / 16)
  { x with acc := cmacChain (roundKeys x.key) x.acc (bs.take n), tail := bs.drop n, dataLen := x.dataLen + (hData d).length }

def cmacStreamTag (x : CphStream) : List Byte := (cmacLast (roundKeys x.key) x.acc x.tail).take x.tagLen

/-- A segment's outcome: status, output, and the stream afterwards (`none`: closed). -/
def segRun (run : CphRun) : Nat × List Byte × Option CphStream :=
  let d := run.r.data
  let x := segStream run
  let fin := fun (x : CphStream) => if hLast d then none else some x
  if hOp d = Op.ctr then
    let out := aesCtr (roundKeys x.key) x.ctrw x.iv (hData d)
    (St.ok, out, fin { x with iv := ctrAdd x.ctrw x.iv (((hData d).length + 15) / 16), dataLen := x.dataLen + out.length })
  else if hOp d = Op.cmac then
    let x := cmacSeg x d
    if !hLast d then (St.ok, [], some x)
    else if hDec d then (if cmacStreamTag x = hTag d then St.ok else St.authFail, [], none)
    else (St.ok, cmacStreamTag x, none)
  else
    let (x, out) := gcmSeg x d
    if x.decrypt then
      if !hLast d then (St.ok, [], some x)
      else if gcmStreamTag x = hTag d then (St.ok, x.held, none)
      else (St.authFail, [], none)
    else (St.ok, if hLast d then out ++ gcmStreamTag x else out, fin x)

/-- The 96-byte context of a stream (R339). A CMAC stream between segments holds back its last 16 bytes, if it has had any: they
stand in the place of the counter block. -/
def ctxBytes (s : State) (x : CphStream) (serial : Nat) : List Byte :=
  [1#8, byte x.op, byte (x.cls + (if x.key.length = 32 then 16 else 0)), byte (if x.op = Op.ctr then x.ctrw else x.tagLen)]
    ++ leBytes 4 (s.get F.cphBoot_boot) ++ leBytes 4 serial ++ ownerBytes x.owner ++ fit 32 x.key
    ++ fit 16 (if x.op = Op.cmac then x.tail else x.iv) ++ fit 16 x.acc
    ++ leBytes 8 x.aadLen ++ leBytes 8 x.dataLen

/-- The stream of a context. -/
def ctxStream (c : List Byte) (owner : CphOwner) : CphStream :=
  let op := leAt c 1 1
  let t := leAt c 3 1
  { op, decrypt := false, owner, cls := leAt c 2 1 % 16, key := slice c 16 (if leAt c 2 1 / 16 % 2 = 1 then 32 else 16)
    tagLen := if op = Op.ctr then 0 else t, ctrw := if op = Op.ctr then t else 0
    iv := if op = Op.cmac then [] else if op = Op.gcm then slice c 48 12 else slice c 48 16
    acc := slice c 64 16, tail := if op = Op.cmac ∧ leAt c 88 8 ≠ 0 then slice c 48 16 else []
    aadLen := leAt c 80 8, dataLen := leAt c 88 8, msgLen := 0, held := [], spill := 0 }

/-- SAVE_CTX (R338–R340): the blob; the stream is detached and its save outstanding. -/
def cphSave (s : State) (r : CphReq) : List Byte × State :=
  let n := hStream r.data
  match cphStream s n with
  | none => ([], s)
  | some x =>
    let serial := (kGet s K.serial 4 + 1) % 2 ^ 32
    let s := kPut s K.serial 4 serial
    let c := ctxBytes s x serial
    let blob := if x.cls = 3 then c else keyWrap (rootKey s "CTXW" (s.get F.cphBoot_boot)) c
    (blob, cphUpd s fun y => { y with streams := sdel y.streams n, saves := sput y.saves n serial })

/-- AUTH_FAIL on a core (R333). -/
def cphAuthFail (s : State) (core : Nat) : State := raise (s.bump F.cphCnt0_authfail 1) (70 + core) 0

/-- FLAGS of a completion but for MORE (R323): SUSPENDED, and SPILLED of a segment or a CCM message held in spill. -/
def cphFlags (run : CphRun) : Nat :=
  let d := run.r.data
  b2n run.susp + 2 * b2n (heldInSpill d || (opStreams (hOp d) && !hFirst d && run.str.spill != 0))

/-- An operation that ran on a core completes with output; held output may take several frames, and one whose owner's port went
down ends without a completion (R345). -/
def cphAnswer (s : State) (core : Nat) (run : CphRun) (status : Nat) (out : List Byte) : State :=
  let d := run.r.data
  let s := if status = St.authFail then cphAuthFail s core else s
  let held := hDec d && (hOp d == Op.gcm || hOp d == Op.ccm)
  if run.mute then s
  else cphReplyMany (if held then out.length / 16384 else 0) s run.r
    ⟨status, core, cphFlags run, 0xFF, if hOp d == Op.gcm && hIvCtr d && hFirst d then run.iv else [], out⟩

/-- The operation on a core ends: its effect and completion (R323, R332, R333, R342). A stream closed while its segment ran stays
closed. -/
def cphFinish (s : State) (core : Nat) (run : CphRun) : State :=
  let r := run.r
  let d := r.data
  let op := hOp d
  let kA := (run.keyA.map fun k => k.key).getD []
  let reply := fun (s : State) (status : Nat) (out : List Byte) => cphAnswer s core run status out
  if opStreams op then
    let (status, out, x) := segRun run
    let s := match x with
      | some x => if (cphStream s (hStream d)).isSome then cphUpd s fun c => { c with streams := sput c.streams (hStream d) x } else s
      | none => cphClose s (hStream d)
    reply s status out
  else if op = Op.ccm then
    let rks := roundKeys kA
    let nonce := slice d 16 13
    let x := ccmCrypt rks nonce (hData d)
    if hDec d then
      if ccmTag rks nonce (hAad d) x (hTagLen d) = hTag d then reply s St.ok x else reply s St.authFail []
    else reply s St.ok (x ++ ccmTag rks nonce (hAad d) (hData d) (hTagLen d))
  else if op = Op.ecb then reply s St.ok (if hDec d then aesDec kA (hData d) else aesEnc kA (hData d))
  else if op = Op.ecbKey then reply (cphLoad s r run.hb 2 (aesEnc kA (hData d))) St.ok []
  else if op = Op.derive then
    let root := slice d 32 4 == (kdfLabel "ROOT" "" [] 0).take 4
    let kb := if root then s.sec.root else s.cph.domain.getD []
    reply (cphLoad s r run.hb (if root then 0 else 1) (kdf kb (slice d 32 32) (if hKlen d then 256 else 128))) St.ok []
  else if op = Op.wrap then reply s St.ok (keyWrap kA ((run.keyB.map fun k => k.key).getD []))
  else if op = Op.unwrap then
    match keyUnwrap kA (hData d) with
    | some k => reply (cphLoad s r run.hb 4 k) St.ok []
    | none => reply s St.authFail []
  else if op = Op.saveCtx then
    let (blob, s) := cphSave s r
    reply s St.ok blob
  else if op = Op.restoreCtx then
    match ctxOf s d with
    | some c =>
      reply (cphUpd s fun y => { y with
        streams := sput y.streams (hStream d) (ctxStream c (cphOwner r.req)), saves := sdel y.saves (hStream d)
        lost := y.lost.filter fun x => x.1 != hStream d }) St.ok []
    | none => reply s St.authFail []
  else
    let s := cphUpd s fun c => { c with handles := sdel c.handles (hKh d) }
    match domainStore s r.req false core (s.get F.secEpoch_epoch) kA with
    | (true, s) => s
    | (false, s) => reply s St.nvProtected []

/-- Operations without a core: LOAD_KEY, FREE_KEY, NONCE_ALLOC, NONCE_FREE, DOMAIN_CLEAR. -/
def cphInstant (s : State) (r : CphReq) (fixed : List Byte) : State :=
  let d := r.data
  let op := hOp d
  let ok := fun (s : State) (o : CphOut) => cphReply s r { o with status := St.ok }
  let base := CphOut.err St.ok
  if op = Op.loadKey then ok (cphLoad s r (loadHandle s r) 3 (slice d 32 (if hKlen d then 32 else 16))) base
  else if op = Op.freeKey then ok (cphUpd s fun c => { c with handles := sdel c.handles (hKh d) }) base
  else if op = Op.nonceAlloc then
    match ncFree s (cphExt r.req) with
    | none => s
    | some c =>
      let o := cphOwner r.req
      let s := kPutBytes s (K.nonce c) (fit 8 fixed ++ zeros 4
        ++ [byte (hKh d), byte (if o.ext then o.b else o.a), byte (if o.ext then o.a else o.b), byte (1 + 2 * b2n o.ext)])
      let s := cphUpd s fun x => { x with ncSaved := x.ncSaved.set c 0, ncCap := x.ncCap.set c 0 }
      ok s { base with nctr := c, iv := fit 8 fixed }
  else if op = Op.nonceFree then
    ok (kPutBytes s (K.nonce (hNctr d)) (zeros 16)) base
  else
    let s := domainChanged s none 0
    ok (nvSubmit s (.record recDomain (zeros 48)) true false r.req.port .none).2 base

/-- The counter has reached its last saved value plus 32,768 (R327). -/
def ncDue (s : State) (c : Nat) : Bool := decide (s.cph.ncSaved.getD c 0 + 32768 ≤ ncInv s c)

/-- Start a checkpoint for the nonce counters, unless one is being written (R327). -/
def ncCkpt (s : State) : State := if s.on F.ledStat_ckptBusy then s else ckptStart s true

/-- INV of a counter becomes `v`; NONCE_LOW where it reaches 0xFF00_0000 (R327). -/
def ncSet (s : State) (c v : Nat) : State :=
  let low := decide (ncInv s c < 0xFF000000) && decide (0xFF000000 ≤ v)
  let s := kPut s (K.nonce c + 8) 4 v
  if low then raise s 77 0 else s

/-- Take the IV at the start of a GCM encrypt FIRST segment with IV_CTR (R325, R327). -/
def cphTakeIv (s : State) (d : List Byte) : List Byte × State :=
  let c := hNctr d
  let inv := ncInv s c
  let iv := memRead s.keep (K.nonce c) 8 ++ beBytes 4 inv
  let s := ncSet s c (inv + 1)
  (iv, if ncDue s c then ncCkpt s else s)

-- The scheduler (R321, R322, R335, R336) ---------------------------------------------------------------------------------------------

/-- A core that can take a new operation. -/
def coreFree (s : State) (i : Nat) : Bool :=
  let c := s.cph.cores.getD i ⟨none, none⟩
  c.run.isNone && c.held.isNone && !bitOf (s.get F.cphStat_coreOff) i

/-- The core whose segment a C0 request suspends: the latest-started C2 one, else C1 (R335). -/
def suspendPick (s : State) : Option Nat :=
  let cand := fun cls => ((List.range 6).filter fun i =>
    let c := s.cph.cores.getD i ⟨none, none⟩
    c.held.isNone && (c.run.map fun r => r.r.req.cls == cls && decide (hOp r.r.data ≤ 4)).getD false)
  let latest := fun (l : List Nat) => l.foldl (fun (b : Option Nat) i =>
    let n := fun j => ((s.cph.cores.getD j ⟨none, none⟩).run.map fun r => r.n).getD 0
    match b with
    | none => some i
    | some j => if n j < n i then some i else some j) none
  match latest (cand 2) with
  | some i => some i
  | none => latest (cand 1)

/-- The core a request of a class may start on, and whether that takes a suspension. -/
def corePick (s : State) (cls : Nat) : Option (Nat × Bool) :=
  let free := (List.range 6).filter (coreFree s)
  if cls = 2 ∧ free.length ≤ s.get F.cphCtrl_resvC0 then none
  else match free with
    | i :: _ => some (i, false)
    | [] => if cls = 0 ∧ s.on F.cphCtrl_suspEn then (suspendPick s).map fun i => (i, true) else none

/-- A segment waits for the one before it (R321). -/
def segBlocked (s : State) (r : CphReq) : Bool :=
  opNamesStream (hOp r.data) &&
    (let same := fun (x : CphReq) => opNamesStream (hOp x.data) && hStream x.data == hStream r.data
     (s.cph.cores.any fun c => (c.run.map fun y => same y.r).getD false || (c.held.map fun y => same y.r).getD false)
       || ((s.cph.queue.takeWhile fun x => x.id != r.id).any same))

/-- Remove a request from the queue; mark one. -/
def cphDrop (s : State) (id : Nat) : State := cphUpd s fun c => { c with queue := c.queue.filter fun x => x.id != id }
def cphMark (s : State) (id : Nat) (f : CphReq → CphReq) : State :=
  cphUpd s fun c => { c with queue := c.queue.map fun x => if x.id = id then f x else x }

/-- Put an operation on a core. A FIRST segment opens its stream with it and makes its reservation (R330). -/
def cphStart (s : State) (r : CphReq) (i : Nat) (susp : Bool) : State :=
  let d := r.data
  let n := hStream d
  let (iv, s) := if takesIv d then cphTakeIv s d else (if hOp d = Op.gcm then slice d 16 12 else slice d 16 16, s)
  let run : CphRun :=
    { r, n := s.cph.nextRun, keyA := cphKey s (hKh d), keyB := cphKey s (hKhB d), iv, susp := false
      str := (cphStream s n).getD blankStream, hb := if opLoads (hOp d) then loadHandle s r else none
      spill := if hOp d = Op.ccm then spillNeed d else 0, mute := false }
  let s := if susp then s.bump F.cphCnt0_suspend 1 else s
  let opens := opStreams (hOp d) && hFirst d
  cphUpd s fun c => { c with
    nextRun := c.nextRun + 1
    queue := c.queue.filter fun x => x.id != r.id
    streams := if opens then sput c.streams n (segStream run) else c.streams
    lost := if opens then c.lost.filter fun x => x.1 != n else c.lost
    cores := c.cores.modify i fun k =>
      if susp then ⟨some run, k.run.map fun y => { y with susp := true }⟩ else { k with run := some run } }

/-- A draw that a request waits for is noted once. -/
def cphDrawWait (s : State) (r : CphReq) : Option State :=
  if r.rngWait then none else some (cphMark s r.id fun x => { x with rngWait := true })

/-- Examine one request: `some` state when it left the queue or newly waits, `none` when nothing changes. None starts while the
engine is stopping or stopped (R23, R344), and one of C2 only while more than RESV_C0 cores are free (R322). -/
def cphTry (s : State) (r : CphReq) : Option State :=
  if noNewWork s 24 || segBlocked s r then none
  else match cphCheck s 0xFF r with
    | some st => some (cphFailReq (cphDrop s r.id) r st)
    | none =>
      match cphWait s r with
      | some ev =>
        if r.waiting then none
        else
          let s := cphMark s r.id fun x => { x with waiting := true }
          some (match ev with
            | some b => raise s 76 b
            | none => ncCkpt s)
      | none =>
        if opNeedsCore (hOp r.data) then
          match corePick s r.req.cls with
          | none => none
          | some (i, susp) =>
            match maskDraw s with
            | .fatal => some (cphFailReq (raise ((cphDrop s r.id).bump F.cphCnt1_rngfail 1) (70 + i) 2) r St.rngFatal)
            | .wait s => cphDrawWait s r
            | .bits _ s => some (cphStart s r i susp)
        else if r.req.cls = 2 ∧ (corePick s 2).isNone then none
        else if hOp r.data = Op.nonceAlloc then
          match rngDraw s 1 8 with
          | .fatal => some (cphFailReq ((cphDrop s r.id).bump F.cphCnt1_rngfail 1) r St.rngFatal)
          | .wait s => cphDrawWait s r
          | .bits b s => some (cphInstant (cphDrop s r.id) r b)
        else some (cphInstant (cphDrop s r.id) r [])

/-- The queue in the order of R322. -/
def cphOrder (s : State) : List CphReq := [0, 1, 2, 3].flatMap fun c => s.cph.queue.filter fun r => r.req.cls == c

/-- Start what can start. -/
def cphSched : Nat → State → State
  | 0, s => s
  | n + 1, s =>
    match (cphOrder s).findSome? (cphTry s) with
    | some s => cphSched n s
    | none => s

def cphRun (s : State) : State := cphSched (2 * s.cph.queue.length + 2) s

/-- A request frame reaches P13 (R318, R323). A frame whose OP byte is not its row's is one of an unknown OP (log entry 117). -/
def cphTake (s : State) (op : Nat) (req : Req) (sub : Nat) (data : List Byte) : State :=
  let r : CphReq := ⟨s.cph.nextId, req, data, false, false⟩
  let s := cphUpd s fun c => { c with nextId := c.nextId + 1 }
  if sub ≠ 0xFF ∨ req.cls = 3 ∨ hOp data ≠ op then cphFailReq s r (if s.on F.cphCtrl_en then St.badDescriptor else St.portDown)
  else cphRun (cphUpd s fun c => { c with queue := c.queue ++ [r] })

/-- A request frame arrives; it waits while the engine is stopping or stopped (R24, R344). -/
def cphArrive (s : State) (op : Nat) (req : Req) (sub : Nat) (data : List Byte) : State :=
  if noNewWork s 24 then cphUpd s fun c => { c with held := c.held ++ [(op, req, sub, data)] } else cphTake s op req sub data

/-- CONFIG_START: the queue goes on, and the frames held are taken. -/
def cphRelease (s : State) : State :=
  s.cph.held.foldl (fun s h => cphTake s h.1 h.2.1 h.2.2.1 h.2.2.2) (cphRun (cphUpd s fun c => { c with held := [] }))

/-- A core's work ends; suspended work resumes on it before any other request (R336). -/
def coreEnd (s : State) (i : Nat) : State :=
  cphUpd s fun c => { c with cores := c.cores.modify i fun k => ⟨k.held, none⟩ }

/-- The store of a domain key has completed (R315). -/
def domainDone (s : State) (req : Req) (core epoch : Nat) (key : List Byte) (status copyA : Nat) : State :=
  let s := if copyA = St.ok then domainChanged s (some key) epoch else s
  complete s 13 0xFF req 0x05 ([byte status, byte Op.domainInstall, byte core, 0#8] ++ zeros 4 ++ [0xFF#8] ++ zeros 23)

/-- An owner's port has gone down: its open streams close without completion, those with a segment on a core too (R345). -/
def cphPortDown (s : State) (p : CphOwner → Bool) : State :=
  let quiet := fun (x : CphRun) => if opStreams (hOp x.r.data) && p (cphOwner x.r.req) then { x with mute := true } else x
  cphUpd s fun c => { c with
    streams := c.streams.filter fun x => !p x.2.owner
    cores := c.cores.map fun k => ⟨k.run.map quiet, k.held.map quiet⟩ }

/-- HOLDUP entry (R346). -/
def cphHoldup (s : State) : State :=
  cphUpd s fun c => { c with handles := [], streams := [], lost := [], saves := [], queue := [], held := [], cores := State.reset.cph.cores }

/-- The start of the engine: CPH_BOOT advances, and after a restore every INV by 65,536 (R326, R340), which brings each
allocated counter past its mark for a checkpoint (R327). -/
def cphBootStart (s : State) (restored : Bool) : State :=
  let s := keepTouch (s.wrapInc F.cphBoot_boot)
  let saved := (List.range 64).map (ncInv s)
  let s := if restored then (List.range 64).foldl (fun s c => ncSet s c (min 0xFFFFFFFF (ncInv s c + 65536))) s else s
  let s := cphUpd { s with cph := State.reset.cph } fun c => { c with ncSaved := saved, ncCap := List.replicate 64 0 }
  if (List.range 64).any fun c => ncAlloc s c && ncDue s c then ncCkpt s else s

-- The commands --------------------------------------------------------------------------------------------------------------------------

/-- GCM (R302, Table 9.1). -/
def execCphGcm (req : Req) (sub : Nat) (data : List Byte) (s : State) : Host.Outcome State Fault Refusal := .next (cphArrive s Op.gcm req sub data)
/-- CCM (Table 9.1). -/
def execCphCcm (req : Req) (sub : Nat) (data : List Byte) (s : State) : Host.Outcome State Fault Refusal := .next (cphArrive s Op.ccm req sub data)
/-- CMAC (Table 9.1). -/
def execCphCmac (req : Req) (sub : Nat) (data : List Byte) (s : State) : Host.Outcome State Fault Refusal := .next (cphArrive s Op.cmac req sub data)
/-- CTR (Table 9.1). -/
def execCphCtr (req : Req) (sub : Nat) (data : List Byte) (s : State) : Host.Outcome State Fault Refusal := .next (cphArrive s Op.ctr req sub data)
/-- ECB (Table 9.1). -/
def execCphEcb (req : Req) (sub : Nat) (data : List Byte) (s : State) : Host.Outcome State Fault Refusal := .next (cphArrive s Op.ecb req sub data)
/-- ECB_KEY (Table 9.1). -/
def execCphEcbKey (req : Req) (sub : Nat) (data : List Byte) (s : State) : Host.Outcome State Fault Refusal := .next (cphArrive s Op.ecbKey req sub data)
/-- DERIVE (R304). -/
def execCphDerive (req : Req) (sub : Nat) (data : List Byte) (s : State) : Host.Outcome State Fault Refusal := .next (cphArrive s Op.derive req sub data)
/-- LOAD_KEY (Table 9.1). -/
def execCphLoadKey (req : Req) (sub : Nat) (data : List Byte) (s : State) : Host.Outcome State Fault Refusal := .next (cphArrive s Op.loadKey req sub data)
/-- FREE_KEY (Table 9.1). -/
def execCphFreeKey (req : Req) (sub : Nat) (data : List Byte) (s : State) : Host.Outcome State Fault Refusal := .next (cphArrive s Op.freeKey req sub data)
/-- WRAP (R314). -/
def execCphWrap (req : Req) (sub : Nat) (data : List Byte) (s : State) : Host.Outcome State Fault Refusal := .next (cphArrive s Op.wrap req sub data)
/-- UNWRAP (Table 9.1). -/
def execCphUnwrap (req : Req) (sub : Nat) (data : List Byte) (s : State) : Host.Outcome State Fault Refusal := .next (cphArrive s Op.unwrap req sub data)
/-- NONCE_ALLOC (R324). -/
def execCphNonceAlloc (req : Req) (sub : Nat) (data : List Byte) (s : State) : Host.Outcome State Fault Refusal := .next (cphArrive s Op.nonceAlloc req sub data)
/-- NONCE_FREE (Table 9.1). -/
def execCphNonceFree (req : Req) (sub : Nat) (data : List Byte) (s : State) : Host.Outcome State Fault Refusal := .next (cphArrive s Op.nonceFree req sub data)
/-- SAVE_CTX (R338). -/
def execCphSaveCtx (req : Req) (sub : Nat) (data : List Byte) (s : State) : Host.Outcome State Fault Refusal := .next (cphArrive s Op.saveCtx req sub data)
/-- RESTORE_CTX (R340). -/
def execCphRestoreCtx (req : Req) (sub : Nat) (data : List Byte) (s : State) : Host.Outcome State Fault Refusal := .next (cphArrive s Op.restoreCtx req sub data)
/-- DOMAIN_INSTALL (R315). -/
def execCphDomainInstall (req : Req) (sub : Nat) (data : List Byte) (s : State) : Host.Outcome State Fault Refusal := .next (cphArrive s Op.domainInstall req sub data)
/-- DOMAIN_CLEAR (R316). -/
def execCphDomainClear (req : Req) (sub : Nat) (data : List Byte) (s : State) : Host.Outcome State Fault Refusal := .next (cphArrive s Op.domainClear req sub data)

/-- CIPHER_OP_DONE (R323): the operation on a core ends. -/
def execCphCipherOpDone (core : Nat) (s : State) : Host.Outcome State Fault Refusal :=
  .next <| match (s.cph.cores.getD core ⟨none, none⟩).run with
    | none => s
    | some run => cphRun (cphFinish (coreEnd s core) core run)

/-- CIPHER_WAIT_TIMEOUT (Table 9.6): the n-th waiting request has waited WAITMAX. -/
def execCphCipherWaitTimeout (n : Nat) (s : State) : Host.Outcome State Fault Refusal :=
  .next <| match (s.cph.queue.filter fun r => r.waiting)[n]? with
    | none => s
    | some r => cphRun (cphFailReq (cphDrop s r.id) r St.timeout)

/-- CORE_FAULT (R343): the core's operation is lost and it takes no further work until reset; DOMAIN_INSTALL zeroises KH
in this outcome too (R315). -/
def execCphCoreFault (core : Nat) (s : State) : Host.Outcome State Fault Refusal :=
  .next <|
    if 6 ≤ core then s
    else
      let c := s.cph.cores.getD core ⟨none, none⟩
      let s := s.set F.cphStat_coreOff (setBit (s.get F.cphStat_coreOff) core)
      let s := raise (cphUpd s fun x => { x with cores := x.cores.set core ⟨none, none⟩ }) (70 + core) 1
      let fail := fun (s : State) (r : Option CphRun) => match r with
        | none => s
        | some r =>
          let d := r.r.data
          let s := if opStreams (hOp d) then cphClose s (hStream d)
            else if hOp d = Op.domainInstall then cphUpd s fun x => { x with handles := sdel x.handles (hKh d) } else s
          if r.mute then s else cphReply s r.r { CphOut.err St.internalFault with core, flags := cphFlags r }
      cphRun (fail (fail s c.run) c.held)

/-- CPH_CMD.CLR_CNT. -/
def execCphClrCnt (s : State) : Host.Outcome State Fault Refusal := .next ((s.setW W.cphCnt0 0#32).setW W.cphCnt1 0#32)

end Sys2Proof.Machine
end

