-- ==== Sys2Proof/Machine/HostBase.lean ====
section
/-! DEFINITION. The host interface below its descriptors (14_host_interface.md): set-up and features (R494–R498), rings and
doorbells (R499–R501), operation slots and completion records (R504–R506, R513–R518), and P8 going up and down. -/

namespace Sys2Proof.Machine

def hstUpd (s : State) (f : Hst → Hst) : State := { s with hst := f s.hst }

-- Slots (R504, R505) --------------------------------------------------------------------------------------------------

def OpSlot.free : OpSlot := ⟨false, 0, 0, 0, false, 0, 0, 0, 0⟩

def slotAt (s : State) (n : Nat) : OpSlot := s.hst.slots.getD n OpSlot.free

/-- The slot belongs to a busy descriptor of the ring. -/
def slotOf (s : State) (ring n : Nat) : Bool := (slotAt s n).busy && (slotAt s n).ring == ring

/-- Free every slot of a ring and drop what waits for it (R518). -/
def slotsDrop (s : State) (ring : Nat) : State :=
  let waits := s.stops.waits.map fun w =>
    if w.slot.any (slotOf s ring) then { w with slot := none } else w
  let slots := s.hst.slots.map fun x => if x.busy && x.ring == ring then { x with busy := false } else x
  let fenced := s.hst.fenced.filter fun f => !slotOf s ring f.1
  hstUpd { s with stops := { s.stops with waits } } fun h =>
    { h with slots, fenced, cplWait := h.cplWait.filter fun c => c.1 != ring }

-- P8 (Table 12.8, R442, R518) -------------------------------------------------------------------------------------------

/-- P8 goes down: its frames are flushed, every slot is freed, LINK is raised. -/
def p8Down (s : State) : State :=
  if portDown s 8 then s
  else
    let s := cphPortDown (swPortGoesDown s 8) fun o => o.ext && o.b == 8
    raise ((List.range 16).foldl slotsDrop s) 106 0

/-- P8 comes up with DRIVER_OK and, in PCI Express mode, the link. -/
def p8Up (s : State) : State :=
  if s.on F.idDrvstat_driverOk && (s.hst.qspi || s.hst.pcieUp) && portDown s 8 && s.on (F.swPCtrl_en 8) then
    raise (swPortComesUp s 8) 106 0
  else s

-- Rings (R499, R500) --------------------------------------------------------------------------------------------------------

/-- RING_ERR with a cause. -/
def ringErr (s : State) (cause ring : Nat) : State := raise ((s.set F.hrErrcode_cause cause).set F.hrErrcode_ring ring) 104 0

/-- Submission ring n is disabled: its sub-port goes down and its slots are free (R518, Table 12.8). -/
def sqOff (s : State) (n : Nat) : State :=
  if !s.on (F.hrSqCfg_en n) then s else swSubGoesDown (slotsDrop (s.set (F.hrSqCfg_en n) 0) n) 8 n

/-- Completion ring m is disabled, and every submission ring bound to it (R500). -/
def cqOff (s : State) (m : Nat) : State :=
  if !s.on (F.hrCqCfg_en m) then s
  else
    let s := (List.range 16).foldl (fun s n => if s.get (F.hrSqCfg_cq n) = m then sqOff s n else s) (s.set (F.hrCqCfg_en m) 0)
    hstUpd s fun h => { h with cqRecs := h.cqRecs.set m [] }

/-- The event ring is disabled. -/
def eqOff (s : State) : State :=
  { hstUpd (s.set F.hrEqCfg_en 0) fun h => { h with eqRecs := [] } with ev := { s.ev with held := [] } }

/-- A write of HR_SQn_CFG (R498–R500): one that would enable a ring that may not be is ignored whole. -/
def sqCfgWrite (s : State) (n : Nat) (v : W32) : State :=
  let put := (s.set (F.hrSqCfg_size n) (wBits v 3 0)).set (F.hrSqCfg_cq n) (wBits v 11 8)
  if s.on (F.hrSqCfg_en n) then (if wBits v 4 4 = 0 then sqOff s n else s)
  else if wBits v 4 4 = 0 then put
  else if !featOn s 0 || (n != 0 && !featOn s 2) then s
  else if !s.on (F.hrCqCfg_en (wBits v 11 8)) then ringErr s 5 n
  else swSubComesUp ((put.setW (W.hrSqStat n) 0#32).set (F.hrSqCfg_en n) 1) 8 n

/-- A write of HR_CQm_CFG (R499, R500). -/
def cqCfgWrite (s : State) (m : Nat) (v : W32) : State :=
  let was := s.on (F.hrCqCfg_en m)
  if !was && wBits v 4 4 == 1 && (!featOn s 0 || (m != 0 && !featOn s 2)) then s
  else
  let s := if was then s else s.set (F.hrCqCfg_size m) (wBits v 3 0)
  let s := (s.set (F.hrCqCfg_irqEn m) (wBits v 5 5)).set (F.hrCqCfg_vector m) (wBits v 12 8)
  if wBits v 4 4 = 0 then cqOff s m
  else if was then s
  else
    let s := (((s.set (F.hrCqCfg_en m) 1).set (F.hrCqStat_tail m) 0).set (F.hrCqStat_head m) 0).set (F.hrCqStat_phase m) 1
    hstUpd s fun h => { h with cqRecs := h.cqRecs.set m [] }

/-- A write of HR_EQ_CFG (R499, R500). -/
def eqCfgWrite (s : State) (v : W32) : State :=
  let was := s.on F.hrEqCfg_en
  if !was && wBits v 4 4 == 1 && !featOn s 3 then s
  else
  let s := if was then s else s.set F.hrEqCfg_size (wBits v 3 0)
  let s := (s.set F.hrEqCfg_irqEn (wBits v 5 5)).set F.hrEqCfg_vector (wBits v 12 8)
  if wBits v 4 4 = 0 then (if was then eqOff s else s)
  else if was then s
  else
    let s := (((s.set F.hrEqCfg_en 1).set F.hrEqStat_tail 0).set F.hrEqStat_head 0).set F.hrEqStat_phase 1
    hstUpd s fun h => { h with eqRecs := [] }

-- Set-up (R494–R497) ------------------------------------------------------------------------------------------------------------

/-- The interface returns to set-up. -/
def hostSetup (s : State) : State :=
  let s := p8Down s
  let s := (List.range 16).foldl cqOff s
  let s := eqOff ((List.range 16).foldl sqOff s)
  let s := s.setW W.idDrvstat 0#32
  let s := (List.range 4).foldl (fun s i => s.setW (W.idFeatDrv i) 0#32) s
  let s := (List.range 16).foldl slotsDrop s
  hstUpd s fun h => { h with rrNext := 0 }

/-- A write of ID_DRVSTAT.FEATURES (R496). -/
def featuresOp (s : State) : State :=
  if s.on F.idDrvstat_features then s
  else
    let drv := s.getW (W.idFeatDrv 0)
    let rest := (List.range 3).all fun i => s.getW (W.idFeatDrv (i + 1)) == 0#32
    let s := s.set F.idDrvstat_features 1
    if drv &&& ~~~ BitVec.ofNat 32 (featDev s) = 0#32 ∧ rest ∧ drv.getLsbD 0 then s.set F.idDrvstat_featuresOk 1
    else raise (s.set F.idDrvstat_featureFail 1) 107 0

/-- A write of ID_DRVSTAT.DRIVER_OK (R497). -/
def driverOkOp (s : State) : State := if s.on F.idDrvstat_featuresOk then p8Up (s.set F.idDrvstat_driverOk 1) else s

-- Completion records (Table 14.6) -------------------------------------------------------------------------------------------------

/-- The fields of a record but its phase and SQ_HEAD. -/
structure CqRec where
  status : Nat
  opcode : Nat
  tag    : Nat
  flags  : Nat
  htoken : Nat
  out    : Nat
  sq     : Nat
  dev    : Nat
  result : List Byte
  deriving DecidableEq, Repr

/-- Write a record to the ring's CQ in one go, with its interrupt (R513, R515, R516). -/
def cqWrite (s : State) (m : Nat) (r : CqRec) (wants : Bool) : State :=
  let tail := s.get (F.hrCqStat_tail m)
  let phase := s.get (F.hrCqStat_phase m)
  let bytes := [byte r.status, byte r.opcode, byte r.tag, byte (r.flags + phase)] ++ leBytes 4 r.htoken ++ leBytes 4 r.out
    ++ leBytes 2 (s.get (F.hrSqStat_head r.sq)) ++ [byte r.sq, byte r.dev] ++ fit 16 r.result
  let irq := s.on (F.hrCqCfg_irqEn m) && wants
  let s := hostWrite s (base64 (s.getW (W.hrCqBaseLo m)) (s.getW (W.hrCqBaseHi m)) 32 + 32 * tail) bytes
  let wrap := tail + 1 == cqEntries s m
  let s := (s.set (F.hrCqStat_tail m) (if wrap then 0 else tail + 1)).set (F.hrCqStat_phase m) (if wrap then 1 - phase else phase)
  let s := hstUpd s fun h => { h with cqRecs := h.cqRecs.modify m fun l => l ++ [irq] }
  if irq then hostIrq s (s.get (F.hrCqCfg_vector m)) else s

/-- The CQ of a submission ring, and whether it is full (R517). -/
def cqOfRing (s : State) (n : Nat) : Nat := s.get (F.hrSqCfg_cq n)
def cqFull (s : State) (m : Nat) : Bool := decide (cqEntries s m ≤ (s.hst.cqRecs.getD m []).length)

/-- A slot is free (R505). -/
def slotFree (s : State) (n : Nat) : State := hstUpd s fun h => { h with slots := h.slots.modify n fun x => { x with busy := false } }

/-- The tag, ring and generation of FH_OPTAG (R504). -/
def tagSlot (t : Nat) : Nat := t % 64
def tagGen (t : Nat) : Nat := t / 1024 % 64

/-- Write the record of a completion whose CQ has room (R506, R513, R514); OUT_LEN 0 is no buffer, and truncates nothing (Table
14.12, log entry 155). -/
def recordNow (s : State) (sub : Nat) (f : Frame) : State :=
  let t := tagSlot f.optag
  let x := slotAt s t
  let st := leAt f.payload 0 1
  if f.typ = 0 then
    slotFree (cqWrite s (cqOfRing s sub) ⟨st, x.opcode, t, 8, x.htoken, 0, sub, thisDev s, []⟩ (x.irq || st != 0)) t
  else if tagGen f.optag = 0 then
    cqWrite s (cqOfRing s sub) ⟨st, 0xFF, 0, 16, 0, 0, sub, f.dev, f.payload.take 16⟩ true
  else
    let room := x.outLen - x.outPos
    let n := min room f.payload.length
    let more := f.typ == 0x85 && (leAt f.payload 3 1).testBit 2
    let s := hostWrite s (x.outAddr + x.outPos) (f.payload.take n)
    let flags := 2 * b2n (x.outLen != 0 && decide (room < f.payload.length)) + 4 * b2n more
    let s := cqWrite s (cqOfRing s sub) ⟨st, x.opcode, t, flags, x.htoken, n, sub, f.dev, f.payload.take 16⟩ x.irq
    if more then hstUpd s fun h => { h with slots := h.slots.modify t fun y => { y with outPos := y.outPos + n } } else slotFree s t

/-- A completion or DIRECT record reaches P8 sub-port `sub` (R505, R506, R513, R517, R518). -/
def recordArrive (s : State) (sub : Nat) (f : Frame) : State :=
  let x := slotAt s (tagSlot f.optag)
  let notice := f.typ != 0 && tagGen f.optag == 0
  if 16 ≤ sub ∨ (f.typ ≠ 0 ∧ f.typ < 0x80) then s
  else if (notice && f.typ != 0x81) || (!notice && (!x.busy || x.gen != tagGen f.optag || x.ring != sub)) then s.bump F.hrCnt_staleCpl 1
  else if !s.on (F.hrSqCfg_en sub) then s
  else if cqFull s (cqOfRing s sub) || s.hst.cplWait.any fun c => c.1 == sub then
    hstUpd s fun h => { h with cplWait := h.cplWait ++ [(sub, f)] }
  else recordNow s sub f

/-- A DIRECT record of a slot (R510, R513). -/
def recordDirect (s : State) (t status : Nat) : State :=
  let x := slotAt s t
  recordArrive s x.ring { mkFrame 0 0 8 x.ring 0 (t + 64 * x.ring + 1024 * x.gen) [byte status] with sport := 8 }

/-- Waiting completions of a CQ take the room there is, in order (R517). -/
def recordRetry : Nat → State → Nat → State
  | 0, s, _ => s
  | n + 1, s, m =>
    if cqFull s m then s
    else match s.hst.cplWait.find? fun c => cqOfRing s c.1 == m with
      | none => s
      | some c => recordRetry n (recordNow (hstUpd s fun h => { h with cplWait := h.cplWait.erase c }) c.1 c.2) m

/-- Held event records are written as space comes, in ascending source order (R520). -/
def eqRetry : Nat → State → State
  | 0, s => s
  | n + 1, s =>
    if eqEntries s ≤ s.hst.eqRecs.length then s
    else match s.ev.held with
      | [] => s
      | r :: rs => eqRetry n (eqWrite { s with ev := { s.ev with held := rs } } r)

-- Doorbells (R501) -------------------------------------------------------------------------------------------------------------------

/-- A doorbell that is ignored. -/
def doorbellBad (s : State) : State := raise (s.bump F.hrCnt_dbIgn 1) 104 0

/-- How many records a head doorbell releases, if it may: on a full ring its own index releases all (log entry 84). -/
def released (size head idx have_ : Nat) : Option Nat :=
  if size ≤ idx then none
  else
    let n := (idx + size - head) % size
    let n := if n = 0 ∧ have_ = size then size else n
    if have_ < n then none else some n

/-- SQn tail. -/
def sqDoorbell (s : State) (n idx : Nat) : State :=
  let idx := idx % 4096
  if 16 ≤ n ∨ !s.on (F.hrSqCfg_en n) then s
  else if sqEntries s n ≤ idx then doorbellBad s
  else s.set (F.hrSqStat_tail n) idx

/-- CQm head. -/
def cqDoorbell (s : State) (m idx : Nat) : State :=
  let idx := idx % 4096
  if 16 ≤ m ∨ !s.on (F.hrCqCfg_en m) then s
  else match released (cqEntries s m) (s.get (F.hrCqStat_head m)) idx (s.hst.cqRecs.getD m []).length with
    | none => doorbellBad s
    | some k =>
      let s := hstUpd (s.set (F.hrCqStat_head m) idx) fun h => { h with cqRecs := h.cqRecs.modify m fun l => l.drop k }
      recordRetry s.hst.cplWait.length s m

/-- Event ring head. -/
def eqDoorbell (s : State) (idx : Nat) : State :=
  let idx := idx % 4096
  if !s.on F.hrEqCfg_en then s
  else match released (eqEntries s) (s.get F.hrEqStat_head) idx s.hst.eqRecs.length with
    | none => doorbellBad s
    | some k =>
      let s := hstUpd (s.set F.hrEqStat_head idx) fun h => { h with eqRecs := h.eqRecs.drop k }
      eqRetry s.ev.held.length s

end Sys2Proof.Machine
end

