-- ==== Sys2Proof/Machine/Cascade.lean ====
section
/-! DEFINITION. The cascade over Peluk links (15_cascade.md): links and their cells, enumeration, the set of down links
and the routes, passing frames, return slots; and FRAME_DELIVERED and PORT_DOWN of the switch, which need it. -/

namespace Sys2Proof.Machine

/-- Replace the cascade's state. -/
def plUpd (s : State) (f : Pl → Pl) : State := { s with pl := f s.pl }

/-- Link `l` (0 PL0 upstream, 1 PL1 downstream), and its replacement. -/
def plLink (s : State) (l : Nat) : PlLink := s.pl.links.getD l PlLink.fresh
def plLinkUpd (s : State) (l : Nat) (f : PlLink → PlLink) : State :=
  plUpd s fun p => { p with links := p.links.modify l f }

/-- NDEV in force. -/
def plNdev (s : State) : Nat := s.get F.plStat_rndev

/-- The fields of PL_LINK0 and PL_LINK1. -/
def plUpF (l : Nat) : Fd := ⟨W.plLink0 + 4 * l, 0, 0⟩
def plPeerF (l : Nat) : Fd := ⟨W.plLink0 + 4 * l, 13, 8⟩
def plPeerRoleF (l : Nat) : Fd := ⟨W.plLink0 + 4 * l, 15, 14⟩
def plUp (s : State) (l : Nat) : Bool := s.on (plUpF l)

/-- Send a control set on a link that is up. -/
def plSend (s : State) (l : Nat) (x : PlSet) : State :=
  if plUp s l then plLinkUpd s l fun k => { k with sent := k.sent ++ [x] } else s

/-- LSTAT is sent three times (Table 15.1). -/
def plLstat (s : State) (l lk : Nat) (up : Bool) : State :=
  (List.range 3).foldl (fun s _ => plSend s l (.lstat lk up)) s

/-- A fault code and its event (Table 15.3). -/
def plFault (s : State) (code : Nat) : State := raise (s.set F.plStat_fault code) 111 0

-- Routes (R546–R548) -----------------------------------------------------------------------------------------

/-- The number of the link behind port PL`l` (R534): link k runs from device k's PL1. -/
def plLinkNo (s : State) (l : Nat) : Nat :=
  if l = 1 then thisDev s else (thisDev s + plNdev s - 1) % max 1 (plNdev s)

/-- Device `d` is reached by PL1, and by PL0 (R547). -/
def plReach1 (s : State) (d : Nat) : Bool :=
  let n := max 1 (plNdev s)
  (List.range ((d + n - thisDev s) % n)).all fun k => !s.pl.down.contains ((thisDev s + k) % n)
def plReach0 (s : State) (d : Nat) : Bool :=
  let n := max 1 (plNdev s)
  (List.range ((thisDev s + n - d) % n)).all fun k => !s.pl.down.contains ((d + k) % n)

/-- The route toward `d`: 1 PL1, 0 PL0; `fresh` forgets the present one (R547). -/
def plChoose (s : State) (fresh : Bool) (d : Nat) : Option Nat :=
  let n := max 1 (plNdev s)
  let r1 := plReach1 s d
  let r0 := plReach0 s d
  let best := if r1 && r0 then
      some (if (d + n - thisDev s) % n ≤ (thisDev s + n - d) % n then 1 else 0)
    else if r1 then some 1 else if r0 then some 0 else none
  if fresh then best
  else match plRoute s d with
    | some 10 => if r1 then some 1 else if r0 then some 0 else none
    | some _ => if r0 then some 0 else if r1 then some 1 else none
    | none => best

/-- The device takes part in the ring: it holds an ID and RING_OK. -/
def plInRing (s : State) : Bool := s.pl.hasId && s.on F.plStat_ringOk

/-- Recompute the routes; CLOSED says that no link is down. Whether a route changed is answered. -/
def plReroute (s : State) (fresh : Bool) : Bool × State :=
  let ds := (List.range 64).filter fun d => decide (d < plNdev s) && d != thisDev s
  let rs := if plInRing s then ds.filterMap fun d => (plChoose s fresh d).map fun r => (d, r) else []
  let mask := fun (r lo : Nat) => ((rs.filter fun x => x.2 == r && x.1 / 32 == lo).map fun x => x.1 % 32).foldl setBit 0
  let w := [mask 0 0, mask 0 1, mask 1 0, mask 1 1].map (BitVec.ofNat 32)
  let old := [s.getW W.plReach0Lo, s.getW W.plReach0Hi, s.getW W.plReach1Lo, s.getW W.plReach1Hi]
  let s := loadWords s [W.plReach0Lo, W.plReach0Hi, W.plReach1Lo, W.plReach1Hi] (w.flatMap fun x => leBytes 4 x.toNat)
  let s := (s.set F.plStat_nreach rs.length).setB F.plStat_closed (plInRing s && s.pl.down.isEmpty)
  (w != old, s)

/-- After a change of ID, ring state or link set: new routes, and RING (Table 15.3). -/
def plChanged (s : State) : State := raise (plReroute s false).2 110 0

/-- Mark a link of the ring down or up; whether that changed the set. -/
def plMark (s : State) (lk : Nat) (up : Bool) : Bool × State :=
  if up then (s.pl.down.contains lk, plUpd s fun p => { p with down := p.down.filter (· != lk) })
  else if s.pl.down.contains lk then (false, s) else (true, plUpd s fun p => { p with down := lk :: p.down })

-- Sending cells (R537–R541) ---------------------------------------------------------------------------------------

/-- The cells of a frame's bytes, 256 to a cell. -/
def plCells (cls origin : Nat) (bs : List Byte) : List PlCell :=
  let n := (bs.length + 255) / 256
  (List.range n).map fun i =>
    { cls, first := i == 0, last := i + 1 == n, lseq := 0, origin := if i = 0 then origin else 0
      data := (bs.drop (256 * i)).take 256, pass := false, whole := if i + 1 = n then bs else [], worg := origin }

/-- The next waiting cell of class `c`: of the frame that is open there, else the first one (R538). -/
def plNext (k : PlLink) (c : Nat) : Option PlCell :=
  let o := k.open_.getD c 0
  k.waiting.find? fun x => x.cls == c && (if o = 0 then true else if o = 2 then x.pass else !x.pass)

/-- Give cells of a class back to the sender on link `l`: CRED carries the running count (R539). -/
def plFree (s : State) (l c n : Nat) : State :=
  let s := plLinkUpd s l fun k => { k with freed := k.freed.modify c fun x => (x + n) % 256 }
  plSend s l (.cred c ((plLink s l).freed.getD c 0))

/-- The header of a cell (Table 15.2). -/
def plHdr (x : PlCell) : List Byte :=
  [byte (x.cls + 4 * b2n x.first + 8 * b2n x.last), byte x.lseq, byte x.origin, byte (x.data.length - 1)]

/-- A cell as it crosses the link, between SOC and EOC: header, bytes, and the CRC-32 of R390 over both (R537). -/
def plWire (x : PlCell) : List Byte := plHdr x ++ x.data ++ leBytes 4 (crc32 (plHdr x ++ x.data))

/-- A cell leaves by link `l`: it takes the next LSEQ and credit, and is kept until acknowledged. -/
def plCellOut (s : State) (l : Nat) (x : PlCell) : State :=
  plLinkUpd s l fun k =>
    { k with
      sent := k.sent ++ [.cell (plWire { x with lseq := k.txSeq })]
      unacked := k.unacked ++ [{ x with lseq := k.txSeq }]
      txSeq := (k.txSeq + 1) % 256
      credit := k.credit.modify x.cls (· - 1)
      open_ := k.open_.set x.cls (if x.last then 0 else if x.pass then 2 else 1) }

/-- Send waiting cells while credit lasts, class order C0, C3, C1, C2 (R538, R539); none while a passing cell is on the
wire. -/
def plPump (l : Nat) : Nat → State → State
  | 0, s => s
  | n + 1, s =>
    let k := plLink s l
    if !plUp s l || k.fwding.isSome then s
    else
      match [0, 3, 1, 2].findSome? fun c => if k.credit.getD c 0 = 0 then none else plNext k c with
      | none => s
      | some x =>
        let s := plCellOut (plLinkUpd s l fun k => { k with waiting := k.waiting.erase x }) l x
        plPump l n (if x.pass then plFree s (1 - l) x.cls 1 else s)

/-- Pump a link until nothing more can be sent. -/
def plRun (s : State) (l : Nat) : State := plPump l ((plLink s l).waiting.length + 1) s

/-- Queue cells on a link and send what can be sent. -/
def plQueue (s : State) (l : Nat) (xs : List PlCell) : State :=
  plRun (plLinkUpd s l fun k => { k with waiting := k.waiting ++ xs }) l

-- Return slots (R551–R553) --------------------------------------------------------------------------------------------

/-- BOUND follows the table. -/
def plBound (s : State) : State := s.set F.plSlots_bound s.pl.slots.length

/-- The slot of a triple, bound now if it is new; `none` when all 255 are bound. -/
def plSlotFor (s : State) (origin sport ssub : Nat) : Option (Nat × State) :=
  match s.pl.slots.find? fun x => x.2.origin == origin && x.2.sport == sport && x.2.ssub == ssub with
  | some x => some (x.1, s)
  | none =>
    match (List.range 255).find? fun i => (sget s.pl.slots i).isNone with
    | none => none
    | some i => some (i, plBound (plUpd s fun p => { p with slots := sput p.slots i ⟨origin, sport, ssub, 0, s.now⟩ }))

/-- A frame came in through slot `i`: it is open unless it is a completion. -/
def plSlotUse (s : State) (i : Nat) (isOpen : Bool) : State :=
  plUpd s fun p => { p with slots := p.slots.map fun x =>
    if x.1 = i then (i, { x.2 with open_ := x.2.open_ + b2n isOpen, last := s.now }) else x }

/-- A frame of slot `i` has been completed. -/
def plSlotDone (s : State) (i : Nat) : State :=
  plUpd s fun p => { p with slots := p.slots.map fun x =>
    if x.1 = i then (i, { x.2 with open_ := x.2.open_ - 1, last := s.now }) else x }

/-- A completion that carries MORE does not complete its frame (R552). -/
def plMore (f : Frame) : Bool := f.typ == 0x85 && (leAt f.payload 3 1).testBit 2

/-- A completion addressed to a slot leaves with the slot's triple restored (R553). -/
def plRestore (s : State) (f : Frame) : Frame × State :=
  if 0x80 ≤ f.typ ∧ (f.dport = 9 ∨ f.dport = 10) then
    match sget s.pl.slots f.dsub with
    | none => (f, s)
    | some x =>
      ({ f with dport := x.sport, dsub := x.ssub, dev := x.origin, dir := false },
        if plMore f then s else plSlotDone s f.dsub)
  else (f, s)

-- Entering from the ring -------------------------------------------------------------------------------------------------

/-- A frame that arrived whole on link `l` enters the switch by P9 or P10 under its return slot; `false` when it has to
wait (R551–R553, R558). -/
def plEnter (s : State) (l origin : Nat) (bs : List Byte) : Bool × State :=
  let port := 9 + l
  if !hdrOk bs then (true, raise (s.bump F.swCnt0_hcrc 1) (54 + port) 8)
  else
    let f := frameOf bs
    if f.cls != 3 && noNewWork s 36 then (false, s)
    else if 0x80 ≤ f.typ ∨ f.typ = 0x40 then (true, swIngress s port 255 origin (hdrRsvOk bs) f)
    else
      match plSlotFor s origin f.sport f.ssub with
      | none => (false, s)
      | some (i, s) => (true, swIngress (plSlotUse s i true) port i origin (hdrRsvOk bs) f)

/-- Complete a passing frame PORT_DOWN to its originator (R549). -/
def plLostFrame (s : State) (origin : Nat) (bs : List Byte) : State :=
  let f := frameOf bs
  let s := s.bump F.plCnt1_flushed 1
  if 0x80 ≤ f.typ then s
  else swComplete s ⟨f.sport, f.ssub, origin, f.cls, f.optag, false⟩ f.typ f.dport f.dsub St.portDown 0 0 0

/-- A class of link `l` is held up behind a frame waiting for this device. -/
def plHeld (s : State) (l c : Nat) : Bool :=
  (s.pl.slotWait.any fun w => w.link == l && w.cls == c) || ((plLink s l).held.any fun x => x.cls == c)

/-- A cell of a passing frame goes on to the other link (R541, R549). -/
def plPass (s : State) (l : Nat) (x : PlCell) : State :=
  let o := 1 - l
  let k := plLink s l
  let broken := (!x.first && k.brk.getD x.cls false) || !plUp s o
  let org := k.rxOrg.getD x.cls 0
  let whole := k.rx.getD x.cls []
  let s := plLinkUpd s l fun k => { k with brk := k.brk.set x.cls (broken && !x.last) }
  if broken then
    let s := plFree (plLinkUpd s o fun k => if k.fwding = some x.cls then { k with fwding := none } else k) l x.cls 1
    if x.last then plLostFrame s org whole else s
  else
    let y := { x with pass := true, whole := if x.last then whole else [], worg := org }
    if (plLink s o).fwding = some x.cls then
      plRun (plFree (plCellOut (plLinkUpd s o fun k => { k with fwding := none, credit := k.credit.modify x.cls (· + 1) }) o y)
        l x.cls 1) o
    else plQueue s o [y]

/-- Take a cell received in order: it joins its frame; the frame is for this device or passes (R549, R551). -/
def plTake (s : State) (l : Nat) (x : PlCell) : State :=
  let s := plLinkUpd s l fun k =>
    { k with rx := k.rx.set x.cls (if x.first then x.data else k.rx.getD x.cls [] ++ x.data)
             rxOrg := if x.first then k.rxOrg.set x.cls x.origin else k.rxOrg }
  let k := plLink s l
  let bs := k.rx.getD x.cls []
  let org := k.rxOrg.getD x.cls 0
  if !plInRing s || leAt bs 7 1 % 64 == thisDev s then
    if !x.last then plFree s l x.cls 1
    else
      match plEnter s l org bs with
      | (true, s) => plFree s l x.cls 1
      | (false, s) =>
        let s := plUpd s fun p => { p with slotWait := p.slotWait ++ [⟨l, x.cls, 1, org, bs⟩] }
        if noNewWork s 36 then s else plFault (s.bump F.plSlots_waits 1) 5
  else plPass s l x

/-- Take the cells that were held up in classes now free. -/
def plUnhold (l : Nat) : Nat → State → State
  | 0, s => s
  | n + 1, s =>
    match (plLink s l).held.find? fun x => !(s.pl.slotWait.any fun w => w.link == l && w.cls == x.cls) with
    | none => s
    | some x => plUnhold l n (plTake (plLinkUpd s l fun k => { k with held := k.held.erase x }) l x)

/-- Frames waiting in the link buffers try again, and the cells behind them follow. -/
def plRetry (s : State) : State :=
  let ws := s.pl.slotWait
  let s := ws.foldl (fun s w =>
    match plEnter s w.link w.origin w.bytes with
    | (true, s) => plFree s w.link w.cls w.cells
    | (false, s) => plUpd s fun p => { p with slotWait := p.slotWait ++ [w] }) (plUpd s fun p => { p with slotWait := [] })
  [0, 1].foldl (fun s l => plUnhold l (plLink s l).held.length s) s

-- Links up and down (R535, R536, R549, R550) ----------------------------------------------------------------------------

/-- The head begins an enumeration (R543, steps 1 and 4). -/
def plEnumStart (s : State) : State :=
  let s := plUpd (s.set F.plStat_enumerating 1) fun p => { p with enumed := true, enumDn := false, enumUp := false }
  if plUp s 1 then plSend s 1 (.enum 1 0 false (plNdevCfg s))
  else
    let s := plUpd s fun p => { p with enumDn := true }
    if plUp s 0 then plSend s 0 (.enum (plNdevCfg s - 1) 1 false (plNdevCfg s)) else plUpd s fun p => { p with enumUp := true }

/-- The head's enumeration ends once both directions have (R543, step 5). -/
def plEnumCheck (s : State) : State :=
  if s.on F.plStat_enumerating && s.pl.enumDn && s.pl.enumUp then
    let s := (s.set F.plStat_enumerating 0).set F.plStat_rndev (plNdevCfg s)
    let own := [0, 1].filter fun l => !plUp s l
    let s := s.set F.plStat_ringOk 1
    plChanged (own.foldl (fun s l => (plMark s (plLinkNo s l) false).2) s)
  else s

/-- The downstream direction has ended without closing the ring: the upstream one follows (R543, step 4). -/
def plEnumDnEnd (s : State) : State :=
  let s := plUpd s fun p => { p with enumDn := true }
  if plUp s 0 then plSend s 0 (.enum (plNdevCfg s - 1) 1 false (plNdevCfg s))
  else plEnumCheck (plUpd s fun p => { p with enumUp := true })

/-- The cells of a passing frame still incomplete are dropped when its incoming link is lost (R550). -/
def plDropOpen (k : PlLink) : PlLink :=
  (List.range 4).foldl (fun k c =>
    let w := k.waiting
    let lastAt := (w.reverse.findIdx? fun x => x.cls == c && x.pass && x.last).map fun i => w.length - 1 - i
    let keep := (List.range w.length).filter fun i =>
      match w[i]? with
      | some x => !(x.cls == c && x.pass) || (match lastAt with
        | some j => decide (i ≤ j)
        | none => false)
      | none => false
    let more := keep.any fun i => match w[i]? with
      | some x => x.cls == c && x.pass
      | none => false
    { k with waiting := keep.filterMap (w[·]?)
             open_ := if k.open_.getD c 0 = 2 ∧ !more then k.open_.set c 0 else k.open_ }) k

/-- Link `l` is lost (R536): its port goes down, frames not wholly sent complete PORT_DOWN (R549), frames sent and not
acknowledged are not completed (R550); the loss is told to the ring first, and every completion takes the route it leaves
(R546, R548). -/
def plLinkLost (s : State) (l : Nat) : State :=
  if !plUp s l then s
  else
    let k := plLink s l
    let s := (s.set (plUpF l) 0).bump F.plCnt1_unacked (k.unacked.filter fun x => x.last).length
    let lostWhole := k.waiting.filter fun x => x.last
    let brk := (List.range 4).map fun c =>
      k.open_.getD c 0 == 2 || (k.waiting.any fun x => x.cls == c && x.pass) || k.fwding == some c
    let s := plLinkUpd s l fun _ => { PlLink.fresh with sent := k.sent }
    let s := plLinkUpd s (1 - l) fun k => plDropOpen { k with
      brk := List.zipWith (· || ·) k.brk brk, fwding := none }
    let s := (k.waiting.filter fun x => x.pass).foldl (fun s x => plFree s (1 - l) x.cls 1) s
    let s := plUpd s fun p => { p with slotWait := p.slotWait.filter fun w => w.link != l }
    let s := raise s (108 + l) 0
    let s := if plInRing s then
        let (ch, s) := plMark s (plLinkNo s l) false
        let s := plLstat s (1 - l) (plLinkNo s l) false
        if ch then plChanged s else s
      else s
    let s := cphPortDown (swPortGoesDown s (9 + l)) fun o => o.ext && o.b == 9 + l
    let s := lostWhole.foldl (fun s x => plLostFrame s x.worg x.whole) s
    if s.on F.plStat_enumerating then
      (if l = 1 ∧ !s.pl.enumDn then plEnumDnEnd s
       else if l = 0 ∧ !s.pl.enumUp ∧ s.pl.enumDn then plEnumCheck (plUpd s fun p => { p with enumUp := true })
       else s)
    else s

/-- Link `l` has trained (R535): the peer's ROLE and ID from its TS. The head enumerates once (R543); a device with an ID
sends its neighbour's position unless the peer shows it (R545). -/
def plLinkComes (s : State) (l role id : Nat) : State :=
  if plUp s l || !plRuns s then s
  else
    let s := plLinkUpd s l fun k => { PlLink.fresh with sent := k.sent }
    let s := ((s.set (plUpF l) 1).set (plPeerF l) id).set (plPeerRoleF l) role
    let s := swPortComesUp (raise s (108 + l) 0) (9 + l)
    let s := if plInRing s then
        let (ch, s) := plMark s (plLinkNo s l) true
        let s := plLstat s (1 - l) (plLinkNo s l) true
        if ch then plChanged s else s
      else s
    if plRole s = 1 ∧ !s.pl.enumed then plEnumStart s
    else if plInRing s then
      let n := plNdev s
      let pos := if l = 1 then thisDev s + 1 else thisDev s + n - 1
      if pos % n = id ∨ pos % n = 0 then s
      else plSend s l (.enum (pos % n) (1 - l) false n)
    else s

-- Enumeration at the head and at members (R543–R545) -------------------------------------------------------------------------

/-- A member takes a position (R543, step 2): ID, NDEV, RING_OK, its own down links told to the ring. -/
def plTakeId (s : State) (id n : Nat) : State :=
  let s := ((s.set F.idDevnum_devid id).set F.plStat_rndev n).set F.plStat_ringOk 1
  let s := plUpd s fun p => { p with hasId := true, down := [] }
  let own := [0, 1].filter fun l => !plUp s l
  let s := own.foldl (fun s l => plLstat (plMark s (plLinkNo s l) false).2 (1 - l) (plLinkNo s l) false) s
  plChanged s

/-- An ENUM set arrives on link `l` (R543–R545). -/
def plEnumIn (s : State) (l id dir : Nat) (endd : Bool) (n : Nat) : State :=
  let role := plRole s
  if role = 0 ∨ !plUp s l then s
  else if role = 1 then
    if !s.on F.plStat_enumerating then plFault s 1
    else if l = 0 ∧ dir = 0 ∧ !endd then
      let s := if id = plNdevCfg s then s else plFault s 2
      plEnumCheck (plUpd s fun p => { p with enumDn := true, enumUp := true })
    else if endd ∧ dir = 0 ∧ l = 1 then (if s.pl.enumDn then s else plEnumDnEnd s)
    else if endd ∧ dir = 1 ∧ l = 0 then plEnumCheck (plUpd s fun p => { p with enumUp := true })
    else plFault s 1
  else if endd then plSend s (1 - l) (.enum id dir true n)
  else if id = 0 ∨ n ≤ id then plFault s 4
  else if (s.pl.hasId ∧ id = thisDev s) ∨ l ≠ dir then s
  else
    let s := plTakeId s id n
    let o := 1 - l
    if plUp s o then plSend s o (.enum (if dir = 0 then id + 1 else id - 1) dir false n)
    else plSend s l (.enum id dir true n)

-- Loss of the ring (R557, R559) ------------------------------------------------------------------------------------------------

/-- Both links stop and everything in them is lost; the device holds no ID and no return slot (R559). -/
def plLose (s : State) : State :=
  let s := plUpd s fun _ => { hasId := false, down := [], links := [PlLink.fresh, PlLink.fresh], slots := [], slotWait := []
                              enumed := false, enumDn := false, enumUp := false }
  let s := (s.setW W.plLink0 0#32).setW W.plLink1 0#32
  let s := ((s.set F.plStat_ringOk 0).set F.plStat_enumerating 0).set F.plStat_rndev 0
  plBound (plReroute s true).2

/-- The links are held down while SYSPLL does not run or the switch is parked (R557): each goes down as a loss. -/
def plHoldDown (s : State) : State := plLinkLost (plLinkLost s 0) 1

/-- At the start a head takes ID 0 (R532). -/
def plStart (s : State) : State :=
  plUpd ((s.setB F.idDevnum_head (plRole s == 1)).set F.idDevnum_devid 0) fun p => { p with hasId := plRole s == 1 }

/-- A write that changes ROLE (R532): both links go into reset, the ID and the return slots are given up, and the device
begins in its new role; `old` is the state before (DEDUCED, log entry 146). -/
def plRoleChange (old s : State) : State :=
  if plRole old = plRole s then s else raise (plStart (plLose (plHoldDown s))) 110 0

-- The commands --------------------------------------------------------------------------------------------------------------------

/-- LINK_UP (R535). -/
def execPlLinkUp (link role id : Nat) (s : State) : Host.Outcome State Fault Refusal :=
  .next (if link < 2 then plLinkComes s link role id else s)

/-- LINK_DOWN (R536). -/
def execPlLinkDown (link : Nat) (s : State) : Host.Outcome State Fault Refusal :=
  .next (if link < 2 then plLinkLost s link else s)

/-- The cell a header and its bytes spell (Table 15.2). -/
def plCellOf (hdr data : List Byte) : PlCell :=
  { cls := leAt hdr 0 1 % 4, first := (leAt hdr 0 1).testBit 2, last := (leAt hdr 0 1).testBit 3, lseq := leAt hdr 1 1
    origin := leAt hdr 2 1 % 64, data := data.take (leAt hdr 3 1 + 1), pass := false, whole := [], worg := 0 }

/-- End a passing cell that cannot be completed with EOC_BAD: the outgoing link is free again and its credit unused. -/
def plStomp (s : State) (o : Nat) : State :=
  match (plLink s o).fwding with
  | none => s
  | some c => plRun (plLinkUpd s o fun k => { k with sent := k.sent ++ [.eocBad c], fwding := none, credit := k.credit.modify c (· + 1) }) o

/-- A received cell is good: its length is the header's, and its CRC that of header and bytes (R537). -/
def plCrcOk (hdr data crc : List Byte) : Bool :=
  hdr.length == 4 && data.length == leAt hdr 3 1 + 1 && crc == leBytes 4 (crc32 (hdr ++ data))

/-- CELL_RECEIVED (R540, R541): a cell with its header, bytes and CRC, and whether it ended EOC_BAD. -/
def execPlCellReceived (link : Nat) (hdr data crc : List Byte) (stomped : Bool) (s : State) : Host.Outcome State Fault Refusal :=
  .next <|
    if 2 ≤ link || !plUp s link then s
    else
      let x := plCellOf hdr data
      let k := plLink s link
      if stomped then plStomp s (1 - link)
      else if !plCrcOk hdr data crc then plStomp (plSend (s.bump F.plCnt0_crcerr 1) link (.nak k.rxSeq)) (1 - link)
      else if x.lseq ≠ k.rxSeq then plStomp s (1 - link)
      else
        let s := plSend (plLinkUpd s link fun k => { k with rxSeq := (k.rxSeq + 1) % 256 }) link (.ack x.lseq)
        if plHeld s link x.cls then plLinkUpd s link fun k => { k with held := k.held ++ [x] }
        else plTake s link x

/-- SOC_RECEIVED (R541, R542): a passing cell begins to leave before its end has arrived, when the outgoing link is idle
and holds credit for its class. `head` is what has arrived of the frame's first bytes. -/
def execPlSocReceived (link : Nat) (hdr head : List Byte) (s : State) : Host.Outcome State Fault Refusal :=
  .next <|
    if 2 ≤ link || !plUp s link || !plUp s (1 - link) || !plInRing s then s
    else
      let x := plCellOf hdr []
      let k := plLink s link
      let o := plLink s (1 - link)
      let dev := leAt (if x.first then head else k.rx.getD x.cls []) 7 1 % 64
      let src := o.open_.getD x.cls 0
      if x.lseq = k.rxSeq ∧ dev ≠ thisDev s ∧ !plHeld s link x.cls ∧ o.fwding = none ∧ o.credit.getD x.cls 0 ≠ 0
          ∧ !(o.waiting.any fun y => y.cls == x.cls) ∧ (if x.first then src = 0 else src = 2)
          ∧ !(!x.first && k.brk.getD x.cls false) then
        plLinkUpd s (1 - link) fun k => { k with fwding := some x.cls, credit := k.credit.modify x.cls (· - 1) }
      else s

/-- ACK (R540): cells up to LSEQ are released. -/
def execPlAck (link lseq : Nat) (s : State) : Host.Outcome State Fault Refusal :=
  .next <| match (plLink s link).unacked.findIdx? fun x => x.lseq == lseq with
    | none => s
    | some i => plLinkUpd s link fun k => { k with unacked := k.unacked.drop (i + 1), replays := 0 }

/-- Replay from the oldest unacknowledged cell; the fourth replay in a row loses the link (R536, R540). -/
def plReplay (s : State) (l : Nat) : State :=
  if !plUp s l || (plLink s l).unacked.isEmpty then s
  else
    let s := plLinkUpd (s.bump F.plCnt0_replay 1) l fun k =>
      { k with replays := k.replays + 1, sent := k.sent ++ k.unacked.map fun x => .cell (plWire x) }
    if 4 ≤ (plLink s l).replays then plLinkLost s l else s

/-- NAK (R540): cells before LSEQ have arrived; the sender replays from it. -/
def execPlNak (link lseq : Nat) (s : State) : Host.Outcome State Fault Refusal :=
  .next <| match (plLink s link).unacked.findIdx? fun x => x.lseq == lseq with
    | none => s
    | some i =>
      plReplay (plLinkUpd s link fun k => { k with unacked := k.unacked.drop i, replays := if i = 0 then k.replays else 0 }) link

/-- CRED (R539): the cumulative count of cells the receiver has freed in a class. -/
def execPlCred (link cls count : Nat) (s : State) : Host.Outcome State Fault Refusal :=
  .next <|
    if 2 ≤ link || 4 ≤ cls || !plUp s link then s
    else plRun (plLinkUpd s link fun k =>
      { k with credit := k.credit.modify cls (· + (count + 256 - k.credIn.getD cls 0) % 256)
               credIn := k.credIn.set cls (count % 256) }) link

/-- REPLAY_TIMEOUT (R540): 20 µs without an ACK. -/
def execPlReplayTimeout (link : Nat) (s : State) : Host.Outcome State Fault Refusal := .next (plReplay s link)

/-- LSTAT (R546): applied, and relayed out of the other port only if it changed the set. -/
def execPlLstat (link lk : Nat) (up : Bool) (s : State) : Host.Outcome State Fault Refusal :=
  .next <|
    if 2 ≤ link || !plUp s link || !plInRing s then s
    else
      let (ch, s) := plMark s lk up
      if ch then plChanged (plLstat s (1 - link) lk up) else s

/-- ENUM (R543–R545). -/
def execPlEnum (link id dir : Nat) (endd : Bool) (ndev : Nat) (s : State) : Host.Outcome State Fault Refusal :=
  .next (if link < 2 then plEnumIn s link id dir endd ndev else s)

/-- ENUM_TIMEOUT (R543). -/
def execPlEnumTimeout (s : State) : Host.Outcome State Fault Refusal :=
  .next <| if s.on F.plStat_enumerating then plFault (s.set F.plStat_enumerating 0) 3 else s

/-- SLOT_RELEASE (R552): a slot whose frames are completed has not been used for 10 ms. -/
def execPlSlotRelease (slot : Nat) (s : State) : Host.Outcome State Fault Refusal :=
  .next <| match sget s.pl.slots slot with
    | none => s
    | some x =>
      if x.open_ ≠ 0 then s
      else plRetry (plBound (plUpd s fun p => { p with slots := sdel p.slots slot }))

/-- EVENT_FWD (R555): a member's record is posted to the head's event ring. -/
def execPlEventFwd (req : Req) (payload : List Byte) (s : State) : Host.Outcome State Fault Refusal :=
  .next <|
    let _ := req
    eqPost s ⟨leAt payload 0 1, leAt payload 1 1 % 64, (leAt payload 3 1).testBit 0, leAt payload 2 1, leAt payload 4 4,
      leAt payload 8 4, leAt payload 12 4⟩

/-- PL_CMD.ENUM (R543): at the head only. -/
def plEnumCmdOp (s : State) : State := if plRole s = 1 then plEnumCheck (plEnumStart s) else s

/-- PL_CMD.REROUTE (R547): at the head only. -/
def plRerouteOp (s : State) : State :=
  if plRole s = 1 then
    let (ch, s) := plReroute s true
    if ch then raise s 110 0 else s
  else s

/-- PL_CMD.CLR_CNT. -/
def plClrCntOp (s : State) : State := ((s.setW W.plCnt0 0#32).setW W.plCnt1 0#32).set F.plSlots_waits 0

/-- PL_ENUM (R543). -/
def execPlEnumCmd (s : State) : Host.Outcome State Fault Refusal := .next (plEnumCmdOp s)
/-- REROUTE (R547). -/
def execPlReroute (s : State) : Host.Outcome State Fault Refusal := .next (plRerouteOp s)
/-- PL_CLR_CNT (R560). -/
def execPlClrCnt (s : State) : Host.Outcome State Fault Refusal := .next (plClrCntOp s)

/-- A VEHICLE frame addressed to P11 completes BAD_DESCRIPTOR (R730; its payload is the model's, log entry 147). -/
def canRefuses (s : State) (f : Frame) : State :=
  if f.typ = 0x08 then complete s 11 f.dsub (frameReq f) 0x08 [byte St.badDescriptor, 0#8, 0#8, 0#8] else s

/-- FRAME_DELIVERED (R420): the destination has the frame's last byte. P9 and P10 hand it to their link as cells, a
completion with its slot's triple restored (R537, R553); P11 refuses a VEHICLE frame (R730). -/
def execSwFrameDelivered (port : Nat) (s : State) : Host.Outcome State Fault Refusal :=
  .next <| match egDone s port with
    | none => s
    | some x =>
      let s := swDelivered s x
      if port = 9 ∨ port = 10 then
        let (f, s) := plRestore s x.frame
        plQueue s (port - 9) (plCells f.cls (thisDev s) (frameBytes f))
      else if port = 11 then canRefuses s x.frame
      else s

/-- PORT_DOWN (R442): a port or sub-port goes down, and the streams of owners behind it close (R345); what waits for a host
ring behind it is dropped (R518). -/
def execSwPortDown (port : Nat) (sub : Option Nat) (s : State) : Host.Outcome State Fault Refusal :=
  .next <| match sub with
    | none =>
      if port = 8 then p8Down s
      else cphPortDown (swPortGoesDown s port) fun o => if o.ext then o.b == port else o.a == port
    | some k =>
      let s := cphPortDown (swSubGoesDown s port k) fun o => !o.ext && o.a == port && o.b == k
      if port = 8 then slotsDrop s k else s

end Sys2Proof.Machine
end

