-- ==== Sys2Proof/Machine/Dir.lean ====
section
/-! DEFINITION. The tag directory (13_basin_directory.md R464–R485): lookup and cache, requests and their changes, tag
results written by the device, the NV image, load and write-through. -/

namespace Sys2Proof.Machine

/-- Replace the directory's state. -/
def dirUpd (s : State) (f : Dir → Dir) : State := { s with dir := f s.dir }

/-- The number of entries (R464). -/
abbrev dirSize : Nat := 12288

-- Entries (R464, Table 13.2) ----------------------------------------------------------------------------

/-- An entry with its CRC set. -/
def entSeal (e : List Byte) : List Byte :=
  let b := fit 62 e
  b ++ leBytes 2 (crc16 b)

/-- An entry with `n` bytes at `ofs` replaced by a number. -/
def entPut (e : List Byte) (ofs n v : Nat) : List Byte := overlay e ofs (leBytes n v)

/-- Store entry `i`. -/
def dirStore (s : State) (i : Nat) (e : List Byte) : State :=
  dirUpd s fun d => { d with entries := sputD (zeros 64) d.entries i (entSeal e) }

/-- Entry `i` as a request returns it. -/
def dirShown (s : State) (i : Nat) : List Byte := entSeal (dirEntry s i)

-- Lookup and cache (R467–R469) -----------------------------------------------------------------------------

/-- The two candidate buckets of a UID (R467). -/
def dirBuckets (uid : List Byte) : Nat × Nat :=
  let c := crc32 uid
  let b1 := c % 65536 % 3072
  let b2 := c / 65536 % 3072
  (b1, if b2 = b1 then (b1 + 1) % 3072 else b2)

/-- The entry a lookup finds: the VALID entries of both buckets compared by UID (R467). -/
def dirSeek (s : State) (uid : List Byte) : Option Nat :=
  let (b1, b2) := dirBuckets uid
  ((List.range 4).map (4 * b1 + ·) ++ (List.range 4).map (4 * b2 + ·)).find? fun i =>
    let e := dirEntry s i
    entValid e && e.take 8 == uid

/-- The free slots of a bucket, lowest first. -/
def bucketFree (s : State) (b : Nat) : List Nat :=
  ((List.range 4).map (4 * b + ·)).filter fun i => !entValid (dirEntry s i)

/-- The index an ADD takes (R467). -/
def dirPlace (s : State) (uid : List Byte) : Option Nat :=
  let (b1, b2) := dirBuckets uid
  let f1 := bucketFree s b1
  let f2 := bucketFree s b2
  (if f1.length < f2.length then f2 else f1).head?

/-- Drop the least recently used unpinned entry while the cache holds more than 1,024 (R469). -/
def cacheTrim (pinned : List Nat) (c : List Nat) : List Nat :=
  if c.length ≤ 1024 then c
  else
    match c.reverse.findIdx? fun i => !pinned.contains i with
    | some k => c.eraseIdx (c.length - 1 - k)
    | none => c

/-- The entries pinned: by queued tag accesses, by the running coil tasks whose tags they are, by the running sweep (R469). -/
def dirPins (s : State) : List Nat :=
  s.dir.pinned ++ (s.cld.txns.flatMap fun t => t.tags.filterMap fun g => dirSeek s g.uid)
    ++ (s.prx.cur.bind fun x => dirSeek s (slice x.item.data 0 8)).toList

/-- Entry `i` is used: it stands first in the cache (R469). -/
def cacheUse (s : State) (i : Nat) : State :=
  dirUpd s fun d => { d with cache := cacheTrim (dirPins s) (i :: d.cache.filter (· != i)) }

/-- Pin an entry for a tag access; false when 512 entries are pinned already (R469). -/
def dirPin (s : State) (i : Nat) : Bool × State :=
  if (dirPins s).contains i || decide ((dirPins s).eraseDups.length < 512) then
    (true, cacheUse (dirUpd s fun d => { d with pinned := i :: d.pinned }) i)
  else (false, s)

/-- A holder releases its pin. -/
def dirUnpin (s : State) (i : Nat) : State := dirUpd s fun d => { d with pinned := d.pinned.erase i }

/-- A lookup has to wait: the directory is loading (R483), or Basin is not ready and the cache does not hold the entry
(R484). -/
def lookWaits (s : State) (uid : List Byte) : Bool :=
  s.on F.dirStat_loading || (!s.on F.bsnStat_ready && !((dirSeek s uid).map fun i => s.dir.cache.contains i).getD false)

/-- A lookup by the device's own engines: its entry, with the cache and its counters moved on (R468, R469). -/
def dirLook (s : State) (uid : List Byte) : Option Nat × State :=
  match dirSeek s uid with
  | none => (none, s.bump F.dirCache_misses 1)
  | some i =>
    if s.dir.cache.contains i then (some i, cacheUse (s.bump F.dirCache_hits 1) i)
    else (some i, cacheUse (s.bump F.dirCache_misses 1) i)

-- The NV image and write-through (R480–R482) -----------------------------------------------------------------

/-- The 32 image bytes of an entry (R480). -/
def dirImage (e : List Byte) : List Byte :=
  let b := overlay (fit 28 e) 8 [byte (clrBit (leAt e 8 1) 4)] ++ [0#8, 0#8]
  b ++ leBytes 2 (crc16 b)

/-- The image page of an entry, and its address. -/
def dirPage (i : Nat) : Nat := i / 4
def dirPageAddr (p : Nat) : Nat := 0x60000 + 128 * p

/-- The bytes written to image page `p`: every entry that has been written or stands in `force` as its image, the others as
NV holds them (R480, R483). -/
def dirPageBytes (s : State) (p : Nat) (force : Nat) : List Byte :=
  (List.range 4).flatMap fun k =>
    let i := 4 * p + k
    let e := dirEntry s i
    if i == force || e.take 28 != zeros 28 then dirImage e else memRead s.nv.cells (0x60000 + 32 * i) 32

/-- Queue the write of image page `p` (R481): a request's change of security fields as a custody write, what a tag result changes
as an ordinary one (R382). -/
def dirWritePage (s : State) (p force : Nat) (own : Bool) (src : Nat) (cont : NvCont) : Bool × State :=
  let data := dirPageBytes s p force
  let (ok, s) := nvSubmit s (.raw (dirPageAddr p) data) (!own) own src cont
  (ok, if ok then dirUpd s fun d => { d with gathered := d.gathered.filter (· != p), pageTime := sput d.pageTime p s.now } else s)

/-- WT_MIN seconds have not passed since the last write of image page `p` (R481). -/
def dirPageRecent (s : State) (p : Nat) : Bool :=
  match sget s.dir.pageTime p with
  | some t => decide (s.now < t + 1000000 * s.get F.dirCtrl_wtMin)
  | none => false

/-- A tag result changed what is persistent in entry `i`: write its page, gather it, or note it unsaved (R481, R482). -/
def dirTagWrite (s : State) (i : Nat) : State :=
  let p := dirPage i
  if s.get F.nvProt_bp = 3 then raise (s.set F.dirStat_unsaved 1) 69 12
  else
    if dirPageRecent s p then dirUpd s fun d => { d with gathered := if d.gathered.contains p then d.gathered else p :: d.gathered }
    else (dirWritePage s p i true 15 .none).2

/-- A tag result: entry `i` becomes `f` of it (R470: no EPOCH changes). CHANNEL, AUTH and TEAR are written through. -/
def dirTagResult (s : State) (i : Nat) (f : List Byte → List Byte) : State :=
  let old := dirEntry s i
  if !entValid old then s
  else
    let new := f old
    let s := dirStore s i new
    if slice old 14 2 = slice new 14 2 ∧ (leAt old 8 1).testBit 3 = (leAt new 8 1).testBit 3 then s else dirTagWrite s i

/-- Add one to one of the saturating COUNTS (Table 13.2). -/
def entCount (e : List Byte) (k : Nat) : List Byte := entPut e (36 + 2 * k) 2 (satAdd 65535 (leAt e (36 + 2 * k) 2) 1)

/-- A tag was found on a channel: PRESENT, CHANNEL, LAST_SEEN and the count of finds. -/
def entFound (s : State) (ch : Nat) (e : List Byte) : List Byte :=
  let e := entPut (entPut e 8 1 (setBit (leAt e 8 1) 4)) 14 1 ch
  entCount (entPut e 28 4 s.rtcSec) 0

/-- A handshake ended with a completion code: AUTH, LAST_AUTH and its count. -/
def entAuth (s : State) (code : Nat) (e : List Byte) : List Byte :=
  let e := entPut e 15 1 code
  if code = St.ok then entCount (entPut e 32 4 s.rtcSec) 1 else entCount e 2

/-- A TEAR_SUSPECT outcome: TEAR and its count. -/
def entTear (e : List Byte) : List Byte := entCount (entPut e 8 1 (setBit (leAt e 8 1) 3)) 3

-- Answers (R477, R478) ---------------------------------------------------------------------------------------------

/-- Is the request a frame from an internal port (R303)? -/
def portInternal (p : Nat) : Bool := !(p == 8 || p == 9 || p == 10 || p == 12)

/-- The completion payload (R477). -/
def dirPayload (status op idx : Nat) (e : List Byte) : List Byte :=
  [byte status, byte op] ++ leBytes 2 idx ++ zeros 12 ++ fit 64 e

/-- Answer a request: its completion frame, or for DIR_CMD the result registers (R477, R478). -/
def dirAnswer (s : State) (req : Option Req) (payload : List Byte) : State :=
  match req with
  | some r => complete s 15 14 r 0x0A payload
  | none =>
    let s := loadWords s ((List.range 16).map W.dirBuf) (payload.drop 16)
    let s := (s.set F.dirRindex_index (leAt payload 2 2)).set F.dirResult_status (leAt payload 0 1)
    dirUpd ((s.wrapInc F.dirResult_seq).set F.dirResult_valid 1) fun d => { d with cmdPend := false }

/-- Answer with entry `i` as it stands. -/
def dirAnswerAt (s : State) (req : Option Req) (op status i : Nat) : State :=
  dirAnswer s req (dirPayload status op i (dirShown s i))

/-- Answer where the spec names no entry: INDEX and the entry are free (log entry 32). -/
def dirAnswerNone (s : State) (req : Option Req) (op status : Nat) : State :=
  let (i, s) := s.draw
  let (e, s) := s.drawBytes 64
  dirAnswer s req (dirPayload status op (i % dirSize) e)

-- Requests (R470–R477) -------------------------------------------------------------------------------------------------

/-- The checks of R476 but for the length and class of a frame. `d` is the 80-byte request. -/
def dirFieldsOk (s : State) (d : List Byte) : Bool :=
  let op := leAt d 0 1
  let idx := leAt d 2 2
  let e := slice d 16 64
  decide (1 ≤ op) && decide (op ≤ 6) && decide (leAt d 1 1 < 4) && decide (idx < dirSize)
  && slice d 6 10 == zeros 10
  && (if op = 1 then slice e 8 56 == zeros 56
      else if op = 4 ∨ op = 5 then
        decide (leAt e 8 1 < 32) && decide (leAt e 9 1 < 4) && slice e 12 2 == zeros 2
        && (decide (leAt e 14 1 < 48) || leAt e 14 1 == 0xFF)
        && leAt e 15 1 == 0 && slice e 28 36 == zeros 36
        && (op == 4 || slice e 0 8 == zeros 8 || slice e 0 8 == slice (dirEntry s idx) 0 8)
      else e == zeros 64)

/-- A frame request's length and class (R476). -/
def dirFrameOk (r : Req) (d : List Byte) : Bool :=
  d.length == 80 && (r.cls == 1 || r.cls == 2 || (r.cls == 0 && portInternal r.port))

/-- The source port under which a request's write is queued (R385). -/
def dirSrc (s : State) (req : Option Req) : Nat :=
  match req with
  | some r => r.port
  | none => s.dir.cmdSrc

/-- Make a request's change of entry `i` to `new`, revoking or not, write it through and leave the completion to the
write (R470, R472, R473, R482). -/
def dirChange (s : State) (req : Option Req) (op i : Nat) (new : List Byte) (revoking : Bool) (uid : List Byte) : State :=
  if nvProtected s false (.raw (dirPageAddr (dirPage i)) (zeros 128)) then
    dirAnswerAt (s.bump F.nvCnt_refused 1) req op St.nvProtected i
  else
    let ep := (leAt (dirEntry s i) 12 1 + 1) % 256
    let new := entPut (entPut new 12 1 ep) 13 1 (if revoking then ep else leAt (dirEntry s i) 13 1)
    let s := cacheUse (dirStore s i new) i
    let s := if revoking then sadAgeOut s uid else s
    (dirWritePage s (dirPage i) i false (dirSrc s req) (.dir req (dirPayload St.ok op i (dirShown s i)))).2

/-- ADD (R467, R470). -/
def dirAddOp (s : State) (req : Option Req) (d : List Byte) : State :=
  let e := slice d 16 64
  let uid := slice e 0 8
  match dirSeek s uid with
  | some i => dirAnswerAt s req 4 St.dirExists i
  | none =>
    match dirPlace s uid with
    | none => dirAnswerNone (raise s 69 11) req 4 St.dirFull
    | some i =>
      let fl := leAt e 8 1
      let new := uid ++ [byte (1 + 2 * natBits fl 2 1)] ++ slice e 9 3 ++ [0#8, 0#8] ++ slice e 14 1 ++ [0xFF#8]
        ++ slice e 16 12 ++ zeros 36
      dirChange s req 4 i new ((leAt d 1 1).testBit 0 || natBits fl 2 1 != 0) uid

/-- MODIFY (R470, R475, R477). TEAR is cleared by a 0 and never set. -/
def dirModifyOp (s : State) (req : Option Req) (d : List Byte) : State :=
  let i := leAt d 2 2
  let e := slice d 16 64
  let old := dirEntry s i
  if !entValid old then dirAnswerAt s req 5 St.dirNotFound i
  else if (leAt d 1 1).testBit 1 ∧ leAt d 5 1 ≠ leAt old 12 1 then dirAnswerAt s req 5 St.dirChanged i
  else
    let fl := leAt e 8 1
    let ofl := leAt old 8 1
    let nfl := 1 + 2 * natBits fl 2 1 + 8 * (natBits fl 3 3 * natBits ofl 3 3) + 16 * natBits ofl 4 4
    let new := overlay (overlay (overlay old 8 [byte nfl]) 9 (slice e 9 3)) 14 (slice e 14 1)
    let new := overlay new 16 (slice e 16 12)
    let revoking := (leAt d 1 1).testBit 0 || (fl.testBit 1 && !ofl.testBit 1) || (fl.testBit 2 && !ofl.testBit 2)
      || (leAt old 10 1 &&& leAt e 10 1) != leAt old 10 1 || slice old 9 1 != slice e 9 1 || slice old 11 1 != slice e 11 1
    dirChange s req 5 i new revoking (slice old 0 8)

/-- DELETE (R471). -/
def dirDeleteOp (s : State) (req : Option Req) (d : List Byte) : State :=
  let i := leAt d 2 2
  let old := dirEntry s i
  if !entValid old then dirAnswerAt s req 6 St.dirNotFound i
  else dirChange s req 6 i (zeros 64) true (slice old 0 8)

/-- NEXT: the first VALID entry at or after INDEX whose GROUP matches (R477). -/
def dirNextOp (s : State) (req : Option Req) (d : List Byte) : State :=
  let g := leAt d 4 1
  match s.dir.entries.find? fun x => decide (leAt d 2 2 ≤ x.1) && entValid x.2 && (g == 0xFF || leAt x.2 11 1 == g) with
  | some x => dirAnswerAt s req 3 St.ok x.1
  | none => dirAnswerNone s req 3 St.dirNotFound

/-- LOOKUP: a hit is answered at once; a miss waits for its Basin read (R468). -/
def dirLookupOp (s : State) (req : Option Req) (d : List Byte) : State :=
  match dirSeek s (slice d 16 8) with
  | some i =>
    if s.dir.cache.contains i then dirAnswerAt (cacheUse (s.bump F.dirCache_hits 1) i) req 1 St.ok i
    else dirUpd (s.bump F.dirCache_misses 1) fun x => { x with misses := x.misses ++ [⟨req, d⟩] }
  | none => dirUpd (s.bump F.dirCache_misses 1) fun x => { x with misses := x.misses ++ [⟨req, d⟩] }

/-- One request whose turn has come. -/
def dirDo (s : State) (req : Option Req) (d : List Byte) : State :=
  let op := leAt d 0 1
  if !dirFieldsOk s d then
    if leAt d 2 2 < dirSize then dirAnswerAt s req op St.badDescriptor (leAt d 2 2)
    else dirAnswerNone s req op St.badDescriptor
  else if op = 1 then dirLookupOp s req d
  else if op = 2 then dirAnswerAt s req 2 St.ok (leAt d 2 2)
  else if op = 3 then dirNextOp s req d
  else if op = 4 then dirAddOp s req d
  else if op = 5 then dirModifyOp s req d
  else dirDeleteOp s req d

/-- Requests wait: the block is stopped (R479), the directory is loading (R483), or Basin is not ready and the entry is
not in the cache (R484). -/
def dirWaits (s : State) (d : List Byte) : Bool :=
  noNewWork s 14 || s.on F.dirStat_loading
  || (!s.on F.bsnStat_ready && !(
    (leAt d 0 1 == 1 && ((dirSeek s (slice d 16 8)).map fun i => s.dir.cache.contains i).getD false)
    || ((leAt d 0 1 == 2 || leAt d 0 1 == 5 || leAt d 0 1 == 6) && s.dir.cache.contains (leAt d 2 2))))

/-- Run a request, or let it wait behind earlier ones. -/
def dirTake (s : State) (req : Option Req) (d : List Byte) : State :=
  if dirWaits s d then dirUpd s fun x => { x with waits := x.waits ++ [⟨req, d⟩] } else dirDo s req d

/-- Give the waiting requests another try, in order. -/
def dirRetry (s : State) : State :=
  let ws := s.dir.waits
  ws.foldl (fun s w => dirTake s w.req w.data) (dirUpd s fun x => { x with waits := [] })

/-- A request arrives: from a frame, whose OP byte is its row's (log entry 117), or from DIR_CMD written by source port `src`, with
bytes 16 to 79 in DIR_BUF0–15 and NEXT's filter in DIR_GRPIDX (R476, R478). -/
def dirArrive (s : State) (src op : Nat) (req : Option Req) (data : List Byte) : State :=
  match req with
  | some r =>
    let b := leAt data 0 1
    if !dirFrameOk r data || b != op then
      if leAt data 2 2 < dirSize then dirAnswerAt s req b St.badDescriptor (leAt data 2 2)
      else dirAnswerNone s req b St.badDescriptor
    else dirTake s req data
  | none =>
    if s.dir.cmdPend then s.set F.dirStat_overrun 1
    else
      let s := dirUpd ((s.set F.dirStat_overrun 0).set F.dirResult_valid 0) fun x => { x with cmdPend := true, cmdSrc := src }
      dirTake s none ([byte op] ++ slice data 1 3 ++ [byte (s.get F.dirGrpidx_group)] ++ slice data 5 1 ++ zeros 10
        ++ wordsBytes s ((List.range 16).map W.dirBuf))

/-- A write of DIR_CMD (R478). -/
def dirCmdWrite (s : State) (src : Nat) (w : W32) : State :=
  dirArrive s src (wBits w 2 0) none ([0#8, byte (wBits w 4 3)] ++ leBytes 2 (wBits w 29 16) ++ [0#8, byte (wBits w 15 8)])

-- Load and loss (R483–R485) ---------------------------------------------------------------------------------------------

/-- The entry image `i` loads as, and whether it is lost (R483). -/
def dirImageLoad (s : State) (i : Nat) : Option (List Byte) × Bool :=
  let b := memRead s.nv.cells (0x60000 + 32 * i) 32
  if b = zeros 32 then (none, false)
  else if leAt b 30 2 = crc16 (b.take 30) then (some (entSeal (b.take 28)), false)
  else (none, true)

/-- The image entries that NV lists any byte of, in ascending order. -/
def dirImages (s : State) : List Nat :=
  ((s.nv.cells.filter fun c => decide (0x60000 ≤ c.1) && decide (c.1 < 0x60000 + 32 * dirSize)).map
    fun c => (c.1 - 0x60000) / 32).eraseDups

/-- The load ends (R483). -/
def dirLoaded (s : State) : State :=
  let is_ := dirImages s
  let es := is_.filterMap fun i => (dirImageLoad s i).1.map fun e => (i, e)
  let lost := is_.filter fun i => (dirImageLoad s i).2
  let s := dirUpd s fun d => { d with entries := es, cache := [], loadRun := false }
  let s := if lost.isEmpty then s
    else raise ((s.set F.dirLost_count lost.length).set F.dirLost_first (lost.headD 0)) 69 10
  dirRetry (raise (s.set F.dirStat_loading 0) 69 9)

/-- Basin's content is lost (R484): capture records, extension and the directory; running requests send no completion
(R485) and gathered changes are lost (R481). -/
def basinLose (s : State) : State :=
  let s := bsnUpd s fun b => { b with mem := [], cap := [], capPos := 0, rseq := 0, capWait := [] }
  let s := dirUpd s fun d => { d with entries := [], cache := [], pinned := [], cmdPend := false, waits := [], misses := []
                                      loadRun := false, gathered := [] }
  ((s.set F.bsnStat_ready 0).set F.bsnStat_retained 0).set F.dirStat_loading 1

-- The commands ------------------------------------------------------------------------------------------------------------

/-- LOOKUP (R467, R468). -/
def execDirLookup (req : Option Req) (data : List Byte) (s : State) : Host.Outcome State Fault Refusal := .next (dirArrive s 8 1 req data)
/-- DIR_READ (R477). -/
def execDirRead (req : Option Req) (data : List Byte) (s : State) : Host.Outcome State Fault Refusal := .next (dirArrive s 8 2 req data)
/-- NEXT (R477). -/
def execDirNext (req : Option Req) (data : List Byte) (s : State) : Host.Outcome State Fault Refusal := .next (dirArrive s 8 3 req data)
/-- ADD (R467, R470). -/
def execDirAdd (req : Option Req) (data : List Byte) (s : State) : Host.Outcome State Fault Refusal := .next (dirArrive s 8 4 req data)
/-- MODIFY (R470). -/
def execDirModify (req : Option Req) (data : List Byte) (s : State) : Host.Outcome State Fault Refusal := .next (dirArrive s 8 5 req data)
/-- DELETE (R471). -/
def execDirDelete (req : Option Req) (data : List Byte) (s : State) : Host.Outcome State Fault Refusal := .next (dirArrive s 8 6 req data)

/-- DIR_CACHE_FILL (R468): the Basin read of the oldest missed lookup ends; a lookup that finds nothing is not cached. -/
def execDirCacheFill (s : State) : Host.Outcome State Fault Refusal :=
  .next <| match s.dir.misses with
    | [] => s
    | w :: ws =>
      if !s.on F.bsnStat_ready then s
      else
        let s := dirUpd s fun d => { d with misses := ws }
        match dirSeek s (slice w.data 16 8) with
        | some i => dirAnswerAt (cacheUse s i) w.req 1 St.ok i
        | none => dirAnswerNone s w.req 1 St.dirNotFound

/-- DIR_WRITE_THROUGH (R481): WT_MIN has passed and the gathered changes of an image page are written. -/
def execDirWriteThrough (page : Nat) (s : State) : Host.Outcome State Fault Refusal :=
  .next <|
    if !s.dir.gathered.contains page || dirPageRecent s page then s
    else if s.get F.nvProt_bp = 3 then
      raise ((dirUpd s fun d => { d with gathered := d.gathered.filter (· != page) }).set F.dirStat_unsaved 1) 69 12
    else (dirWritePage s page dirSize true 15 .none).2

/-- DIR_LOAD (R483): the load from the NV image begins. -/
def execDirLoad (s : State) : Host.Outcome State Fault Refusal :=
  .next <| if s.on F.dirStat_loading && s.on F.bsnStat_ready then dirUpd s fun d => { d with loadRun := true } else s

end Sys2Proof.Machine
end

