-- ==== Sys2Proof/Machine/Cloade.lean ====
section
/-! DEFINITION. The Cloade reader engine (05_cloade_protocol.md): census rounds (R164–R167), the mutual handshake
(R168–R173), secured commands (R174–R177), repeats and outcomes (R181, R185, R186) and tag access (R187–R189). A
transaction ends with its status in `result`; the coil task that owns it ends in Coil.lean. -/

namespace Sys2Proof.Machine

/-- Replace the engine's state. -/
def cldUpd (s : State) (f : Cld → Cld) : State := { s with cld := f s.cld }

/-- The transaction on a channel, and storing one. -/
def cldGet (s : State) (ch : Nat) : Option CldTxn := s.cld.txns.find? fun t => t.ch == ch
def cldPut (s : State) (t : CldTxn) : State :=
  cldUpd s fun c => { c with txns := c.txns.map fun x => if x.ch = t.ch then t else x }

/-- A class 3 tag uses the SHORT profile (R158). -/
def cldShort (uid : List Byte) : Bool := uid.head? == some 3#8

/-- The tag key of a key class (R172, Table 5.7, R200); none without an installed domain key where it is needed, or without
the root key (R706). -/
def cldKey (s : State) (uid : List Byte) (kc : Nat) : Option (List Byte) :=
  let id := uid ++ zeros 8
  let ep := s.get F.secEpoch_epoch
  if kc = 0 then (if s.on F.secStat_rootOk then some (kdf s.sec.root (kdfLabel "ROOT" "CLDM" id 0) 128) else none)
  else s.cph.domain.map fun k =>
    if kc = 1 then kdf k (kdfLabel "LSSR" "CLDK" id ep) 128
    else if kc = 2 then kdf k (kdfLabel "LSSR" "CLDX" id 0) 128
    else kdf k (kdfLabel "LSSR" "CLDP" id ep) 128

/-- The channel is in CLD_WAKEMASK (R156). -/
def cldWakes (s : State) (ch : Nat) : Bool :=
  if ch < 32 then bitOf (s.getW W.cldWakemaskLo).toNat ch else bitOf (s.getW W.cldWakemaskHi).toNat (ch - 32)

/-- The owner of the engine's keys in the cipher engine: its own port and sub-port. -/
def cldOwner : CphOwner := ⟨false, 0, 0xFE⟩

/-- The session key of a tag, held in the cipher engine under an internal handle (R172, R309). -/
def cldSk (s : State) (g : CldTag) : List Byte := ((g.kh.bind (cphKey s)).map fun k => k.key).getD []

/-- Two internal handles are free: for the tag key and the session key derived under it. -/
def cldRoom (s : State) : Option Nat :=
  match (List.range 128).filter fun h => (cphHolder s h).isNone with
  | h :: _ :: _ => some h
  | _ => none

/-- Free the handles of tags whose sessions are over; requests that wait for one go on (R312). -/
def cldFree (s : State) (gs : List CldTag) : State :=
  match gs.filterMap fun g => g.kh with
  | [] => s
  | hs => cphRun (cphUpd s fun c => { c with handles := hs.foldl sdel c.handles })

-- Handshake values (R168) -------------------------------------------------------------------------------

/-- X, Y, and from them TB, TA and SK. -/
def hsX (k : List Byte) (uid ra rb : List Byte) : List Byte :=
  if cldShort uid then aesEnc k (ra ++ rb ++ uid) else aesEnc k (ra ++ rb)
def hsY (k : List Byte) (uid ra rb : List Byte) : List Byte :=
  if cldShort uid then aesEnc k (rb ++ ra ++ uid) else aesEnc k (rb ++ ra)
def hsLen (uid : List Byte) : Nat := if cldShort uid then 4 else 8
def hsTb (k uid ra rb : List Byte) : List Byte := (hsX k uid ra rb).take (hsLen uid)
def hsTa (k uid ra rb : List Byte) : List Byte := (hsY k uid ra rb).take (hsLen uid)
def hsSk (k uid ra rb : List Byte) : List Byte :=
  aesEnc k (slice (hsX k uid ra rb) (hsLen uid) 8 ++ slice (hsY k uid ra rb) (hsLen uid) 8)

/-- The 4-byte MAC of a secured frame or response (R174). -/
def cldMac (sk : List Byte) (cnt : Nat) (bs : List Byte) : List Byte := (cmac sk (beBytes 2 cnt ++ bs)).take 4

/-- The completion code of a nonzero STATUS (Table 5.10); `op` says what was asked, `secured` whether of a tag in SECURED
(log entry 50). -/
def cldCode (op : Nat) (secured : Bool) (st : Nat) : Nat :=
  if st = 1 ∨ st = 4 ∨ st = 5 then St.authFail
  else if st = 2 ∧ (op = 0x20 ∨ op = 0x21 ∨ op = 0x22 ∨ op = 0x40) ∧ secured = false then St.tagNotSecured
  else St.tagRefused

-- Tag access (R187–R189) ---------------------------------------------------------------------------------------------

/-- A well-formed tag-access request (Table 5.11). -/
def cldAccOkForm (d : List Byte) : Bool :=
  let op := leAt d 8 1
  d.length == 32 && (op == 0x20 || op == 0x21 || op == 0x22 || op == 0x40)
  && (decide (leAt d 10 1 < 48) || leAt d 10 1 == 0xFF) && decide (leAt d 11 1 < 2) && slice d 14 2 == zeros 2
  && (op != 0x22 || (decide (leAt d 16 1 < 4) && slice d 17 15 == zeros 15))

/-- A task of the channel has the tag queued (R188): an AUTH or CENSUS_AUTH task of its group, ready or running. -/
def cldQueued (s : State) (ch grp : Nat) : Bool :=
  let ours := fun (op g : Nat) => (op == 2 || op == 3) && (g == 0xFF || g == grp)
  (s.coil.ready.any fun t => t.ch == ch && ours t.op t.dirgrp)
    || s.cld.txns.any fun t => t.ch == ch && ours t.op t.dirgrp && t.result.isNone

/-- Queue a tag access and start an AUTH job unless WAIT is set or a task has the tag queued (R188). It waits while the engine
is stopped (R190), for its lookup (R483) and for a pin (R469). -/
def cldAccess (s : State) (req : Req) (d : List Byte) : State :=
  let hold := cldUpd s fun c => { c with held := c.held ++ [(req, d)] }
  if noNewWork s 18 then hold
  else
    let fail := fun (s : State) (st : Nat) => complete s 0 0xFE req 0x02 ([byte st, 0#8, 0#8, 0#8] ++ zeros 16)
    if !cldAccOkForm d then fail s St.badDescriptor
    else if lookWaits s (d.take 8) then hold
    else
      let uid := d.take 8
      let i := dirSeek s uid
      let ch := if leAt d 10 1 = 0xFF then ((dirUsable s uid).map fun e => leAt e 14 1).getD 0xFF else leAt d 10 1
      if ch = 0xFF then fail s St.tagNoResponse
      else
        let (ok, s) := match i with
          | some i => dirPin s i
          | none => (true, s)
        if !ok then hold else
        let grp := (i.map fun i => leAt (dirEntry s i) 11 1).getD 0xFF
        let id := s.cld.nextId
        let s := cldUpd s fun c => { c with accs := c.accs ++ [⟨id, req, d, ch, i⟩], nextId := id + 1 }
        if (leAt d 11 1).testBit 0 || cldQueued s ch grp then s
        else
          sendFrame s 0 0xFE (mkFrame 0x01 req.cls 0 0xFF (thisDev s) 0
            ([2#8, 0#8] ++ leBytes 6 (setBit 0 ch) ++ [byte grp] ++ zeros 7))

/-- Frames held while the engine was stopped, for a lookup or for a pin are taken (R190, R469, R483). -/
def cldRelease (s : State) : State :=
  let hs := s.cld.held
  hs.foldl (fun s h => cldAccess s h.1 h.2) (cldUpd s fun c => { c with held := [] })

-- Ending things ---------------------------------------------------------------------------------------------

/-- The exchange is over with a status; the field goes off with the task's end (R183). -/
def cldEnd (s : State) (t : CldTxn) (status : Nat) : State :=
  cldPut s { t with result := some status, sending := 0, cmd := none, stall := 0 }

/-- Complete a tag access (R187). -/
def cldAccDone (s : State) (a : CldAcc) (status tagstat : Nat) (data : List Byte) : State :=
  let s := cldUpd s fun c => { c with accs := c.accs.filter fun x => x.id != a.id }
  let s := match a.pin with
    | some i => cldRelease (dirUnpin s i)
    | none => s
  complete s 0 0xFE a.req 0x02 ([byte status, byte tagstat, 0#8, 0#8] ++ fit 16 data)

/-- A tag's outcome: the first that is not OK stands (R186). -/
def tagOut (g : CldTag) (code : Nat) : CldTag :=
  match g.out with
  | none => { g with out := some code }
  | some c => if c = St.ok then { g with out := some code } else g

/-- The status of an exchange that has run to its end (R186, rows 2 to 4). -/
def cldStatus (t : CldTxn) : Nat :=
  let bad := (t.tags.filterMap fun g => match g.out with
    | some c => if c = St.ok then none else some (g.handle, c)
    | none => none) ++ t.dropped.map fun d => (d.1, St.censusUnresolved)
  match (List.range 256).findSome? fun h => bad.lookup h with
  | some c => c
  | none => if t.unres then St.censusUnresolved else St.ok

/-- Change the tag with a handle. -/
def tagUpd (t : CldTxn) (h : Nat) (f : CldTag → CldTag) : CldTxn :=
  { t with tags := t.tags.map fun g => if g.handle = h then f g else g }

def tagGet (t : CldTxn) (h : Nat) : Option CldTag := t.tags.find? fun g => g.handle == h

/-- A directory change for a tag, if its entry is usable. -/
def cldDir (s : State) (uid : List Byte) (f : List Byte → List Byte) : State :=
  match dirSeek s uid with
  | some i => if entLive (dirEntry s i) then dirTagResult s i f else s
  | none => s

/-- A handshake ended (R186): the outcome goes to the directory, and a key that completed it on a proximity channel is asked
for its FIELD_REPORT (R289). -/
def cldHsDone (s : State) (t : CldTxn) (h code : Nat) : State × CldTxn :=
  match tagGet t h with
  | none => (s, t)
  | some g =>
    let s := if code = St.authFail then s.bump F.cldCnt1_authfail 1 else s
    let s := cldDir s g.uid (entAuth s code)
    let s := if code = St.ok then s else cldFree s [g]
    let t := tagUpd t h fun g => { tagOut g code with done := true, secured := code == St.ok, kh := if code = St.ok then g.kh else none }
    let key := g.uid.head? == some 1#8 || g.uid.head? == some 2#8
    let prox := (List.range 4).any fun n => s.on (F.prxLfcal_en n) && s.get (F.prxLfcal_ch n) == t.ch
    let t := if code = St.ok then
        { t with authed := if t.authed.contains g.uid then t.authed else t.authed ++ [g.uid]
                 reports := if key && prox then t.reports.filter (· != h) ++ [h] else t.reports } else t
    (s, t)

-- Sending ------------------------------------------------------------------------------------------------------

/-- Send a handle-addressed frame. -/
def cldSendCmd (s : State) (t : CldTxn) (frame : List Byte) (phase : Nat) (acc : Option Nat) : CldTxn :=
  let h := leAt frame 1 1
  { t with phase, sending := 5, hdr := false, lastOp := leAt frame 0 1, lastHnd := h, air := airFrame frame, stall := 0
           cmd := some ⟨frame, h, s.get F.cldCfg_retries, false, false, acc⟩ }

/-- CENSUS: FLAGS with FAST from CLD_CFG.FAST_EN and class filter 0, then RA (Table 5.5, log entry 125). -/
def censusFrame (s : State) (ra : List Byte) : List Byte := [0x10#8, byte (s.get F.cldCfg_fastEn)] ++ ra

/-- Start a census round: a fresh RA, then CENSUS; a draw that ends with an error sends none (R166, R173). -/
def cldCensus (s : State) (t : CldTxn) : State :=
  match rngDraw s 2 4 with
  | .fatal => cldEnd s t St.rngFatal
  | .wait s => cldPut s { t with stall := 1, sending := 0 }
  | .bits ra s =>
    cldPut s { t with phase := 3, round := t.round + 1, ra, slot := 0, coll := false, hdr := false, sending := 2, stall := 0
                      lastOp := 0x10, lastHnd := 0, air := airFrame (censusFrame s ra) }

/-- What a step of the engine's cipher work brings: it is done, it waits, or it has ended with a code. -/
inductive CldWork where
  | done (s : State) (t : CldTxn)
  | wait (s : State) (stall : Nat)
  | code (s : State) (c : Nat)

/-- The key class of a tag's directory entry. -/
def cldClass (s : State) (uid : List Byte) : Nat := ((dirSeek s uid).map fun i => leAt (dirEntry s i) 9 1).getD 0

/-- Verify TB with K and derive TA and SK (R168, R169): DERIVE, the block of X and, where TB verifies, that of Y and ECB_KEY
for SK, each with its mask draw (R300); then AUTH_B is sent. `stall` is the wait of the draws (log entry 28), three more the wait for two free handles (R312). -/
def cldVerify (s : State) (t : CldTxn) (g : CldTag) (k ra rb tb : List Byte) (stall : Nat) : CldWork :=
  let good := hsTb k g.uid ra rb == tb
  match cldRoom s with
  | none => .wait (raise s 76 1) (stall + 3)
  | some h =>
    match maskDraws (if good then 4 else 2) s with
    | .fatal => .code s St.rngFatal
    | .wait s => .wait s stall
    | .bits _ s =>
      if !good then .code s St.authFail
      else
        let s := cphUpd s fun c => { c with handles := sput c.handles h ⟨2, hsSk k g.uid ra rb, cldOwner⟩ }
        let t := tagUpd t g.handle fun x => { x with kh := some h, cnt := 0 }
        .done s (cldSendCmd s t ([0x31#8, byte g.handle] ++ hsTa k g.uid ra rb) 4 none)

/-- Begin a tag's handshake (R168, R169, R173): AUTH_B of the SHORT profile, AUTH_A of the LONG one. -/
def cldHsStart (s : State) (t : CldTxn) (g : CldTag) : CldWork :=
  match cldKey s g.uid (cldClass s g.uid) with
  | none => .code s St.keyUnavailable
  | some k =>
    if cldShort g.uid then cldVerify s t g k g.ra g.rb g.tb 2
    else
      match rngDraw s 2 8 with
      | .fatal => .code s St.rngFatal
      | .wait s => .wait s 2
      | .bits ra s => .done s (cldSendCmd s { t with ra8 := ra } ([0x30#8, byte g.handle] ++ ra) 4 none)

/-- The frame of a tag access, with its MAC (R174, R177); none when KEY_LOAD's key cannot be derived. -/
def cldAccFrame (s : State) (g : CldTag) (d : List Byte) : Option (List Byte) :=
  let op := leAt d 8 1
  let h := byte g.handle
  let body :=
    if op = 0x20 then some [0x20#8, h, byte (leAt d 9 1)]
    else if op = 0x21 then some ([0x21#8, h, byte (leAt d 9 1)] ++ slice d 16 16)
    else if op = 0x22 then
      (cldKey s g.uid (leAt d 16 1)).map fun k => [0x22#8, h] ++ xorBytes k (aesEnc (cldSk s g) (beBytes 2 g.cnt ++ zeros 14))
    else some [0x40#8, h]
  body.map fun b => b ++ cldMac (cldSk s g) g.cnt b

/-- The cipher operations behind a frame: its MAC, and for KEY_LOAD the new key and its encryption. -/
def cldAccOps (d : List Byte) : Nat := if leAt d 8 1 = 0x22 then 3 else 1

/-- The engine's own FIELD_REPORT as an access (R289). -/
def reportAcc : List Byte := zeros 8 ++ [0x40#8] ++ zeros 23

/-- The bytes of an access that a frame is made of. -/
def cldAccData (a : Option CldAcc) : List Byte := (a.map fun x => x.data).getD reportAcc

/-- Whether this task addresses a tag (R183, R184, R465): its entry is usable and in DIRGRP, and for AUTH the channel's
previous census found it too. -/
def cldAddressed (s : State) (t : CldTxn) (uid : List Byte) : Bool :=
  match dirUsable s uid with
  | none => false
  | some e =>
    (t.op == 2 || t.op == 3) && (t.dirgrp == 0xFF || leAt e 11 1 == t.dirgrp)
    && (t.op == 3 || ((sget s.coil.prev t.ch).getD []).contains uid)

/-- The oldest queued access for a tag on a channel (R189). -/
def cldAccFor (s : State) (ch : Nat) (uid : List Byte) : Option CldAcc :=
  s.cld.accs.find? fun a => a.ch == ch && a.data.take 8 == uid

/-- The next handshake in handle order (R184). -/
def cldToAuth (s : State) (t : CldTxn) : Option CldTag := t.tags.find? fun g => !g.done && cldAddressed s t g.uid

/-- The next access in handle order (R184), none standing for the engine's own FIELD_REPORT. -/
def cldToServe (s : State) (t : CldTxn) : Option (CldTag × Option CldAcc) :=
  (t.tags.find? fun g => g.secured && ((cldAccFor s t.ch g.uid).isSome || t.reports.contains g.handle)).map fun g =>
    (g, cldAccFor s t.ch g.uid)

/-- An access ends with a code before its frame is sent. -/
def cldGiveUp (s : State) (t : CldTxn) (g : CldTag) (a : Option CldAcc) (code : Nat) : State × CldTxn :=
  let t := tagUpd t g.handle fun x => tagOut x code
  match a with
  | some a => (cldAccDone s a code 0 [], t)
  | none => (s, { t with reports := t.reports.erase g.handle })

/-- Send an access's frame, its masks drawn (R300). -/
def cldServe (s : State) (t : CldTxn) (g : CldTag) (a : Option CldAcc) : CldWork :=
  match cldAccFrame s g (cldAccData a) with
  | none => .code s St.keyUnavailable
  | some f =>
    match maskDraws (cldAccOps (cldAccData a)) s with
    | .fatal => .code s St.rngFatal
    | .wait s => .wait s 4
    | .bits _ s =>
      let t := if a.isSome then t else { t with reports := t.reports.erase g.handle }
      .done s (cldSendCmd s t f 5 (some ((a.map fun x => x.id).getD 0)))

/-- Go on with the exchange (R183, R184): the next handshake in handle order, then the queued accesses, then the end. -/
def cldLoop : Nat → State → CldTxn → State
  | 0, s, t => cldEnd s t (cldStatus t)
  | n + 1, s, t =>
    match cldToAuth s t with
    | some g =>
      match cldHsStart s t g with
      | .code s c => let (s, t) := cldHsDone s t g.handle c; cldLoop n s t
      | .wait s w => cldPut s { t with stall := w, phase := 4 }
      | .done s t => cldPut s t
    | none =>
      match cldToServe s t with
      | none => cldEnd s t (cldStatus t)
      | some (g, a) =>
        match cldServe s t g a with
        | .code s c => let (s, t) := cldGiveUp s t g a c; cldLoop n s t
        | .wait s w => cldPut s { t with stall := w, phase := 5 }
        | .done s t => cldPut s t

/-- `cldLoop` with enough fuel for every tag and access, those held included. -/
def cldNext (s : State) (t : CldTxn) : State :=
  cldLoop (2 * t.tags.length + s.cld.accs.length + t.reports.length + s.cld.held.length + 2) s { t with cmd := none, sending := 0, stall := 0 }

/-- A round has closed (R166): another one while it held a collision and one is left. -/
def cldRoundOver (s : State) (t : CldTxn) : State :=
  if t.coll ∧ t.round < cldRounds s then cldCensus s t
  else cldNext s { t with unres := t.coll }

/-- A slot has been classed: MARK_ACK after a valid reply, else MARK. -/
def cldMark (s : State) (t : CldTxn) (ack : Bool) : State :=
  cldPut s { t with sending := if ack then 4 else 3, hdr := false }

/-- Insert a tag by handle, replacing its earlier find. -/
def tagInsert (g : CldTag) : List CldTag → List CldTag
  | [] => [g]
  | x :: l => if g.handle < x.handle then g :: x :: l else x :: tagInsert g l

/-- A SINGLE slot reply (R165, R186): the tag takes handle 16 × (round − 1) + slot, its presence goes to the directory. The
exchange waits where the lookup does (R483, R484). -/
def cldSingle (s : State) (t : CldTxn) (reply : List Byte) : State :=
  let uid := reply.take 8
  if lookWaits s uid then cldPut s { t with stall := 7, resp := reply } else
  let h := 16 * (t.round - 1) + t.slot
  let g : CldTag := { handle := h, uid, ra := t.ra, rb := slice reply 8 4, tb := slice reply 12 4, out := none, done := false
                      secured := false, kh := none, cnt := 0 }
  let s := cldFree s (t.tags.filter fun x => x.uid == uid)
  let (i, s) := dirLook s uid
  let s := match i with
    | some i => if entLive (dirEntry s i) then dirTagResult s i (entFound s t.ch) else s
    | none => s
  cldMark s { t with
    tags := tagInsert g (t.tags.filter fun x => x.uid != uid)
    dropped := t.dropped.filter fun d => d.2 != uid
    seen := if t.seen.contains uid then t.seen else t.seen ++ [uid] } true

/-- The command has failed for good with a code (R181, R185). -/
def cldCmdFail (s : State) (t : CldTxn) (c : CldCmd) (code tagstat : Nat) : State :=
  match c.acc with
  | none => let (s, t) := cldHsDone s t c.handle code; cldNext s t
  | some id =>
    let t0 := t
    let t := tagUpd t c.handle fun x => tagOut x code
    let s := if code = St.tearSuspect then
        let s := s.bump F.cldCnt1_tear 1
        match tagGet t0 c.handle with
        | some g => cldDir s g.uid entTear
        | none => s
      else if code = St.authFail then s.bump F.cldCnt1_authfail 1 else s
    match s.cld.accs.find? fun a => a.id == id with
    | some a => cldNext (cldAccDone s a code tagstat []) t
    | none => cldNext s t

/-- WRITE and KEY_LOAD, whose missing responses are TEAR_SUSPECT (R181). -/
def cldIsWrite (c : CldCmd) : Bool := leAt c.frame 0 1 == 0x21 || leAt c.frame 0 1 == 0x22

/-- No usable response: repeat the identical frame, or fail (R181, R185). -/
def cldRetry (s : State) (t : CldTxn) (c : CldCmd) (bad : Bool) : State :=
  let bad := bad || c.bad
  if 0 < c.left then
    cldPut s { t with sending := 5, hdr := false, cmd := some { c with left := c.left - 1, bad } }
  else cldCmdFail s t c (if cldIsWrite c then St.tearSuspect else if bad then St.linkError else St.tagNoResponse) 0

/-- Bytes of an OK response after the header (Table 5.5). -/
def cldRespLen (op : Nat) : Nat :=
  if op = 0x30 then 17 else if op = 0x31 then 1 else if op = 0x20 then 21 else if op = 0x40 then 11 else 5

/-- The data of a completion: READ's page as it came; AX, AY and AZ, sent most significant byte first (R151), least
significant byte first (R8). -/
def cldOut (op : Nat) (data : List Byte) : List Byte :=
  if op = 0x40 then (List.range 3).flatMap fun i => (slice data (2 * i) 2).reverse else data

/-- The access has been carried out (R175, R289). -/
def cldAccOk (s : State) (t : CldTxn) (c : CldCmd) (data : List Byte) : State :=
  let s := match c.acc, tagGet t c.handle with
    | some 0, some g =>
      { s with prx := { s.prx with reports :=
          ⟨g.uid, t.ch, t.step, s.now, fit 6 data⟩ :: s.prx.reports.filter fun r => !(r.uid == g.uid && r.ch == t.ch) } }
    | _, _ => s
  let t := tagUpd t c.handle fun g => { g with cnt := (g.cnt + 1) % 65536 }
  match s.cld.accs.find? fun a => some a.id == c.acc with
  | some a => cldNext (cldAccDone s a St.ok 0 (cldOut (leAt c.frame 0 1) data)) t
  | none => cldNext s t

/-- A valid response to the command under way; one whose check has to wait for its masks is kept. -/
def cldValid (s : State) (t : CldTxn) (c : CldCmd) (r : List Byte) : State :=
  let op := leAt c.frame 0 1
  let st := leAt r 0 1
  match tagGet t c.handle with
  | none => cldNext s t
  | some g =>
    if st ≠ 0 then
      if st = 2 ∧ g.cnt = 0xFFFF ∧ c.acc.isSome then
        cldNext (cldFree s [g]) (tagUpd t c.handle fun x => { x with done := false, secured := false, kh := none })
      else cldCmdFail s t c (cldCode op g.secured st) st
    else if op = 0x30 then
      match cldKey s g.uid (cldClass s g.uid) with
      | none => cldCmdFail s t c St.keyUnavailable 0
      | some k =>
        match cldVerify s t g k t.ra8 (slice r 1 8) (slice r 9 8) 3 with
        | .code s e => cldCmdFail s t c e 0
        | .wait s w => cldPut s { t with stall := w, resp := r }
        | .done s t => cldPut s t
    else if op = 0x31 then
      let (s, t) := cldHsDone s t c.handle St.ok
      cldNext s t
    else
      match maskDraw s with
      | .fatal => cldCmdFail s t c St.rngFatal 0
      | .wait s => cldPut s { t with stall := 3, resp := r }
      | .bits _ s =>
        let n := r.length - 4
        if cldMac (cldSk s g) g.cnt (r.take n) ≠ r.drop n then cldCmdFail s t c St.authFail 0
        else cldAccOk s t c (slice r 1 (n - 1))

-- Start and end of a transaction ---------------------------------------------------------------------------------

/-- A Cloade task starts: a transaction takes the lowest free number. -/
def cldStart (s : State) (ch op dirgrp step : Nat) : State :=
  let n := ((List.range 8).find? fun i => !(s.cld.txns.any fun t => t.n == i)).getD 7
  let t : CldTxn := { n, ch, op, dirgrp, step, phase := 0, woke := false, round := 0, ra := [], slot := 0, coll := false
                      unres := false, hdr := false, tags := [], dropped := [], seen := [], authed := [], sending := 0, cmd := none
                      stall := 0, reports := [], ra8 := [], lastOp := 0, lastHnd := 0, result := none, air := [], resp := [] }
  cldUpd s fun c => { c with txns := c.txns ++ [t] }

/-- A write has been sent in full and no valid response has come (R181). -/
def cldTorn (t : CldTxn) : Bool := t.cmd.any fun c => cldIsWrite c && c.sent

/-- The status of a task cut off by a channel fault (R138, Table 5.8). -/
def cldFaultStatus (s : State) (ch : Nat) : Nat :=
  if (cldGet s ch).any cldTorn then St.tearSuspect else St.fieldLost

/-- The tags of a transaction that count as foreign (Table 4.5). -/
def cldForeign (s : State) (t : CldTxn) : List (List Byte) :=
  t.seen.filter fun u => match dirUsable s u with
    | none => true
    | some e => cldShort u && t.dirgrp != 0xFF && leAt e 11 1 != t.dirgrp

/-- What an access of a channel completes with when its task ends; none when the task does not concern it, or found the tag and
had not come to the access, which stays queued (R189). A write whose field collapses unanswered is TEAR_SUSPECT (R181). -/
def cldAccEnd (s : State) (t : CldTxn) (fault : Option Nat) (a : CldAcc) : Option Nat :=
  let uid := a.data.take 8
  if a.ch ≠ t.ch ∨ !(t.op == 2 || t.op == 3) then none
  else
    let inGrp := match dirUsable s uid with
      | some e => t.dirgrp == 0xFF || leAt e 11 1 == t.dirgrp
      | none => true
    if !inGrp then none
    else if cldTorn t && (t.cmd.bind fun c => c.acc) == some a.id then some St.tearSuspect
    else match fault with
      | some _ => some St.fieldLost
      | none =>
        match t.tags.find? fun g => g.uid == uid with
        | some g => g.out.filter (· != St.ok)
        | none => if t.dropped.any fun d => d.2 == uid then some St.censusUnresolved else some St.tagNoResponse

/-- Close a transaction at its task's end: accesses of the task complete, the census is remembered (R183, R189). A tear
goes to the directory. -/
def cldClose (s : State) (t : CldTxn) (fault : Option Nat) : State :=
  let ends := s.cld.accs.filterMap fun a => (cldAccEnd s t fault a).map fun c => (a, c)
  let s := cldFree (cldUpd s fun c => { c with txns := c.txns.filter fun x => x.ch != t.ch }) t.tags
  let s := if cldTorn t then
      let s := s.bump F.cldCnt1_tear 1
      match t.cmd.bind fun c => tagGet t c.handle with
      | some g => cldDir s g.uid entTear
      | none => s
    else s
  let s := ends.foldl (fun s x => cldAccDone s x.1 x.2 0 []) s
  { s with coil := { s.coil with prev := sput s.coil.prev t.ch t.seen } }

/-- A transaction that waits goes on. -/
def cldGoOn (s : State) (t : CldTxn) : State :=
  if t.stall = 7 then cldSingle s { t with stall := 0, resp := [] } t.resp
  else if t.stall = 0 ∨ (5 ≤ t.stall ∧ (cldRoom s).isNone) then s
  else if t.stall = 1 then cldCensus s t
  else match t.cmd with
    | some c => cldValid s { t with stall := 0, resp := [] } c t.resp
    | none => cldNext s t

/-- Draws that waited are tried again (R359), and so are waits for a handle (R312). -/
def cldResume (s : State) : State := s.cld.txns.foldl cldGoOn s

/-- A draw of the transaction on `ch` has waited 2 ms (R173, R362): what it was for ends with TIMEOUT. A wait for a handle goes
on. -/
def cldStall (s : State) (ch : Nat) : State :=
  match cldGet s ch with
  | none => s
  | some t =>
    let t0 := { t with stall := 0, resp := [] }
    if t.stall = 1 then cldEnd s t St.timeout
    else if t.stall = 2 then
      match cldToAuth s t with
      | some g => let (s, t) := cldHsDone s t0 g.handle St.timeout; cldNext s t
      | none => cldNext s t
    else if t.stall = 3 then
      match t.cmd with
      | some c => cldCmdFail s t0 c St.timeout 0
      | none => cldNext s t
    else if t.stall = 4 then
      match cldToServe s t with
      | some (g, a) => let (s, t) := cldGiveUp s t0 g a St.timeout; cldNext s t
      | none => cldNext s t
    else s

-- The commands ------------------------------------------------------------------------------------------------------------

/-- TPOR_ELAPSED (R154, R156): TPOR after field stable, or TWAKE after WAKE. -/
def execCldTporElapsed (ch : Nat) (s : State) : Host.Outcome State Fault Refusal :=
  .next <| match cldGet s ch with
    | none => s
    | some t =>
      if t.result.isSome || t.sending != 0 || t.stall != 0 then s
      else if t.phase = 1 ∧ cldWakes s ch ∧ !t.woke then cldPut s { t with phase := 2, woke := true, sending := 1, air := [3#8] }
      else if t.phase = 1 ∨ t.phase = 2 then cldCensus s t
      else s

/-- DOWNLINK_SENT (R154): the last cell of a frame or mark has been sent. -/
def execCldDownlinkSent (ch : Nat) (s : State) : Host.Outcome State Fault Refusal :=
  .next <| match cldGet s ch with
    | none => s
    | some t =>
      if t.sending = 1 ∨ t.sending = 2 then cldPut s { t with sending := 0 }
      else if t.sending = 3 ∨ t.sending = 4 then
        if t.slot = 15 then cldRoundOver s { t with sending := 0 } else cldPut s { t with sending := 0, slot := t.slot + 1 }
      else if t.sending = 5 then
        cldPut s { t with sending := 0, cmd := t.cmd.map fun c => { c with sent := true } }
      else if t.sending = 6 then
        if t.round < cldRounds s then cldCensus s { t with cmd := none } else cldNext s t
      else s

/-- A window for an uplink is open: of a slot, or of a command. -/
def cldSlotOpen (t : CldTxn) : Bool := t.sending == 0 && t.phase == 3 && t.stall == 0 && t.result.isNone
def cldCmdOpen (t : CldTxn) : Option CldCmd := if t.sending = 0 ∧ t.stall = 0 then t.cmd else none

/-- UPLINK_HEADER (R165): TNORESP stops, and FACT is held (R106). -/
def execCldUplinkHeader (ch : Nat) (s : State) : Host.Outcome State Fault Refusal :=
  .next <| match cldGet s ch with
    | none => s
    | some t => if cldSlotOpen t || (cldCmdOpen t).isSome then cldPut s { t with hdr := true } else s

/-- SLOT_REPLY (R165): the bytes after the header with their CRC, none when the coding is violated. A frame that passes R153 is
SINGLE, any other COLLIDED. -/
def execCldSlotReply (ch : Nat) (reply : Option (List Byte)) (s : State) : Host.Outcome State Fault Refusal :=
  .next <| match cldGet s ch with
    | none => s
    | some t =>
      if !cldSlotOpen t then s
      else
        let ok := fun (r : List Byte) => r.length == (if cldShort r then 16 else 8)
        match (reply.bind airBody).filter ok with
        | some r => cldSingle s t r
        | none => cldMark (s.bump F.cldCnt0_coll 1) { t with coll := true } false

/-- TAG_RESPONSE (R167, R185): a response's bytes after the header with their CRC, none when the coding is violated. A frame
that passes R153 is taken as the named tag's answer; one that fails it and arrived collided drops its handle, and any other
is a bad response. -/
def execCldTagResponse (ch : Nat) (resp : Option (List Byte)) (collided : Bool) (s : State) : Host.Outcome State Fault Refusal :=
  .next <| match cldGet s ch with
    | none => s
    | some t =>
      match cldCmdOpen t with
      | none => s
      | some c =>
        let op := leAt c.frame 0 1
        let ok := fun (r : List Byte) => r.length == (if leAt r 0 1 = 0 then cldRespLen op else 1)
        let t := { t with hdr := false }
        match (resp.bind airBody).filter ok with
        | some r => cldValid s t c r
        | none =>
          let s := s.bump F.cldCnt0_crcerr 1
          if collided then
            cldPut (cldFree s (t.tags.filter fun g => g.handle == c.handle)) { t with
              cmd := none, sending := 6, lastOp := 0x11, lastHnd := c.handle, air := airFrame [0x11#8, byte c.handle]
              dropped := t.dropped ++ (t.tags.filter fun g => g.handle == c.handle).map fun g => (g.handle, g.uid)
              tags := t.tags.filter fun g => g.handle != c.handle }
          else cldRetry s t c true

/-- TNORESP_EXPIRY (R165, R185): no header has come; the slot is EMPTY, or the command unanswered. -/
def execCldTnorespExpiry (ch : Nat) (s : State) : Host.Outcome State Fault Refusal :=
  .next <| match cldGet s ch with
    | none => s
    | some t =>
      if t.hdr then s
      else match cldCmdOpen t with
        | some c => cldRetry s t c false
        | none => if cldSlotOpen t then cldMark s t false else s

/-- TAG_ACCESS (R187, R188). -/
def execCldTagAccess (req : Req) (data : List Byte) (s : State) : Host.Outcome State Fault Refusal := .next (cldAccess s req data)

/-- TAG_ACCESS_TIMEOUT (R189): TIME has passed before the tag of access `n` was secured. -/
def execCldTagAccessTimeout (n : Nat) (s : State) : Host.Outcome State Fault Refusal :=
  .next <| match s.cld.accs.find? fun a => a.id == n with
    | none => s
    | some a =>
      let secured := ((cldGet s a.ch).map fun t => t.tags.any fun g => g.uid == a.data.take 8 && g.secured).getD false
      if secured then s else cldAccDone s a St.timeout 0 []

/-- CLD_CLR_CNT (R191). -/
def execCldClrCnt (s : State) : Host.Outcome State Fault Refusal := .next ((s.setW W.cldCnt0 0#32).setW W.cldCnt1 0#32)

end Sys2Proof.Machine
end

