-- ==== Sys2Proof/Machine/Coil.lean ====
section
/-! DEFINITION. The coil subsystem (04_coil_channels.md): jobs and their tasks (R122, R126, R129–R136), admission
(R121–R128), carriers and the follow loop (R105–R109), sweeps and the coupling map (R110–R120), the program (R132–R134),
channel and group faults (R137–R142). -/

namespace Sys2Proof.Machine

/-- Replace the coil subsystem's state. -/
def coilUpd (s : State) (f : Coil → Coil) : State := { s with coil := f s.coil }

/-- Peak coil current of a field step in mA (Table 4.1). -/
def coilMa (step : Nat) : Nat :=
  [30, 38, 48, 61, 76, 97, 122, 154, 195, 246, 311, 393, 496, 627, 792, 1000].getD step 0

/-- The blocks run: POLL or RUN (Table 18.1). -/
def pmAwake (s : State) : Bool := s.get F.pmStat_current == 5 || s.get F.pmStat_current == 6

-- Channels -----------------------------------------------------------------------------------------

def coilEn (s : State) (ch : Nat) : Bool := decide (ch < 48) && s.on (F.coilChCtrl_en ch)
def coilChDown (s : State) (ch : Nat) : Bool := s.on (F.coilChStat_down ch)
def coilGrpDown (s : State) (ch : Nat) : Bool := s.on (F.coilGrpStat_down (ch / 8))

/-- The step a task names, or the channel's own (R102). -/
def taskStep (s : State) (t : CoilTask) : Nat := if t.step < 16 then t.step else s.get (F.coilChCtrl_step t.ch)

/-- The step a task is driven at: 0 for a sweep (Table 4.2), MAPSTEP for a row (R114). -/
def driveStep (s : State) (t : CoilTask) : Nat :=
  if t.op = 4 then 0 else if t.op = 5 then s.get F.coilCtrl_mapstep else taskStep s t

/-- Units of 10 mW a task asks for: ceil(50 × I² × RS) + 5 (R127). -/
def coilUnits (s : State) (t : CoilTask) : Nat :=
  let ma := coilMa (driveStep s t)
  (ma * ma * s.get (F.coilChAct_rs t.ch) + 199999) / 200000 + 5

/-- SWEEP and MAP_ROW run alone (Table 4.4). -/
def taskExcl (t : CoilTask) : Bool := t.op == 4 || t.op == 5

/-- SKIP_MAX as it reads: 0 reads as 1. -/
def skipMax (s : State) : Nat := max 1 (s.get F.coilCtrl_skipMax)

/-- A task is urgent (R124). -/
def taskUrgent (s : State) (t : CoilTask) : Bool := t.cls == 0 || decide (skipMax s ≤ t.skips)

/-- Two channels conflict (R113). -/
def coilConflict (s : State) (i j : Nat) : Bool := decide (s.get F.coilCtrl_kth < mapAt s i j)

/-- MINSEP in 0.1 Hz. -/
def minSep (s : State) : Nat := 100 * s.get F.coilSep_minsep

-- Jobs (R129–R136) ------------------------------------------------------------------------------------

/-- Entries of a directory group that are usable (R466). -/
def groupMembers (s : State) (g : Nat) : List (List Byte) :=
  (s.dir.entries.filter fun x => entLive x.2 && leAt x.2 11 1 == g).map fun x => x.2.take 8

def unionUid (a b : List (List Byte)) : List (List Byte) := a ++ b.filter fun u => !a.contains u

/-- The completion payload of a job (Table 4.5). -/
def jobPayload (s : State) (j : CoilJob) : List Byte :=
  let done := (j.stat.filter fun x => x.2 == St.ok).map fun x => x.1
  let bad := j.stat.filter fun x => x.2 != St.ok
  let status := (bad.head?.map fun x => x.2).getD St.ok
  let missing := if j.dirgrp = 0xFF then 0
    else ((groupMembers s j.dirgrp).filter fun u => !j.found.contains u).length
  [byte status, byte j.op] ++ leBytes 6 (done.foldl setBit 0) ++ leBytes 6 ((bad.map fun x => x.1).foldl setBit 0)
    ++ leBytes 2 j.found.length ++ leBytes 2 j.authed.length ++ leBytes 2 missing ++ leBytes 2 j.alien.length ++ zeros 2

/-- The program stops, with PROG_ERR on an error (R131, R132). -/
def progStop (s : State) (err : Bool) : State :=
  let s := s.set F.coilStat_progRun 0
  let s := if err then s.set F.coilStat_progErr 1 else s
  coilUpd s fun c => { c with progJob := none, progWait := false, progHalt := false, progAgain := false }

/-- The program goes on at the next entry; past entry 63 it stops with PROG_ERR (R132). -/
def progNext (s : State) : State :=
  let pc := s.get F.coilStat_pc
  if pc = 63 then progStop s true else s.set F.coilStat_pc (pc + 1)

/-- Start the program at entry 0, loop counters at 0 (R133, R134). -/
def progBegin (s : State) : State :=
  let s := ((s.set F.coilStat_progErr 0).set F.coilStat_progRun 1).set F.coilStat_pc 0
  coilUpd s fun c => { c with progJob := none, progWait := false, progHalt := false, progAgain := false, loops := [] }

/-- The job or WAIT of the entry in progress has ended: a halt, a restart, or the next entry. -/
def progOn (s : State) : State :=
  if s.coil.progAgain then progBegin s
  else if s.coil.progHalt then progStop s false
  else progNext (coilUpd s fun c => { c with progJob := none, progWait := false })

/-- Every task of a job has completed (R135). -/
def jobDone (s : State) (j : CoilJob) : State :=
  let p := jobPayload s j
  let s := coilUpd s fun c => { c with jobs := c.jobs.filter fun x => x.id != j.id }
  match j.req with
  | some r => complete s 0 0xFF r 0x01 p
  | none =>
    let s := if j.notify then sendFrame s 0 0xFF (mkFrame 0x81 2 j.dest j.dsub (thisDev s) 0 p) else s
    if s.coil.progJob = some j.id then progOn s else s

/-- Note one channel's status and tags in a job, and complete the job with its last task. -/
def jobNote (s : State) (ch status : Nat) (found authed alien : List (List Byte)) (id : Nat) : State :=
  match s.coil.jobs.find? fun j => j.id == id with
  | none => s
  | some j =>
    let j := { j with left := j.left.filter fun c => c != ch, stat := sput j.stat ch status, found := unionUid j.found found
                      authed := unionUid j.authed authed, alien := unionUid j.alien alien }
    let s := coilUpd s fun c => { c with jobs := c.jobs.map fun x => if x.id = id then j else x }
    if j.left.isEmpty then jobDone s j else s

/-- A task that never ran ends with a status for all its jobs. -/
def taskDrop (s : State) (t : CoilTask) (status : Nat) : State :=
  t.jobs.foldl (fun s j => jobNote s t.ch status [] [] [] j) s

/-- A task arrives (R100, R126, R138): refused on a channel that is disabled or down, merged, or made ready. -/
def coilArrive (s : State) (t : CoilTask) : State :=
  if !coilEn s t.ch || coilGrpDown s t.ch || (coilChDown s t.ch && t.kind != 3) then taskDrop s t St.portDown
  else
    match s.coil.ready.find? fun r => r.ch == t.ch && r.op == t.op && r.dirgrp == t.dirgrp && taskStep s r == taskStep s t with
    | some r =>
      coilUpd s fun c => { c with ready := c.ready.map fun x => if x.id = r.id then
          { x with cls := min x.cls t.cls, arrival := min x.arrival t.arrival, jobs := x.jobs ++ t.jobs, kind := max x.kind t.kind }
        else x }
    | none => coilUpd s fun c => { c with ready := c.ready ++ [{ t with id := c.nextId }], nextId := c.nextId + 1 }

/-- Make one job of an entry's bytes: a task per channel of CHMASK, all arriving in one cycle. -/
def jobMake (s : State) (req : Option Req) (cls : Nat) (e : List Byte) : Nat × State :=
  let id := s.coil.nextId
  let arr := s.coil.batch
  let chs := (List.range 48).filter fun c => bitOf (leAt e 2 6) c
  let b1 := leAt e 1 1
  let step := if b1.testBit 4 then b1 % 16 else 16
  let time := leAt e 10 2
  let j : CoilJob := { id, req, dest := leAt e 13 1 % 16, dsub := leAt e 14 1, notify := (leAt e 13 1).testBit 4
                       op := leAt e 0 1, dirgrp := leAt e 8 1, left := chs, stat := [], found := [], authed := [], alien := [] }
  let s := coilUpd s fun c => { c with jobs := c.jobs ++ [j], nextId := id + 1, batch := arr + 1 }
  (id, chs.foldl (fun s ch => coilArrive s
    { id := 0, ch, op := j.op, dirgrp := j.dirgrp, step, cls, arrival := arr, skips := 0
      limit := if time = 0 then 1000 else time, jobs := [id], kind := 0 }) s)

/-- One task that no job asked for (R122): DIRGRP 0xFF and a limit of 1,000 ms (log entries 127 and 128). -/
def coilQueue (s : State) (ch op cls kind : Nat) : State :=
  let arr := s.coil.batch
  coilArrive (coilUpd s fun c => { c with batch := arr + 1 })
    { id := 0, ch, op, dirgrp := 0xFF, step := 16, cls, arrival := arr, skips := 0, limit := 1000, jobs := [], kind }

/-- The reserved fields of an entry are 0, and an entry that makes tasks names a channel (R131, Table 4.3). -/
def entryOk (e : List Byte) : Bool :=
  let op := leAt e 0 1
  decide (op ≤ 8) && natBits (leAt e 1 1) 7 5 == 0 && natBits (leAt e 13 1) 7 5 == 0 && leAt e 15 1 == 0
  && !(decide (1 ≤ op) && decide (op ≤ 5) && leAt e 2 6 == 0)

/-- A job frame at P0 to P5 (R99, R131); one that meets a stopped subsystem waits (R143). A frame whose OP byte is not its
row's is one of an OP that no job frame carries (log entry 117). -/
def jobFrame (op : Nat) (req : Req) (port sub : Nat) (e : List Byte) (s : State) : State :=
  if noNewWork s 16 then coilUpd s fun c => { c with held := c.held ++ [(op, req, port, sub, e)] }
  else if port ≠ 0 ∨ sub ≠ 0xFF ∨ e.length ≠ 16 ∨ leAt e 0 1 ≠ op ∨ !entryOk e then
    complete s port sub req 0x01 ([byte St.badDescriptor, byte (leAt e 0 1)] ++ zeros 22)
  else (jobMake s (some req) req.cls e).2

/-- Job frames held while the subsystem was stopped are taken at CONFIG_START (R143). -/
def coilRelease (s : State) : State :=
  let hs := s.coil.held
  hs.foldl (fun s h => jobFrame h.1 h.2.1 h.2.2.1 h.2.2.2.1 h.2.2.2.2 s) (coilUpd s fun c => { c with held := [] })

-- Starting and ending tasks ---------------------------------------------------------------------------------

/-- A synthesiser of a group is taken or freed (R104). -/
def synSet (s : State) (g syn ch : Nat) (on : Bool) : State :=
  if syn = 0 then (s.set (F.coilGrpStat_syn0Ch g) ch).setB (F.coilGrpStat_syn0On g) on
  else (s.set (F.coilGrpStat_syn1Ch g) ch).setB (F.coilGrpStat_syn1On g) on

/-- Start a task: SYN0 if free, else SYN1 (R104); the Cloade ops take a transaction. -/
def taskStart (s : State) (t : CoilTask) : State :=
  let g := t.ch / 8
  let syn := if s.on (F.coilGrpStat_syn0On g) then 1 else 0
  let s := synSet s g syn t.ch true
  let s := coilUpd s fun c => { c with
    ready := c.ready.filter fun x => x.id != t.id, running := c.running ++ [⟨t, syn, false, s.now⟩] }
  if taskExcl t then s else cldStart s t.ch t.op t.dirgrp (taskStep s t)

def coilRunOf (s : State) (ch : Nat) : Option CoilRun := s.coil.running.find? fun x => x.t.ch == ch

/-- The drive of a channel stops (R104, R127, R148): synthesiser and grant are free, its field is off from now. -/
def driveOff (s : State) (x : CoilRun) : State :=
  let ch := x.t.ch
  let s := arbReturn ((synSet s (ch / 8) x.syn 0 false).set (F.coilChStat_clamp ch) 0) ch
  coilUpd s fun c => { c with running := c.running.filter fun y => y.t.ch != ch, offAt := sput c.offAt ch s.now }

/-- A running task ends (R136, R138): its transaction closes, and its jobs take its status and tags. -/
def taskEnd (s : State) (x : CoilRun) (status : Nat) (fault : Option Nat) : State :=
  let ch := x.t.ch
  let txn := cldGet s ch
  let s := driveOff s x
  let note := fun (s : State) (f a l : List (List Byte)) => x.t.jobs.foldl (fun s j => jobNote s ch status f a l j) s
  match txn with
  | none => note s [] [] []
  | some t => let l := cldForeign s t; note (cldClose s t fault) t.seen t.authed l

-- Faults (R137–R142) ---------------------------------------------------------------------------------------

/-- The channel's running and ready tasks end, its queued frames are flushed (R138, R141). -/
def channelStops (s : State) (ch : Nat) : State :=
  let s := match coilRunOf s ch with
    | some x => let st := cldFaultStatus s ch; taskEnd s x st (some st)
    | none => s
  let rs := s.coil.ready.filter fun t => t.ch == ch
  let s := coilUpd s fun c => { c with ready := c.ready.filter fun t => t.ch != ch }
  swSubGoesDown (arbForget (rs.foldl (fun s t => taskDrop s t St.portDown) s) ch) (ch / 8) (ch % 8)

/-- A channel fault (R138): FAULT keeps the first code. -/
def coilFault (s : State) (ch code : Nat) : State :=
  let s := if s.get (F.coilChStat_fault ch) = 0 then s.set (F.coilChStat_fault ch) code else s
  channelStops (raise (s.set (F.coilChStat_down ch) 1) ch 0) ch

/-- A retry sweep ended without a fault (R139, R140). -/
def coilRecover (s : State) (ch : Nat) : State :=
  if !coilChDown s ch then s
  else
    let s := ((s.set (F.coilChStat_fault ch) 0).set (F.coilChStat_down ch) 0).set (F.coilChStat_retries ch) 0
    let s := raise s ch 3
    if coilGrpDown s ch then s else swSubComesUp s (ch / 8) (ch % 8)

-- Admission (R121–R124) ----------------------------------------------------------------------------------------

/-- Lexicographic order of keys. -/
def lexLt : List Nat → List Nat → Bool
  | [], [] => false
  | [], _ => true
  | _, [] => false
  | a :: as, b :: bs => decide (a < b) || (a == b && lexLt as bs)

/-- Insert a task behind those with smaller or equal keys. -/
def taskInsert (x : List Nat × CoilTask) : List (List Nat × CoilTask) → List (List Nat × CoilTask)
  | [] => [x]
  | y :: l => if lexLt x.1 y.1 then x :: y :: l else y :: taskInsert x l

/-- The tasks a pass may admit: all ready ones, while the subsystem is stopping only those of the program entry in progress,
which runs to its end (R143). -/
def passReady (s : State) : List CoilTask :=
  if noNewWork s 16 then s.coil.ready.filter fun t => s.coil.progJob.any t.jobs.contains else s.coil.ready

/-- The order of the pass within a class (R123, R124). -/
def tasksOrdered (s : State) (cls : Nat) : List CoilTask :=
  let ts := (passReady s).filter fun t => t.cls == cls
  let cnt := fun g => (ts.filter fun t => t.ch / 8 == g).length
  let key := fun (t : CoilTask) =>
    let k := [ts.length - cnt (t.ch / 8), t.ch / 8, t.ch, t.arrival, t.id]
    if taskUrgent s t then 0 :: t.arrival :: k else 1 :: 0 :: k
  (ts.foldl (fun l t => taskInsert (key t, t) l) []).map fun x => x.2

/-- A task meets the limits of R121, with R148 and R190. -/
def taskFits (s : State) (t : CoilTask) : Bool :=
  let rs := s.coil.running.map fun x => x.t
  coilEn s t.ch && !coilGrpDown s t.ch && (t.kind == 3 || !coilChDown s t.ch)
  && decide ((rs.filter fun r => r.ch / 8 == t.ch / 8).length < 2)
  && (rs.all fun r => r.ch != t.ch && !taskExcl r && !coilConflict s r.ch t.ch
       && decide (minSep s ≤ max (coilFact s r.ch) (coilFact s t.ch) - min (coilFact s r.ch) (coilFact s t.ch)))
  && ((sget s.coil.offAt t.ch).all fun x => decide (x + 1000 ≤ s.now))
  && (taskExcl t || !noNewWork s 18)

/-- The number of tasks that may run (R119, R121). -/
def maxRun (s : State) : Nat := if s.on F.coilStat_mapValid then coilMaxconc s else 1

/-- The pass as it goes on: the state, the latest arrival started, and whether it is done. -/
structure PassSt where
  s      : State
  latest : Option Nat
  done   : Bool

/-- The grant of a task (R127); a refusal counts in SHORT. -/
def coilGrant (s : State) (t : CoilTask) : Bool × State :=
  match arbRequest s t.ch t.cls (coilUnits s t) with
  | (true, s) => (true, s)
  | (false, s) => (false, s.bump F.coilGrant_short 1)

/-- One task's turn in the pass (R123). -/
def passTask (p : PassSt) (t : CoilTask) : PassSt :=
  if p.done then p
  else if maxRun p.s ≤ p.s.coil.running.length then { p with done := true }
  else if ((passReady p.s).any fun r => taskUrgent p.s r) && !taskUrgent p.s t then p
  else if taskExcl t && !p.s.coil.running.isEmpty then p
  else if !taskFits p.s t then p
  else
    match coilGrant p.s t with
    | (false, s) => { p with s }
    | (true, s) => ⟨taskStart s t, some (max (p.latest.getD 0) t.arrival), taskExcl t⟩

/-- Save the map and the sweep results, record 0x0004 (R118): whether the save is under way. -/
def mapBytes (s : State) : List Byte :=
  ((List.range 2304).map fun k => byte (mapByte s k))
    ++ (List.range 48).flatMap fun n =>
      leBytes 4 (s.getW (W.coilChRes n)).toNat ++ leBytes 4 (regRead .fw s (W.coilChAct n)).toNat
def mapSave (s : State) (own : Bool) (src : Nat) (full valid : Bool) : Bool × State :=
  nvSubmit (coilUpd s fun c => { c with mapDirty := false }) (.record recCoilMap (mapBytes s)) false own src (.coilMap full valid)

/-- A task of MAP_FULL (R115), outside the ready tasks and their arrivals (log entry 126). -/
def mapFullTask (ch op : Nat) : CoilTask :=
  { id := 0, ch, op, dirgrp := 0xFF, step := 16, cls := 1, arrival := 0, skips := 0, limit := 1000, jobs := [], kind := 1 }

/-- The next step of MAP_FULL once no task runs (R115): a sweep, a row, or MAP_VALID and the save. Channels that are down
are passed over. -/
def mapFullPass : Nat → State → CoilMapFull → State
  | 0, s, _ => s
  | n + 1, s, m =>
    let go := fun (ch op : Nat) (m' : CoilMapFull) =>
      if coilChDown s ch || coilGrpDown s ch || !coilEn s ch then
        mapFullPass n (coilUpd s fun c => { c with mapFull := some m' }) m'
      else
        let t := { mapFullTask ch op with id := s.coil.nextId }
        if !taskFits s t then s
        else match coilGrant s t with
          | (false, s) => s
          | (true, s) => taskStart (coilUpd s fun c => { c with mapFull := some m', nextId := c.nextId + 1 }) t
    match m.sweeps, m.rows with
    | ch :: l, rows => go ch 4 ⟨l, rows, false⟩
    | [], ch :: l => go ch 5 ⟨[], l, false⟩
    | [], [] =>
      if m.saving then s
      else
        match mapSave (s.set F.coilStat_mapValid 1) true 0 true true with
        | (true, s) => coilUpd s fun c => { c with mapFull := some ⟨[], [], true⟩ }
        | (false, s) => coilUpd s fun c => { c with mapFull := none }

/-- One admission pass (R123, R124); none while the subsystem is stopped, or outside POLL and RUN. A MAP_FULL and a program
entry in progress run to their ends while it is stopping (R23). -/
def coilPass (s : State) : State :=
  if isStopped s 16 || !pmAwake s then s
  else
    match s.coil.mapFull with
    | some m => if s.coil.running.isEmpty then mapFullPass 97 s m else s
    | none =>
      let off := s.coil.ready.filter fun t => !coilEn s t.ch
      let s := coilUpd s fun c => { c with ready := c.ready.filter fun t => coilEn s t.ch }
      let s := off.foldl (fun s t => taskDrop s t St.portDown) s
      let p := [0, 1, 2].foldl (fun p cls => (tasksOrdered p.s cls).foldl passTask p) (⟨s, none, false⟩ : PassSt)
      match p.latest with
      | none => p.s
      | some a => coilUpd p.s fun c => { c with ready := c.ready.map fun t =>
          if t.arrival < a then { t with skips := t.skips + 1 } else t }

-- Carriers (R106–R109) --------------------------------------------------------------------------------------------

/-- One channel's loop update (R106, R109). -/
def follow1 (us : Nat) (targets : List (Nat × Nat)) (s : State) (ch : Nat) : State :=
  match coilRunOf s ch, targets.lookup ch with
  | some x, some want =>
    let held := ((cldGet s ch).map fun t => t.hdr).getD false
    if !s.on (F.coilChCtrl_follow ch) || x.t.op == 4 || held then s
    else
      let f := coilFact s ch
      let want := coilLimit s ch want
      let d := 800 * us / 1000
      let dest := if f ≤ want then min want (f + d) else max want (f - d)
      let others := (s.coil.running.filter fun y => y.t.ch != ch).map fun y => coilFact s y.t.ch
      let lim := others.foldl (fun dest fm =>
        if f < dest ∧ f ≤ fm ∧ fm < dest + minSep s then max f (fm - minSep s)
        else if dest < f ∧ fm ≤ f ∧ dest < fm + minSep s then min f (fm + minSep s) else dest) dest
      let s := s.setB (F.coilChStat_clamp ch) (lim != dest)
      coilUpd s fun c => { c with fact := sput c.fact ch lim }
  | _, _ => s

-- The coupling map (R112–R120) -------------------------------------------------------------------------------------

/-- The code of a measured pair: the largest c up to 255 with c ≤ 256·k, from the voltage over the current and the sweep
results of both channels (the formula before R114); 255 where the sweep results leave it without a value. -/
def mapCode (s : State) (i j cur v : Nat) : Nat :=
  let fr := fun n => 1190000 + s.get (F.coilChRes_fres n)
  let fa := 1190000 + coilFact s i
  let q := fun n => s.get (F.coilChRes_q n) * s.get (F.coilChAct_rs n)
  let den := fa * fa * cur * cur * q i * q j
  if den = 0 then 255
  else ((List.range 256).filter fun c => decide (c * c * den ≤ 2560 * 2560 * v * v * fr i * fr j)).length - 1

/-- Write row and column `i` (R114). -/
def mapRow (s : State) (i cur : Nat) (volts : List (Nat × Nat)) : State :=
  (List.range 48).foldl (fun t j =>
    if j = i then t
    else
      let v := if coilEn s j then mapCode s i j cur ((volts.lookup j).getD 0) else 255
      coilUpd t fun c => { c with map := sputD 255 c.map (mapKey i j) v }) s

/-- MAP_CHANGE on both channels of every pair that crossed KTH (R117). -/
def mapCross (old : State) (s : State) (i : Nat) : State :=
  (List.range 48).foldl (fun s j =>
    if j ≠ i ∧ coilConflict old i j ≠ coilConflict s i j then
      coilUpd (raise (raise s i 2) j 2) fun c => { c with mapDirty := true }
    else s) s

/-- A write to COIL_MAPDATA (R120): both mirror entries, diagonal bytes ignored, MAP_VALID cleared, IDX moved on. -/
def mapdataWrite (s : State) (w : W32) : State :=
  let k := s.get F.coilMapidx_idx / 4 * 4
  let s := (List.range 4).foldl (fun s b =>
    let a := k + b
    if 2304 ≤ a ∨ a / 48 = a % 48 then s
    else coilUpd s fun c => { c with map := sputD 255 c.map (mapKey (a / 48) (a % 48)) (wBits w (8 * b + 7) (8 * b)) }) s
  (s.set F.coilStat_mapValid 0).set F.coilMapidx_idx (k + 4)

/-- A write to COIL_PGDATA: program bytes IDX to IDX + 3. -/
def pgdataWrite (s : State) (w : W32) : State :=
  let k := s.get F.coilPgidx_idx / 4 * 4
  (coilUpd s fun c => { c with prog := memWrite c.prog k (leBytes 4 w.toNat) }).set F.coilPgidx_idx (k + 4)

/-- The words of record 0x0005 after the program bytes. -/
def recCoilProgWords : List Nat :=
  [W.coilPgcfg, W.coilCtrl, W.coilSep, W.coilMapcfg] ++ (List.range 6).map W.coilGrpCfg
    ++ (List.range 48).flatMap fun n => [W.coilChCtrl n, W.coilChFnom n]

-- The program (R132–R134) ----------------------------------------------------------------------------------------------

/-- The program may go on: running, between entries, the subsystem not stopped and no power-mode entry under way. -/
def progReady (s : State) : Bool :=
  s.on F.coilStat_progRun && s.coil.progJob.isNone && !s.coil.progWait && !noNewWork s 16 && s.pm.entry == 0 && pmAwake s

/-- Run the entry at PC (R130–R133). -/
def progRun (s : State) : State :=
  let pc := s.get F.coilStat_pc
  let e := memRead s.coil.prog (16 * pc) 16
  let op := leAt e 0 1
  let next := leAt e 12 1
  let notify := (leAt e 13 1).testBit 4
  let bad := !entryOk e || ((op == 7 || op == 8) && decide (63 < next)) || (op == 8 && leAt e 9 1 == 0)
    || (notify && !subListed (leAt e 13 1 % 16) (leAt e 14 1))
  if bad then progStop s true
  else if op = 0 then progStop s false
  else if op = 6 then coilUpd s fun c => { c with progWait := true }
  else if op = 7 then s.set F.coilStat_pc next
  else if op = 8 then
    let c0 := (sget s.coil.loops pc).getD 0
    let n := (if c0 = 0 then leAt e 9 1 else c0) - 1
    let s := coilUpd s fun c => { c with loops := sputD 0 c.loops pc n }
    if n = 0 then progNext s else s.set F.coilStat_pc next
  else
    -- the job may complete at once, so the entry counts as in progress before its tasks arrive
    (jobMake (coilUpd s fun c => { c with progJob := some c.nextId }) none 2 e).2

/-- PROG_START (R134): at entry 0, after the job in progress where one runs. -/
def progStartOp (s : State) : State :=
  if s.coil.progJob.isSome then
    coilUpd (s.set F.coilStat_progErr 0) fun c => { c with progAgain := true, progHalt := false }
  else progBegin s

/-- PROG_HALT (R134): after the job in progress. -/
def progHaltOp (s : State) : State :=
  if s.coil.progJob.isSome then coilUpd s fun c => { c with progHalt := true, progAgain := false } else progStop s false

/-- AUTOSTART (R134): when the subsystem first runs in POLL or RUN after reset. -/
def coilAutostart (s : State) : State :=
  if s.coil.autoDone || !pmAwake s then s
  else
    let s := coilUpd s fun c => { c with autoDone := true }
    if s.on F.coilPgcfg_autostart then progBegin s else s

-- Hold-up and start ------------------------------------------------------------------------------------------------------

/-- HOLDUP (R144): drivers stop, running tasks and jobs are abandoned without completion. -/
def coilHoldup (s : State) : State :=
  let s := s.coil.running.foldl driveOff s
  let s := progStop s false
  let s := { s with cld := { s.cld with txns := [], accs := [], held := [] } }
  coilUpd s fun c => { c with ready := [], running := [], jobs := [], held := [], mapFull := none }

/-- Load map, sweep results and program at the start (R119, R134). -/
def coilLoad (s : State) : State :=
  let s := match recSelect s recCoilProg with
    | some r => loadWords (coilUpd s fun c => { c with prog := memWrite [] 0 (r.payload.take 1024) }) recCoilProgWords (r.payload.drop 1024)
    | none => coilUpd s fun c => { c with prog := [] }
  match recSelect s recCoilMap with
  | none => (coilUpd s fun c => { c with map := [], fact := [] }).set F.coilStat_mapValid 0
  | some r =>
    let m := (List.range 2304).foldl (fun m k =>
      if k / 48 < k % 48 then sputD 255 m k (leAt r.payload k 1) else m) ([] : List (Nat × Nat))
    let s := (List.range 48).foldl (fun s n =>
      let res := leAt r.payload (2304 + 8 * n) 4
      let act := leAt r.payload (2308 + 8 * n) 4
      let s := (s.setW (W.coilChRes n) (BitVec.ofNat 32 res)).set (F.coilChAct_rs n) (natBits act 25 18)
      coilUpd s fun c => { c with fact := sput c.fact n (natBits act 17 0) }) s
    (coilUpd s fun c => { c with map := m }).set F.coilStat_mapValid 1

/-- The save of the map has ended (R115, R120). -/
def mapSaved (s : State) (full valid ok : Bool) : State :=
  let s := if full then coilUpd s fun c => { c with mapFull := none } else s
  if ok && valid then s.set F.coilStat_mapValid 1 else s

-- The commands --------------------------------------------------------------------------------------------------------------

/-- PROGRAM_ENTRY (R132). -/
def execCoilProgramEntry (s : State) : Host.Outcome State Fault Refusal := .next (if progReady s then progRun s else s)

/-- PROG_WAIT (R130): the TIME of the WAIT entry has passed. -/
def execCoilProgWait (s : State) : Host.Outcome State Fault Refusal := .next (if s.coil.progWait then progOn s else s)

/-- JOB_CENSUS (R130). -/
def execCoilJobCensus (req : Req) (port sub : Nat) (payload : List Byte) (s : State) : Host.Outcome State Fault Refusal :=
  .next (jobFrame 1 req port sub payload s)

/-- JOB_AUTH (R130). -/
def execCoilJobAuth (req : Req) (port sub : Nat) (payload : List Byte) (s : State) : Host.Outcome State Fault Refusal :=
  .next (jobFrame 2 req port sub payload s)

/-- JOB_CENSUS_AUTH (R130). -/
def execCoilJobCensusAuth (req : Req) (port sub : Nat) (payload : List Byte) (s : State) : Host.Outcome State Fault Refusal :=
  .next (jobFrame 3 req port sub payload s)

/-- JOB_SWEEP (R130). -/
def execCoilJobSweep (req : Req) (port sub : Nat) (payload : List Byte) (s : State) : Host.Outcome State Fault Refusal :=
  .next (jobFrame 4 req port sub payload s)

/-- JOB_MAP_ROW (R130). -/
def execCoilJobMapRow (req : Req) (port sub : Nat) (payload : List Byte) (s : State) : Host.Outcome State Fault Refusal :=
  .next (jobFrame 5 req port sub payload s)

/-- ADMISSION_PASS (R123). -/
def execCoilAdmissionPass (s : State) : Host.Outcome State Fault Refusal := .next (coilPass s)

/-- The channel's transaction stands between exchanges (R128, log entry 59): before its first CENSUS, waiting for the draws of
its next frame, or with a command that has not begun to go out. A census round, from CENSUS to its last mark, and a DROP
are exchanges (Table 5.5). -/
def cldBetween (s : State) (t : CldTxn) : Bool :=
  t.result.isNone && ((t.stall != 0 && t.stall != 3 && t.stall != 6)
    || match t.cmd with
      | none => t.sending == 0 && decide (t.phase ≤ 2)
      | some c => t.sending == 5 && !c.sent && !c.bad && c.left == s.get F.cldCfg_retries)

/-- TASK_PREEMPT (R128): a task whose C2 grant is revoked goes back among the ready tasks. -/
def execCoilTaskPreempt (ch : Nat) (s : State) : Host.Outcome State Fault Refusal :=
  .next <| match coilRunOf s ch with
    | none => s
    | some x =>
      let revoked := s.ev.grants.any fun g => g.ch == ch && g.revoked
      if !revoked || !((cldGet s ch).all (cldBetween s)) then s
      else
        let tags := ((cldGet s ch).map fun t => t.tags).getD []
        let s := driveOff s x
        let s := cldFree (cldUpd s fun c => { c with txns := c.txns.filter fun t => t.ch != ch }) tags
        coilUpd s fun c => { c with ready := c.ready ++ [x.t] }

/-- FIELD_STABLE (R103): the current is there, or it is not by 1 ms. -/
def execCoilFieldStable (ch : Nat) (ok : Bool) (s : State) : Host.Outcome State Fault Refusal :=
  .next <| match coilRunOf s ch with
    | none => s
    | some x =>
      if x.stable then s
      else if !ok then coilFault s ch 1
      else
        let s := coilUpd s fun c => { c with running := c.running.map fun y => if y.t.ch = ch then { y with stable := true } else y }
        match cldGet s ch with
        | some t => cldPut s { t with phase := 1 }
        | none => s

/-- FOLLOW_UPDATE (R106, R109): `us` microseconds of the loop toward each channel's phase zero, lower channels first. -/
def execCoilFollowUpdate (us : Nat) (targets : List (Nat × Nat)) (s : State) : Host.Outcome State Fault Refusal :=
  .next ((List.range 48).foldl (follow1 us targets) s)

/-- TASK_COMPLETE (R136): the exchange is over, the field goes off. -/
def execCoilTaskComplete (ch : Nat) (s : State) : Host.Outcome State Fault Refusal :=
  .next <| match coilRunOf s ch, (cldGet s ch).bind fun t => t.result with
    | some x, some st => cldResume (taskEnd s x st none)
    | _, _ => s

/-- TASK_TIMEOUT (R136): the task's TIME has passed. -/
def execCoilTaskTimeout (ch : Nat) (s : State) : Host.Outcome State Fault Refusal :=
  .next <| match coilRunOf s ch with
    | some x => cldResume (taskEnd s x St.timeout none)
    | none => s

/-- SWEEP_DONE (R108, R110, R111, R139): `fres` in 0.1 Hz above 119.000 kHz, none when there was no phase zero; RS in
0.1 Ω. -/
def execCoilSweepDone (ch : Nat) (fres : Option Nat) (q rs : Nat) (s : State) : Host.Outcome State Fault Refusal :=
  .next <| match coilRunOf s ch with
    | none => s
    | some x =>
      if x.t.op ≠ 4 then s
      else
        let s := (s.set (F.coilChRes_fres ch) (fres.getD 0)).set (F.coilChRes_q ch) (min 255 q)
        let s := s.set (F.coilChAct_rs ch) (min 255 rs)
        let s := match fres with
          | some f => coilUpd s fun c => { c with fact := sput c.fact ch (coilLimit s ch f) }
          | none => s
        let s := raise s ch 1
        let ok := match fres with
          | some f => decide (coilFnom s ch ≤ f + 30000) && decide (f ≤ coilFnom s ch + 30000)
          | none => false
        if !ok then coilFault s ch 3
        else taskEnd (if x.t.kind = 3 then coilRecover s ch else s) x St.ok none

/-- MAP_ROW_DONE (R114, R117): the measured peak current and the open-circuit voltages, in one decimal scale. -/
def execCoilMapRowDone (ch cur : Nat) (volts : List (Nat × Nat)) (s : State) : Host.Outcome State Fault Refusal :=
  .next <| match coilRunOf s ch with
    | none => s
    | some x =>
      if x.t.op ≠ 5 then s
      else
        let new := mapRow s ch cur volts
        taskEnd (if x.t.kind = 2 then mapCross s new ch else new) x St.ok none

/-- MAP_REFRESH (R116, R143): a row of the next enabled channel. -/
def execCoilMapRefresh (s : State) : Host.Outcome State Fault Refusal :=
  .next <|
    if s.get F.coilMapcfg_refresh = 0 ∨ noNewWork s 16 = true then s
    else match (List.range 48).findSome? fun k =>
        let ch := (s.coil.refresh + k) % 48
        if coilEn s ch then some ch else none with
      | none => s
      | some ch => coilQueue (coilUpd s fun c => { c with refresh := (ch + 1) % 48 }) ch 5 2 2

/-- MAP_SAVE_DUE (R118). -/
def execCoilMapSaveDue (s : State) : Host.Outcome State Fault Refusal :=
  .next (if s.coil.mapDirty then (mapSave s true 0 false false).2 else s)

/-- CHANNEL_FAULT (R137, R138). -/
def execCoilChannelFault (ch code : Nat) (s : State) : Host.Outcome State Fault Refusal :=
  .next (if ch < 48 ∧ 1 ≤ code ∧ code ≤ 4 then coilFault s ch code else s)

/-- A group's supply or temperature takes it down (R141): FAULT stays as it is. `uv` and `ov` say that the supply has stood at
`vdrv` for 50 µs with the one or the other suspected; COIL_GRPg_CFG decides. -/
def groupDownOp (s : State) (group : Nat) (uv ov hot : Bool) (vdrv : Nat) : State :=
  let uv := uv && decide (vdrv < s.get (F.coilGrpCfg_uv group))
  let ov := ov && decide (s.get (F.coilGrpCfg_ov group) < vdrv)
  if 6 ≤ group ∨ !(uv || ov || hot) then s
  else
    let set1 := fun (s : State) (f : Fd) (b : Nat) (v : Bool) =>
      if v && !s.on f then raise (s.set f 1) (48 + group) b else s.setB f v
    let was := s.on (F.coilGrpStat_down group)
    let s := (s.set (F.coilGrpStat_down group) 1).set (F.coilGrpStat_vdrv group) (min 255 vdrv)
    let s := set1 (set1 (set1 s (F.coilGrpStat_uv group) 0 uv) (F.coilGrpStat_ov group) 1 ov) (F.coilGrpStat_hot group) 2 hot
    if was then s else (List.range 8).foldl (fun s k => channelStops s (8 * group + k)) s

/-- GROUP_DOWN (R141). -/
def execCoilGroupDown (group : Nat) (uv ov hot : Bool) (vdrv : Nat) (s : State) : Host.Outcome State Fault Refusal :=
  .next (groupDownOp s group uv ov hot vdrv)

/-- The supply is in range (R141). -/
def vdrvOk (s : State) (group vdrv : Nat) : Bool :=
  decide (s.get (F.coilGrpCfg_uv group) ≤ vdrv) && decide (vdrv ≤ s.get (F.coilGrpCfg_ov group))

/-- GROUP_UP (R141, R142): a group that its supply took down comes up with the supply in range. A channel with a fault of its
own stays down. -/
def execCoilGroupUp (group vdrv : Nat) (s : State) : Host.Outcome State Fault Refusal :=
  .next <|
    if 6 ≤ group ∨ !s.on (F.coilGrpStat_down group)
        ∨ ((s.on (F.coilGrpStat_uv group) || s.on (F.coilGrpStat_ov group)) && !vdrvOk s group vdrv) then s
    else
      let s := (s.set (F.coilGrpStat_down group) 0).set (F.coilGrpStat_vdrv group) (min 255 vdrv)
      let s := ((s.set (F.coilGrpStat_uv group) 0).set (F.coilGrpStat_ov group) 0).set (F.coilGrpStat_hot group) 0
      let s := raise s (48 + group) 3
      (List.range 8).foldl (fun s k => if coilChDown s (8 * group + k) then s else swSubComesUp s group k) s

/-- AUTORETRY (R140): the next of up to three retries becomes ready, once the one before has ended. -/
def execCoilAutoretry (ch : Nat) (s : State) : Host.Outcome State Fault Refusal :=
  .next <|
    let code := s.get (F.coilChStat_fault ch)
    let n := s.get (F.coilChStat_retries ch)
    let on := (s.coil.ready.any fun t => t.ch == ch && t.kind == 3) || s.coil.running.any fun x => x.t.ch == ch && x.t.kind == 3
    if ch < 48 ∧ s.on (F.coilChCtrl_autoretry ch) = true ∧ coilChDown s ch = true ∧ (code = 1 ∨ code = 3) ∧ n < 3 ∧ on = false then
      coilQueue (s.set (F.coilChStat_retries ch) (n + 1)) ch 4 2 3
    else s

/-- COIL_CMD.MAP_FULL (R115). -/
def mapFullOp (s : State) : State :=
  if s.coil.mapFull.isSome then s
  else
    let chs := (List.range 48).filter (coilEn s)
    coilUpd s fun c => { c with mapFull := some ⟨chs, chs, false⟩ }
def execCoilMapFull (_src : Src) (s : State) : Host.Outcome State Fault Refusal := .next (mapFullOp s)

/-- COIL_CMD.MAP_SAVE (R120). -/
def mapSaveOp (s : State) (src : Src) : State :=
  if noNewWork s 16 then cfgReject s src W.coilCmd else (mapSave s false (srcPort src) false true).2
def execCoilMapSave (src : Src) (s : State) : Host.Outcome State Fault Refusal := .next (mapSaveOp s src)

/-- COIL_CMD.PROG_START (R134). -/
def execCoilProgStart (s : State) : Host.Outcome State Fault Refusal := .next (progStartOp s)

/-- COIL_CMD.PROG_HALT (R134). -/
def execCoilProgHalt (s : State) : Host.Outcome State Fault Refusal := .next (progHaltOp s)

/-- COIL_CMD.PROG_SAVE (R134). -/
def progSaveOp (s : State) (src : Src) : State :=
  (nvSubmit s (.record recCoilProg (memRead s.coil.prog 0 1024 ++ wordsBytes s recCoilProgWords)) false false (srcPort src) .none).2
def execCoilProgSave (src : Src) (s : State) : Host.Outcome State Fault Refusal := .next (progSaveOp s src)

/-- Bits 5 to 7 of COIL_CMD (R122, Table 4.7): a C1 task on channel CH, refused with CH 48 and above. -/
def coilCmdOp (s : State) (src : Src) (ch op kind : Nat) : State :=
  if 48 ≤ ch then cfgReject s src W.coilCmd else coilQueue s ch op 1 kind

/-- COIL_CMD.SWEEP (R110). -/
def execCoilSweep (src : Src) (ch : Nat) (s : State) : Host.Outcome State Fault Refusal := .next (coilCmdOp s src ch 4 0)

/-- COIL_CMD.RETRY (R139). -/
def execCoilRetry (src : Src) (ch : Nat) (s : State) : Host.Outcome State Fault Refusal := .next (coilCmdOp s src ch 4 3)

/-- COIL_CMD.MAP_ROW (R114). -/
def execCoilMapRow (src : Src) (ch : Nat) (s : State) : Host.Outcome State Fault Refusal := .next (coilCmdOp s src ch 5 0)

end Sys2Proof.Machine
end

