-- ==== Sys2Proof/Machine/HostEngine.lean ====
section
/-! DEFINITION. The device command engine (14_host_interface.md): descriptor checks (R510), the frames of Table 14.5, fetch by
rotation (R502), slots (R504), fences (R503), and the ends of CONFIG_STOP (R523, R524). -/

namespace Sys2Proof.Machine

-- The ends of CONFIG_STOP ----------------------------------------------------------------------------

/-- A waiting CONFIG_STOP completes. -/
def stopWaitEnd (s : State) (status : Nat) (w : StopWait) : State :=
  match w.req, w.slot with
  | some r, _ => mgmtDone s r w.blk 3 status w.ofs 0#32
  | none, some t => recordDirect s t status
  | none, none => s

/-- Every CONFIG_STOP waiting for the block completes. -/
def stopWaitsEnd (s : State) (blk status : Nat) : State :=
  let (mine, rest) := s.stops.waits.partition fun w => w.blk == blk
  mine.foldl (fun s w => stopWaitEnd s status w) { s with stops := { s.stops with waits := rest } }

/-- SW_CMD.START with the CONFIG_STOP it ends (R447, R524). -/
def swRestart (s : State) : Bool × State :=
  match swStartOp s with
  | (true, s) => (true, stopWaitsEnd s 12 St.cfgReject)
  | (false, s) => (false, s)

/-- Wait for the block to stop, or complete at once where it is stopped (R25). -/
def stopAsk (s : State) (w : StopWait) : State :=
  if isStopped s w.blk then stopWaitEnd s St.ok w
  else
    let s := stopBlock s w.blk
    { s with stops := { s.stops with waits := s.stops.waits ++ [w] } }

-- Descriptors (Tables 14.4, 14.5) ---------------------------------------------------------------------------------------------

abbrev D.op (d : List Byte) : Nat := leAt d 0 1
abbrev D.flags (d : List Byte) : Nat := leAt d 1 1
abbrev D.cls (d : List Byte) : Nat := natBits (leAt d 1 1) 3 2
abbrev D.inAddr (d : List Byte) : Nat := leAt d 16 8
abbrev D.inLen (d : List Byte) : Nat := leAt d 24 4
abbrev D.outAddr (d : List Byte) : Nat := leAt d 32 8
abbrev D.outLen (d : List Byte) : Nat := leAt d 40 4
abbrev D.dev (d : List Byte) : Nat := leAt d 11 1

/-- Opcodes of Table 14.5; an extension opcode needs its bit of IVC_FWEXT (R600). -/
def opKnown (s : State) (op : Nat) : Bool :=
  decide (op ≤ 9) || (decide (0x10 ≤ op) && decide (op ≤ 0x17))
    || (decide (0x20 ≤ op) && decide (op ≤ 0x3F) && bitOf (s.getW W.ivcFwext).toNat (op - 0x20))

/-- Opcodes whose frame carries the input buffer. -/
def opPayload (op : Nat) : Bool := op == 1 || op == 8 || decide (0x10 ≤ op)

/-- The reserved fields are 0. -/
def descRsvOk (d : List Byte) : Bool :=
  natBits (D.flags d) 7 6 == 0 && slice d 2 2 == zeros 2 && natBits (leAt d 9 1) 7 4 == 0 && natBits (D.dev d) 7 6 == 0
    && slice d 13 3 == zeros 3 && slice d 28 4 == zeros 4 && slice d 44 4 == zeros 4

/-- CONFIG_STOP and CONFIG_START name a stoppable block (R522), REG_READ and REG_WRITE a set-up offset. -/
def descMgmtOk (d : List Byte) : Bool :=
  if D.op d = 4 ∨ D.op d = 5 then decide (12 ≤ leAt d 48 1) && decide (leAt d 48 1 ≤ 38) && leAt d 48 1 % 2 == 0
  else if D.op d = 2 ∨ D.op d = 3 then decide (leAt d 48 4 < 0xB000)
  else true

/-- R510, step 1. -/
def descOk (s : State) (d : List Byte) : Bool :=
  let op := D.op d
  let fl := D.flags d
  let inline_ := fl.testBit 4
  let mc := fl.testBit 5
  opKnown s op && descRsvOk d && descMgmtOk d
    && (!inline_ || featOn s 4) && (!fl.testBit 1 || featOn s 5) && (!mc || featOn s 8) && (mc || leAt d 12 1 == 0)
    && (D.dev d == thisDev s || featOn s 6) && (decide (op < 0x20) || featOn s 7)
    && decide (D.inLen d ≤ 65519) && (!inline_ || decide (D.inLen d ≤ 16)) && D.inAddr d % 4 == 0 && D.outAddr d % 4 == 0
    && (if op = 1 then (D.cls d == 1 || D.cls d == 2) && !typeReserved (leAt d 8 1) && leAt d 8 1 != 0x10 && decide (leAt d 8 1 < 0x80)
        else !mc && (decide (op < 0x20) || D.cls d == 1 || D.cls d == 2))
    && (!s.hst.qspi || ((inline_ || !opPayload op || decide (D.inAddr d + D.inLen d ≤ 0x10000)) && decide (D.outAddr d + D.outLen d ≤ 0x10000)))

/-- The management sub-port of the block that holds an offset (R17, R787). -/
def offBlk (off : Nat) : Nat :=
  if off < 0x400 then 0 else if off < 0x1000 then 1 else if 0x2000 ≤ off ∧ off < 0x3000 then 8 else off / 0x800 * 2

/-- The payload of a MGMT request (R511). -/
def mgmtBytes (op ofs value timeout : Nat) : List Byte :=
  [byte op, 0#8, 0#8, 0#8] ++ leBytes 4 ofs ++ leBytes 4 value ++ leBytes 2 timeout ++ zeros 2

/-- Send the descriptor's frame from its ring's sub-port (R504, R509). -/
def descSend (s : State) (t : Nat) (d : List Byte) (typ cls dport dsub : Nat) (payload : List Byte) : State :=
  let x := slotAt s t
  let f := { mkFrame typ cls dport dsub (D.dev d) (t + 64 * x.ring + 1024 * x.gen) payload with
    mc := (D.flags d).testBit 5, mgrp := leAt d 12 1 }
  swIngress s 8 x.ring (thisDev s) true f

/-- The input bytes: inline, none, or those the DMA read brought; `none` when it failed (R510, step 2). -/
def descInput (d : List Byte) (input : Option (List Byte)) : Option (List Byte) :=
  if !opPayload (D.op d) || D.inLen d == 0 then some []
  else if (D.flags d).testBit 4 then some (slice d 48 (D.inLen d))
  else input.map (fit (D.inLen d))

/-- Start a descriptor that passed its checks: its frame, or what the engine does itself. -/
def descStart (s : State) (t : Nat) (d : List Byte) (input : Option (List Byte)) : State :=
  let op := D.op d
  match descInput d input with
  | none => recordDirect s t St.dmaError
  | some p =>
    if op = 0 then recordDirect s t St.ok
    else if op = 1 then descSend s t d (leAt d 8 1) (D.cls d) (natBits (leAt d 9 1) 3 0) (leAt d 10 1) p
    else if op = 2 then descSend s t d 0x10 3 15 (offBlk (leAt d 48 4)) (mgmtBytes 1 (leAt d 48 4) 0 0)
    else if op = 3 then descSend s t d 0x10 3 15 (offBlk (leAt d 48 4)) (mgmtBytes 2 (leAt d 48 4) (leAt d 52 4) 0)
    else if op = 4 then
      let ms := if leAt d 50 2 = 0 then 1000 else leAt d 50 2
      if leAt d 48 1 = 12 ∧ D.dev d = thisDev s then stopAsk s ⟨12, none, some t, ms, s.now, 0⟩
      else descSend s t d 0x10 3 15 (leAt d 48 1) (mgmtBytes 3 0 0 ms)
    else if op = 5 then
      if leAt d 48 1 = 12 ∧ D.dev d = thisDev s then
        match swStartOp s with
        | (true, s) => stopWaitsEnd (recordDirect s t St.ok) 12 St.cfgReject
        | (false, s) => recordDirect s t St.cfgReject
      else descSend s t d 0x10 3 15 (leAt d 48 1) (mgmtBytes 4 0 0 0)
    else if op = 6 then descSend s t d 0x0C 1 14 0 ([1#8] ++ zeros 7)
    else if op = 7 then descSend s t d 0x0C 1 14 0 ([2#8] ++ zeros 7)
    else if op = 8 then descSend s t d 0x09 1 14 1 p
    else if op = 9 then descSend s t d 0x0C 1 14 1 ([3#8] ++ zeros 7 ++ slice d 48 16)
    else if op < 0x20 then descSend s t d 0x41 1 15 40 p
    else descSend s t d op (D.cls d) 12 0 p

-- Fences (R503) -----------------------------------------------------------------------------------------------------------------

/-- Another descriptor of the slot's ring has not completed. -/
def fenceHeld (s : State) (t : Nat) : Bool :=
  (List.range 64).any fun k => k != t && slotOf s (slotAt s t).ring k

/-- Start the fenced descriptors whose rings have nothing else in progress. -/
def fenceLoop : Nat → State → State
  | 0, s => s
  | n + 1, s =>
    match s.hst.fenced.find? fun x => !fenceHeld s x.1 with
    | none => s
    | some x => fenceLoop n (descStart (hstUpd s fun h => { h with fenced := h.fenced.erase x }) x.1 x.2.1 x.2.2)

def fenceRun (s : State) : State := fenceLoop s.hst.fenced.length s

-- Fetch (R502, R504) ----------------------------------------------------------------------------------------------------------------

/-- The ring may be served: enabled, not in error, with an unfetched descriptor, none of its descriptors behind a fence. -/
def ringReady (s : State) (n : Nat) : Bool :=
  s.on (F.hrSqCfg_en n) && !s.on (F.hrSqStat_err n) && s.get (F.hrSqStat_head n) != s.get (F.hrSqStat_tail n)
    && !s.hst.fenced.any fun x => slotOf s n x.1

/-- The ring whose turn it is. -/
def fetchRing (s : State) : Option Nat :=
  ((List.range 16).map fun j => (s.hst.rrNext + j) % 16).find? (ringReady s)

/-- Take the lowest free slot for a descriptor of a ring (R504). -/
def slotTake (s : State) (n : Nat) (d : List Byte) : Option (Nat × State) :=
  (s.hst.slots.findIdx? fun x => !x.busy).map fun t =>
    let gen := (slotAt s t).gen % 63 + 1
    let x : OpSlot := ⟨true, gen, n, D.op d, (D.flags d).testBit 0, leAt d 4 4, D.outAddr d, D.outLen d, 0⟩
    (t, hstUpd s fun h => { h with slots := h.slots.set t x })

/-- The bytes of the descriptor and of its input buffer: in QSPI mode those of the ring window (R491). -/
def descBytes (s : State) (n : Nat) (desc : List Byte) : List Byte :=
  if s.hst.qspi then
    memRead s.hst.mem (base64 (s.getW (W.hrSqBaseLo n)) (s.getW (W.hrSqBaseHi n)) 64 + 64 * s.get (F.hrSqStat_head n)) 64
  else fit 64 desc
def descBuffer (s : State) (d : List Byte) (input : Option (List Byte)) : Option (List Byte) :=
  if s.hst.qspi then some (memRead s.hst.mem (D.inAddr d) (if D.inLen d ≤ 65519 then D.inLen d else 0)) else input

/-- The engine's read of a descriptor, and of its input buffer, completes; `want` says which opcodes this command is for. -/
def hostFetch (s : State) (want : Nat → Bool) (desc : List Byte) (input : Option (List Byte)) : State :=
  if portDown s 8 then s
  else match fetchRing s with
    | none => s
    | some n =>
      let d := descBytes s n desc
      if !want (D.op d) then s
      else match slotTake s n d with
        | none => s
        | some (t, s) =>
          let input := descBuffer s d input
          let s := s.set (F.hrSqStat_head n) ((s.get (F.hrSqStat_head n) + 1) % sqEntries s n)
          let s := hstUpd s fun h => { h with rrNext := (n + 1) % 16 }
          let s := if !descOk s d then recordDirect s t St.badDescriptor
            else if (D.flags d).testBit 1 && fenceHeld s t then hstUpd s fun h => { h with fenced := h.fenced ++ [(t, d, input)] }
            else descStart s t d input
          fenceRun s

/-- SW_CMD.START (R447). -/
def execSwStart (src : Src) (s : State) : Host.Outcome State Fault Refusal :=
  .next <| match swRestart s with
    | (true, s) => fenceRun s
    | (false, s) => cfgReject s src W.swCmd

end Sys2Proof.Machine
end

