-- ==== Sys2Proof/Machine/Operands.lean ====
section
/-! DEFINITION. The Ivler-2 instructions (17_ivler_instructions.md) with their operands: the instruction as the core sees it
once decoded, the operand limits of its form (R608–R611), its 32-bit or 16-bit encoding (Tables 17.2 to 17.12), which
registers it reads, and the classes the decode checks of Table 17.1 speak of. -/

namespace Sys2Proof.Machine

/-- Three-register operations of Table 17.6. -/
inductive AluOp where
  | add | adc | sub | sbc | and | or | xor
  deriving DecidableEq, Repr

/-- One-register operations of Table 17.6. -/
inductive UnOp where
  | mov | not | neg | sxb | sxh | zxb | zxh
  deriving DecidableEq, Repr

/-- Bit operations of Table 17.8, but for BACC. -/
inductive BitOp where
  | ldbit | ldbitn | andb | andbn | orb | orbn | xorb | stbit | stbitn | setb | clrb | notb | tstset
  deriving DecidableEq, Repr

/-- An Ivler-2 instruction. Loads and stores carry their size in bytes and the load its sign; a bit instruction its BADDR
and, with X set, the register added to it. -/
inductive IvIns where
  | alu (op : AluOp) (rd ra rb : Nat)
  | un (op : UnOp) (rd ra : Nat)
  | cmp (ra rb : Nat)
  | tst (ra rb : Nat)
  | shift (op : ShOp) (rd ra rb : Nat)
  | shifti (op : ShOp) (rd ra n : Nat)
  | addi (rd ra : Nat) (imm : Int)
  | logi (op : AluOp) (rd ra imm : Nat)
  | cmpi (ra : Nat) (imm : Int)
  | lui (rd imm : Nat)
  | movi (rd : Nat) (imm : Int)
  | ld (size : Nat) (sgn : Bool) (rd ra : Nat) (imm : Int)
  | st (size : Nat) (rd ra : Nat) (imm : Int)
  | ldd (rd imm : Nat)
  | std (rd imm : Nat)
  | push (ra : Nat)
  | pop (rd : Nat)
  | bit (op : BitOp) (baddr : Nat) (x : Option Nat)
  | bacc (n : Nat)
  | bcc (cond : Nat) (disp : Int)
  | jmp (disp : Int)
  | call (disp : Int)
  | jr (ra : Nat)
  | callr (ra : Nat)
  | ret
  | tret
  | mul (high sgn : Bool) (rd ra rb : Nat)
  | lmul (sgn : Bool) (ra rb : Nat)
  | crc (size rd ra : Nat) (mem : Bool)
  | par (ra : Nat)
  | brev (size rd ra : Nat)
  | mfs (rd sr : Nat)
  | mts (sr ra : Nat)
  | rpt (many : Bool) (n : Nat)
  | rptr (many : Bool) (ra : Nat)
  | sleep (mode : Nat)
  | brk (imm : Nat)
  | syscall (imm : Nat)
  | nop
  | wait
  | sync
  deriving DecidableEq, Repr

-- Fields ------------------------------------------------------------------------------------------------------------------

/-- A signed immediate cut to `w` bits. -/
def cutI (w : Nat) (x : Int) : Int := signed w (unsigned w x)

/-- A count of 1 to `n` as an n − 1 field brings it. -/
def cutN (n x : Nat) : Nat := (x + n - 1) % n + 1

/-- The operands an instruction has in its form (R608–R611): register numbers and immediates as wide as their fields, and in a
two-operand 16-bit form Rd as the first operand. -/
def ivNorm (short : Bool) : IvIns → IvIns
  | .alu op rd ra rb => .alu op (rd % 16) (if short then rd % 16 else ra % 16) (rb % 16)
  | .un op rd ra => .un op (rd % 16) (ra % 16)
  | .cmp ra rb => .cmp (ra % 16) (rb % 16)
  | .tst ra rb => .tst (ra % 16) (rb % 16)
  | .shift op rd ra rb => .shift op (rd % 16) (if short then rd % 16 else ra % 16) (rb % 16)
  | .shifti op rd ra n => .shifti op (rd % 16) (if short then rd % 16 else ra % 16) (n % 32)
  | .addi rd ra imm => .addi (rd % 16) (if short then rd % 16 else ra % 16) (cutI (if short then 7 else 16) imm)
  | .logi op rd ra imm => .logi op (rd % 16) (ra % 16) (imm % 65536)
  | .cmpi ra imm => .cmpi (ra % 16) (cutI (if short then 7 else 16) imm)
  | .lui rd imm => .lui (rd % 16) (imm % 1048576)
  | .movi rd imm => .movi (rd % 16) (cutI (if short then 7 else 20) imm)
  | .ld size sgn rd ra imm =>
    .ld size sgn (rd % 16) (ra % 16) (if short then (size : Int) * (imm / size % 8) else cutI 16 imm)
  | .st size rd ra imm => .st size (rd % 16) (ra % 16) (if short then (size : Int) * (imm / size % 8) else cutI 16 imm)
  | .ldd rd imm => .ldd (rd % 16) (imm % 65536)
  | .std rd imm => .std (rd % 16) (imm % 65536)
  | .push ra => .push (ra % 16)
  | .pop rd => .pop (rd % 16)
  | .bit op b x => if short then .bit op (b % 1024) none else .bit op (b % 8192) (x.map (· % 16))
  | .bacc n => .bacc (n % 8192)
  | .bcc c d => .bcc (c % 16) (cutI (if short then 9 else 20) d)
  | .jmp d => .jmp (cutI (if short then 12 else 24) d)
  | .call d => .call (cutI (if short then 12 else 24) d)
  | .jr ra => .jr (ra % 16)
  | .callr ra => .callr (ra % 16)
  | .ret => .ret
  | .tret => .tret
  | .mul h g rd ra rb => .mul h g (rd % 16) (ra % 16) (rb % 16)
  | .lmul g ra rb => .lmul g (ra % 16) (rb % 16)
  | .crc n rd ra m => .crc n (rd % 16) (ra % 16) m
  | .par ra => .par (ra % 16)
  | .brev n rd ra => .brev n (rd % 16) (ra % 16)
  | .mfs rd sr => .mfs (rd % 16) (sr % (if short then 16 else 32))
  | .mts sr ra => .mts (sr % (if short then 16 else 32)) (ra % 16)
  | .rpt m n => .rpt m (cutN (if short then 64 else 4096) n)
  | .rptr m ra => .rptr m (ra % 16)
  | .sleep m => .sleep (m % 8)
  | .brk i => .brk (i % (if short then 256 else 65536))
  | .syscall i => .syscall (i % (if short then 256 else 65536))
  | .nop => .nop
  | .wait => .wait
  | .sync => .sync

-- Codes ---------------------------------------------------------------------------------------------------------------------

/-- FN of major 0x00 and OP of ALU2 (Table 17.6). -/
def AluOp.code : AluOp → Nat
  | .add => 1 | .adc => 2 | .sub => 3 | .sbc => 4 | .and => 5 | .or => 6 | .xor => 7

/-- FN of major 0x00 for a one-register operation. -/
def UnOp.code : UnOp → Nat
  | .mov => 0 | .not => 8 | .neg => 9 | .sxb => 0x14 | .sxh => 0x15 | .zxb => 0x16 | .zxh => 0x17

/-- OP of ALU2 for a one-register operation. -/
def UnOp.code16 : UnOp → Nat
  | .mov => 0 | .not => 8 | .neg => 9 | .sxb => 0x19 | .sxh => 0x1A | .zxb => 0x1B | .zxh => 0x1C

/-- Position of a shift operation among SHL, SHR, SAR, ROR. -/
def ShOp.code : ShOp → Nat
  | .shl => 0 | .shr => 1 | .sar => 2 | .ror => 3

/-- SUB of major 0x15 (Table 17.8). -/
def BitOp.code : BitOp → Nat
  | .ldbit => 0 | .ldbitn => 1 | .andb => 2 | .andbn => 3 | .orb => 4 | .orbn => 5 | .xorb => 6 | .stbit => 7 | .stbitn => 8
  | .setb => 9 | .clrb => 10 | .notb => 11 | .tstset => 12

/-- SUB of the 16-bit BIT group; 8 where the operation has no 16-bit form. -/
def BitOp.code16 : BitOp → Nat
  | .ldbit => 0 | .andb => 1 | .orb => 2 | .xorb => 3 | .stbit => 4 | .setb => 5 | .clrb => 6 | .notb => 7
  | .ldbitn => 8 | .andbn => 8 | .orbn => 8 | .stbitn => 8 | .tstset => 8

/-- MAJOR of a load by size and sign, and of a store (Table 17.3). -/
def ldMajor (size : Nat) (sgn : Bool) : Nat :=
  if size = 4 then 0x08 else if size = 2 then (if sgn then 0x09 else 0x0A) else (if sgn then 0x0B else 0x0C)
def stMajor (size : Nat) : Nat := if size = 4 then 0x0D else if size = 2 then 0x0E else 0x0F

/-- FN of CRC and BREV by size: 0, 1 or 2. -/
def sizeCode (size : Nat) : Nat := if size = 1 then 0 else if size = 2 then 1 else 2

-- Encoding (Table 17.2, Table 17.4) --------------------------------------------------------------------------------------------

/-- A 32-bit word: 0b111, MAJOR, then the two 4-bit fields and the low half. -/
def enc32 (major hi lo rest : Nat) : Nat :=
  7 * 2 ^ 29 + major % 32 * 2 ^ 24 + hi % 16 * 2 ^ 20 + lo % 16 * 2 ^ 16 + rest % 65536

/-- Format R. -/
def encR (major rd ra rb fn amt : Nat) : Nat := enc32 major rd ra (rb % 16 * 4096 + fn % 64 * 64 + amt % 64)

/-- Formats U and B: a 4-bit field and 20 bits. -/
def encU (major rd x : Nat) : Nat := enc32 major rd (x / 65536) x

/-- Format J: 24 bits. -/
def encJ (major x : Nat) : Nat := enc32 major (x / 2 ^ 20) (x / 65536) x

/-- The 32-bit encoding of an instruction whose operands fit their fields. -/
def ivEnc32 : IvIns → Nat
  | .alu op rd ra rb => encR 0x00 rd ra rb op.code 0
  | .un op rd ra => encR 0x00 rd ra 0 op.code 0
  | .cmp ra rb => encR 0x00 0 ra rb 0x0A 0
  | .tst ra rb => encR 0x00 0 ra rb 0x0B 0
  | .shift op rd ra rb => encR 0x00 rd ra rb (0x0C + op.code) 0
  | .shifti op rd ra n => encR 0x00 rd ra 0 (0x10 + op.code) n
  | .addi rd ra imm => enc32 0x01 rd ra (unsigned 16 imm)
  | .logi op rd ra imm => enc32 (op.code - 3) rd ra imm
  | .cmpi ra imm => enc32 0x05 0 ra (unsigned 16 imm)
  | .lui rd imm => encU 0x06 rd imm
  | .movi rd imm => encU 0x07 rd (unsigned 20 imm)
  | .ld size sgn rd ra imm => enc32 (ldMajor size sgn) rd ra (unsigned 16 imm)
  | .st size rd ra imm => enc32 (stMajor size) rd ra (unsigned 16 imm)
  | .ldd rd imm => enc32 0x19 rd 0 imm
  | .std rd imm => enc32 0x1A rd 0 imm
  | .push ra => encR 0x10 0 ra 0 0 0
  | .pop rd => encR 0x10 rd 0 0 1 0
  | .bit op b x => enc32 0x15 op.code (x.getD 0) (b % 8192 + if x.isSome then 32768 else 0)
  | .bacc n => enc32 0x15 13 0 (n % 8192)
  | .bcc c d => encU 0x11 c (unsigned 20 d)
  | .jmp d => encJ 0x12 (unsigned 24 d)
  | .call d => encJ 0x13 (unsigned 24 d)
  | .jr ra => encR 0x14 0 ra 0 0 0
  | .callr ra => encR 0x14 0 ra 0 1 0
  | .ret => encR 0x14 0 0 0 2 0
  | .tret => encR 0x14 0 0 0 3 0
  | .mul h g rd ra rb => encR 0x16 rd ra rb (if h then (if g then 1 else 2) else 0) 0
  | .lmul g ra rb => encR 0x16 0 ra rb (if g then 3 else 4) 0
  | .crc n rd ra m => encR 0x17 rd ra 0 (sizeCode n + if m then 0x20 else 0) 0
  | .par ra => encR 0x17 0 ra 0 3 0
  | .brev n rd ra => encR 0x17 rd ra 0 (4 + sizeCode n) 0
  | .mfs rd sr => enc32 0x18 0 rd sr
  | .mts sr ra => enc32 0x18 1 ra sr
  | .rpt m n => enc32 0x18 (if m then 4 else 2) 0 (n - 1)
  | .rptr m ra => enc32 0x18 (if m then 5 else 3) ra 0
  | .sleep m => enc32 0x18 6 0 m
  | .brk i => enc32 0x18 7 0 i
  | .syscall i => enc32 0x18 8 0 i
  | .nop => enc32 0x18 9 0 0
  | .wait => enc32 0x18 10 0 0
  | .sync => enc32 0x18 11 0 0

/-- A 16-bit word: the group and 13 bits. -/
def enc16 (group rest : Nat) : Nat := group % 8 * 8192 + rest % 8192

/-- ALU2: OP, Rd, Ra. -/
def encA2 (op rd ra : Nat) : Nat := enc16 0 (op % 32 * 256 + rd % 16 * 16 + ra % 16)

/-- ALUI: OP, Rd, IMM7. -/
def encAI (op rd imm : Nat) : Nat := enc16 1 (op % 4 * 2048 + rd % 16 * 128 + imm % 128)

/-- MEM: OP, Rd, Ra, OFF. -/
def encM (op rd ra off : Nat) : Nat := enc16 2 (op % 4 * 2048 + rd % 16 * 128 + ra % 16 * 8 + off % 8)

/-- MISC: SUB, ARG. -/
def encX (sub arg : Nat) : Nat := enc16 6 (sub % 32 * 256 + arg % 256)

/-- The 16-bit encoding of an instruction; its 32-bit one where it has no 16-bit form. -/
def ivEnc16 : IvIns → Nat
  | .alu op rd _ rb => encA2 op.code rd rb
  | .un op rd ra => encA2 op.code16 rd ra
  | .cmp ra rb => encA2 0x0A ra rb
  | .tst ra rb => encA2 0x0B ra rb
  | .shift op rd _ rb => encA2 (0x0C + op.code) rd rb
  | .shifti op rd _ n => encAI 3 rd (32 * op.code + n % 32)
  | .addi rd _ imm => encAI 1 rd (unsigned 7 imm)
  | .cmpi ra imm => encAI 2 ra (unsigned 7 imm)
  | .movi rd imm => encAI 0 rd (unsigned 7 imm)
  | .ld size _ rd ra imm => encM (if size = 4 then 0 else 2) rd ra (imm.toNat / size)
  | .st size rd ra imm => encM (if size = 4 then 1 else 3) rd ra (imm.toNat / size)
  | .push ra => encX 0x01 (ra % 16)
  | .pop rd => encX 0x02 (rd % 16)
  | .bit op b _ => enc16 3 (op.code16 % 8 * 1024 + b % 1024)
  | .bcc c d => enc16 4 (c % 16 * 512 + unsigned 9 d)
  | .jmp d => enc16 5 (unsigned 12 d)
  | .call d => enc16 5 (4096 + unsigned 12 d)
  | .jr ra => encX 0x03 (ra % 16)
  | .callr ra => encX 0x04 (ra % 16)
  | .ret => encX 0x05 0
  | .tret => encX 0x06 0
  | .lmul g ra rb => encA2 (if g then 0x10 else 0x11) ra rb
  | .crc n rd ra false => encA2 (0x12 + sizeCode n) rd ra
  | .par ra => encA2 0x15 0 ra
  | .brev n rd ra => encA2 (0x16 + sizeCode n) rd ra
  | .mfs rd sr => encX 0x09 (sr % 16 * 16 + rd % 16)
  | .mts sr ra => encX 0x0A (sr % 16 * 16 + ra % 16)
  | .rpt false n => encX 0x07 (n - 1)
  | .rptr false ra => encX 0x08 (ra % 16)
  | .sleep m => encX 0x0D (m % 8)
  | .brk i => encX 0x0B i
  | .syscall i => encX 0x0C i
  | .nop => encX 0x00 0
  | i => ivEnc32 i

/-- The instruction has a 16-bit form (R611). -/
def ivHasShort : IvIns → Bool
  | .logi .. => false | .lui .. => false | .ldd .. => false | .std .. => false | .bacc _ => false | .mul .. => false
  | .wait => false | .sync => false
  | .ld size sgn _ _ _ => (size == 4 && !sgn) || (size == 1 && !sgn)
  | .st size _ _ _ => size == 4 || size == 1
  | .bit op _ x => decide (op.code16 < 8) && x.isNone
  | .crc _ _ _ m => !m
  | .rpt m _ => !m
  | .rptr m _ => !m
  | _ => true

/-- The encoding of an instruction in its form. -/
def ivEnc (short : Bool) (i : IvIns) : Nat := if short then ivEnc16 (ivNorm true i) else ivEnc32 (ivNorm false i)

-- What the checks ask (Table 17.1) -------------------------------------------------------------------------------------------------

/-- Check 3 where it depends on an operand: a special register of 20 to 31 (R562), a memory CRC with Rd equal to Ra (R627),
SLEEP with another mode than 1 to 3, BACC with BADDR above 2 (Table 17.8). -/
def ivIllegal : IvIns → Bool
  | .mfs _ sr => decide (20 ≤ sr)
  | .mts sr _ => decide (20 ≤ sr)
  | .crc _ rd ra m => m && rd == ra
  | .sleep m => m == 0 || decide (3 < m)
  | .bacc n => decide (3 ≤ n)
  | _ => false

/-- What R577 and R581 name: a control transfer, a repeat, a sleep instruction (WAIT among them, R630). -/
def ivTransfer : IvIns → Bool
  | .bcc .. => true | .jmp _ => true | .call _ => true | .jr _ => true | .callr _ => true | .ret => true | .tret => true
  | _ => false
def ivRepeat : IvIns → Bool
  | .rpt .. => true | .rptr .. => true | _ => false
def ivSleeps : IvIns → Bool
  | .sleep _ => true | .wait => true | _ => false

/-- The operation writes its bit (Table 17.8). -/
def BitOp.writes : BitOp → Bool
  | .stbit => true | .stbitn => true | .setb => true | .clrb => true | .notb => true | .tstset => true
  | _ => false

/-- The registers an instruction reads. -/
def ivUses : IvIns → List Nat
  | .alu _ _ ra rb => [ra, rb] | .un _ _ ra => [ra] | .cmp ra rb => [ra, rb] | .tst ra rb => [ra, rb]
  | .shift _ _ ra rb => [ra, rb] | .shifti _ _ ra _ => [ra] | .addi _ ra _ => [ra] | .logi _ _ ra _ => [ra]
  | .cmpi ra _ => [ra] | .ld _ _ _ ra _ => [ra] | .st _ rd ra _ => [rd, ra] | .std rd _ => [rd] | .push ra => [ra]
  | .bit _ _ x => x.toList | .jr ra => [ra] | .callr ra => [ra] | .mul _ _ _ ra rb => [ra, rb] | .lmul _ ra rb => [ra, rb]
  | .crc _ rd ra _ => [rd, ra] | .par ra => [ra] | .brev _ _ ra => [ra] | .mts _ ra => [ra] | .rptr _ ra => [ra]
  | _ => []

end Sys2Proof.Machine
end

