-- ==== Sys2Proof/Machine/Vio.lean ====
section
/-! DEFINITION. Vehicle, meter and release I/O (22_vehicle_meter_io.md): vehicle frames on CAN (R730–R738), the meter
inputs (R739–R741) and the release pads (R742). -/

namespace Sys2Proof.Machine

/-- Replace the block's state. -/
def vioUpd (s : State) (f : Vio → Vio) : State := { s with vio := f s.vio }

/-- The event controller runs (Table 18.1). -/
def evRuns (s : State) : Bool := decide (4 ≤ s.get F.pmStat_current) && decide (s.get F.pmStat_current ≤ 6)

-- Vehicle frames (R731–R738) ----------------------------------------------------------------------------

/-- The identifier word of R733. -/
def canWord (ide : Bool) (id : Nat) : Nat := id % 2 ^ 29 + (if ide then 2 ^ 31 else 0)

/-- The data of a status (R732: VSTATE and CTX) or request frame is defined, with its reserved bytes 0. -/
def canDataOk (rq : Bool) (d : List Byte) : Bool :=
  if rq then (leAt d 0 1 == 1 || leAt d 0 1 == 2) && slice d 1 3 == zeros 3
  else decide (leAt d 0 1 < 2) && decide (leAt d 1 1 < 4) && slice d 2 2 == zeros 2

/-- The key VK (R733). -/
def canKey (s : State) : Option (List Byte) :=
  s.cph.domain.map fun k => kdf k (kdfLabel "LSSR" "VCAN" (devIdentity s) (s.get F.secEpoch_epoch)) 128

/-- The MAC of a vehicle frame (R733). -/
def canMac (k : List Byte) (word : Nat) (d : List Byte) : List Byte := (cmac k (beBytes 4 word ++ d.take 8)).take 8

/-- The VEHICLE frame of an accepted frame (R736). -/
def canForward (s : State) (c : VioCan) : State :=
  let kind := if c.rq then leAt c.data 0 1 + 1 else 1
  let p := [byte kind, byte c.n, 0#8, 0#8] ++ leBytes 4 c.rtc ++ leBytes 4 c.ts ++ zeros 4 ++ fit 16 c.data
  let f := mkFrame 0x08 0 14 0 (thisDev s) 0 p
  if !c.rq && s.on F.vioDest_mc then
    sendFrame s 11 c.n { f with mc := true, dport := 0, mgrp := s.get F.vioDest_mgrp }
  else sendFrame s 11 c.n f

/-- A frame whose masks are there: MAC, duplicate, counter (R734, R735). -/
def canJudge (s : State) (c : VioCan) : State :=
  match canKey s with
  | none => raise s (112 + c.n) 0
  | some k =>
    let ctrF := if c.rq then F.vioReqctr_ctr else F.vioStsctr_ctr
    let last := if c.rq then s.vio.lastReq else s.vio.lastSts
    let ctr := beNat (slice c.data 4 4)
    if canMac k c.word c.data ≠ slice c.data 8 8 then raise s (112 + c.n) 0
    else if last = some (c.word, c.data) then s.bump (F.vioCanCnt_dup c.n) 1
    else if ctr ≤ s.get ctrF then raise s (112 + c.n) 1
    else
      let s := keepTouch ((s.set ctrF ctr).bump (F.vioCanCnt_ok c.n) 1)
      let s := vioUpd s fun v =>
        if c.rq then { v with lastReq := some (c.word, c.data) } else { v with lastSts := some (c.word, c.data) }
      canForward s c

/-- Verify a frame, its key derived and its MAC computed under masks of their own (R300, R733): with no key or with the unit in
fatal alarm it raises AUTH_FAIL; it may wait for its masks (R734). -/
def canVerify (s : State) (c : VioCan) : State :=
  if (canKey s).isNone then raise s (112 + c.n) 0
  else match maskDraws 2 s with
    | .fatal => raise s (112 + c.n) 0
    | .wait s => vioUpd s fun v => { v with waits := v.waits ++ [c] }
    | .bits _ s => canJudge s c

/-- Frames that waited for their masks go on (R359, R361). -/
def canResume (s : State) : State :=
  s.vio.waits.foldl canVerify (vioUpd s fun v => { v with waits := [] })

/-- The n-th waiting frame has waited 2 ms (R360, R734). -/
def canStall (s : State) (n : Nat) : State :=
  match s.vio.waits[n]? with
  | some c => raise (vioUpd s fun v => { v with waits := v.waits.eraseIdx n }) (112 + c.n) 0
  | none => s

/-- CAN_FRAME (R731–R735): a frame received on controller `n`: identifier extension, identifier, CAN FD format and data. -/
def execVioCanFrame (n : Nat) (ide : Bool) (id : Nat) (fd : Bool) (data : List Byte) (s : State) :
    Host.Outcome State Fault Refusal :=
  .next <|
    let matches_ := fun (idF ideF : Fd) => s.get idF == id && s.on ideF == ide
    let sts := matches_ (F.vioCanSid_id n) (F.vioCanSid_ide n)
    let rq := matches_ (F.vioCanRid_id n) (F.vioCanRid_ide n)
    if 2 ≤ n ∨ !canRuns s n ∨ s.get (F.vioCanStat_state n) = 3 ∨ !s.on (F.vioCanCfg_veh n) ∨ !(sts || rq) then s
    else if !fd || data.length != 16 || !canDataOk (!sts) data then s.bump (F.vioCanCnt_bad n) 1
    else canVerify s ⟨n, !sts, canWord ide id, data, s.rtcSec, rfTstamp s⟩

/-- A controller's error state and counters (Table 22.3). -/
def canState (s : State) (n st tec rxc : Nat) : State :=
  ((s.set (F.vioCanStat_state n) st).set (F.vioCanStat_tec n) (min 255 tec)).set (F.vioCanStat_rec n) (min 255 rxc)

/-- BUSOFF (R730): with the error counters as they then stand. -/
def execVioBusoff (n tec rxc : Nat) (s : State) : Host.Outcome State Fault Refusal :=
  .next <| if n < 2 ∧ canRuns s n = true then raise (canState s n 3 tec rxc) (112 + n) 2 else s

/-- BUSOFF_RECOVERY (R730): ISO 11898-1 sets both counters to 0. -/
def execVioBusoffRecovery (n : Nat) (s : State) : Host.Outcome State Fault Refusal :=
  .next <|
    if n < 2 ∧ canRuns s n = true ∧ s.get (F.vioCanStat_state n) = 3 then raise (canState s n 1 0 0) (112 + n) 4 else s

/-- ERROR_PASSIVE (R730). -/
def execVioErrorPassive (n tec rxc : Nat) (s : State) : Host.Outcome State Fault Refusal :=
  .next <|
    if n < 2 ∧ canRuns s n = true ∧ s.get (F.vioCanStat_state n) ≠ 3 then raise (canState s n 2 tec rxc) (112 + n) 3 else s

-- Meter inputs (R739, R741) --------------------------------------------------------------------------------------

/-- An occurrence on a meter's event source; while the event controller is off only the counter moves (log entry 79). -/
def mtrRaise (s : State) (c : Bool) (b : Nat) : State := if evRuns s then raise s (114 + b2n c) b else s

def mtrPut (s : State) (c : Bool) (m : VioMeter) : State := vioUpd s fun v => { v with meters := v.meters.set (b2n c) m }
def mtrGet (s : State) (c : Bool) : VioMeter := s.vio.meters.getD (b2n c) ⟨false, 0, 0, false, false⟩

/-- METER_EDGE (R739): EPD or, with `c`, EPC turns to its active or inactive level. -/
def execVioMeterEdge (c active : Bool) (s : State) : Host.Outcome State Fault Refusal :=
  .next <|
    let m := mtrGet s c
    if s.get F.pmStat_current = 0 ∨ m.active = active then s
    else if active then
      let rate := decide (s.rtc < m.offAt + 1000 * mtrOff s)
      let s := mtrPut s c { m with active := true, since := s.rtc, qual := false, rate }
      if rate then mtrRaise s c 2 else s
    else
      let short := if m.rate then decide (s.rtc < m.since + 1000 * mtrOn s) else !m.qual
      let s := mtrPut s c { m with active := false, offAt := s.rtc }
      if short then mtrRaise s c 1 else s

/-- METER_PULSE (R739): the input has held its active level for MINON ms. -/
def execVioMeterPulse (c : Bool) (s : State) : Host.Outcome State Fault Refusal :=
  .next <|
    let m := mtrGet s c
    if s.get F.pmStat_current = 0 ∨ !m.active ∨ m.qual ∨ m.rate then s
    else
      let f := if c then F.vioEpccnt_count else F.vioEpdcnt_count
      let s := (mtrPut s c { m with qual := true }).wrapInc f
      let s := mtrRaise s c 0
      if s.get f = 0 then mtrRaise s c 3 else s

-- Release pads (R742) ---------------------------------------------------------------------------------------------

/-- REL_FAULT (R742): REL_A, or with `b` REL_B, has read other than its driven level for 2 µs. -/
def execVioRelFault (b : Bool) (s : State) : Host.Outcome State Fault Refusal :=
  .next <|
    let s := vioUpd s fun v => if b then { v with badB := true } else { v with badA := true }
    raise (s.set F.vioStat_relFault 1) 112 5

/-- VIO_CMD.CLR_CNT (Table 22.3). -/
def execVioClrCnt (s : State) : Host.Outcome State Fault Refusal :=
  .next ((s.setW (W.vioCanCnt 0) 0#32).setW (W.vioCanCnt 1) 0#32)

/-- HOLDUP (R748): both controllers stop, and a frame being verified is lost. -/
def vioHoldup (s : State) : State := vioUpd s fun v => { v with waits := [] }

end Sys2Proof.Machine
end

