-- ==== Sys2Proof/Machine/EvRows.lean ====
section
/-! DEFINITION. Commands of the event controller, the snapshot block and the power arbiter
(20_events_snapshot_arbiter.md); what an occurrence does is in Events.lean. -/

namespace Sys2Proof.Machine

/-- EV_CMD.SAVE (R690): record 0x0043. -/
def evSaveOp (s : State) (src : Src) : State :=
  (nvSubmit s (.record recEvents (wordsBytes s ((List.range 128).map W.evSrc))) false false (srcPort src) .none).2
def execEvSave (src : Src) (s : State) : Host.Outcome State Fault Refusal := .next (evSaveOp s src)

/-- The routing registers at the start (R690). -/
def evLoad (s : State) : State :=
  match recSelect s recEvents with
  | some r => (List.range 128).foldl (fun (s : State) e =>
      s.setW (W.evSrc e) (BitVec.ofNat 32 (leAt r.payload (4 * e) 4) &&& 0x1FFFFF#32)) s
  | none => s

/-- EV_CMD.OCC_CLR (R683): the counters of source EV_OCCIDX.SRC. -/
def evOccClr (s : State) : State :=
  let e := s.get F.evOccidx_src
  { s with ev := { s.ev with occ := s.ev.occ.filter fun x => x.1 != 4096 + e && (x.1 / 16 != e || decide (4096 ≤ x.1)) } }
def execEvOccClr (s : State) : Host.Outcome State Fault Refusal := .next (evOccClr s)

/-- A write of EV_TMR (R691): both timers start again. -/
def execEvTmrWrite (v : W32) (s : State) : Host.Outcome State Fault Refusal :=
  .next { s.setW W.evTmr v with ev := { s.ev with tmrStart := [s.now, s.now] } }

/-- TIMER_EXPIRY (R691): the period of timer `n` ends. -/
def execEvTimerExpiry (n : Nat) (s : State) : Host.Outcome State Fault Refusal :=
  .next <|
    let p := s.get (if n = 0 then F.evTmr_period0 else F.evTmr_period1)
    if 2 ≤ n ∨ p = 0 ∨ !evRuns s then s
    else raise { s with ev := { s.ev with tmrStart := s.ev.tmrStart.set n s.now } } 127 n

/-- SNP_CMD.TRIG (R692). -/
def execEvSnpTrig (s : State) : Host.Outcome State Fault Refusal := .next (snapTrigger s 1)

/-- SNAP_IN rises (R692). -/
def execEvSnapIn (s : State) : Host.Outcome State Fault Refusal :=
  .next (if s.on F.snpCtrl_inEn then snapTrigger s 2 else s)

/-- SNP_CMD.ARM (R693). -/
def execEvSnpArm (s : State) : Host.Outcome State Fault Refusal := .next (s.set F.snpStat_armed 1)

/-- A read of SNP_STAT (R693): under AUTOARM it arms again once a snapshot is held. -/
def snpStatRead (s : State) : State :=
  if s.on F.snpCtrl_autoarm && s.on F.snpStat_valid then s.set F.snpStat_armed 1 else s
def execEvSnpStatRead (s : State) : Host.Outcome State Fault Refusal := .next (snpStatRead s)

/-- SNP_CMD.CLR_CNT (R704). -/
def execEvSnpClrCnt (s : State) : Host.Outcome State Fault Refusal := .next (s.setW W.snpCnt 0#32)

/-- BUDGET_WRITE (R697, R700): ARB_COILBUD, or with `sys` ARB_SYSBUD. -/
def budgetOp (s : State) (sys : Bool) (v : W32) : State :=
  if sys then s.set F.arbSysbud_budget (wBits v 8 0) else arbBudget (s.set F.arbCoilbud_budget (wBits v 10 0))
def execEvBudgetWrite (sys : Bool) (v : W32) (s : State) : Host.Outcome State Fault Refusal := .next (budgetOp s sys v)

/-- ARB_CMD.CLR (R704). -/
def execEvArbClr (s : State) : Host.Outcome State Fault Refusal :=
  .next ((s.setW W.arbCnt 0#32).setW W.arbPeak 0#32)

end Sys2Proof.Machine
end

