-- ==== Sys2Proof/Machine/Radio.lean ====
section
/-! DEFINITION. The UHF radio (07_uhf_radio.md): requests and the queue (R231–R235), profiles and tuning (R236–R244), the
state machine (R248), the regulatory block and its limits (R250–R259), duty (R260–R266), stop and hold-up. Proximity
sweeps wait in the same queue; what they do is in Prox.lean. -/

namespace Sys2Proof.Machine

/-- Replace the radio's state. -/
def rfUpd (s : State) (f : Rf → Rf) : State := { s with rf := f s.rf }

/-- The band of a frequency in kHz (Table 7.1). -/
def rfBand (f : Nat) : Option Nat :=
  if 300000 ≤ f ∧ f ≤ 348000 then some 0
  else if 387000 ≤ f ∧ f ≤ 464000 then some 1
  else if 779000 ≤ f ∧ f ≤ 960000 then some 2
  else none

/-- ANTSEL of a frequency's band (R229). -/
def rfAnt (s : State) (f : Nat) : Nat :=
  match rfBand f with
  | some 0 => s.get F.rfAntmap_band0
  | some 1 => s.get F.rfAntmap_band1
  | some _ => s.get F.rfAntmap_band2
  | none => 0

/-- The level of the EXTPA_EN pin: asserted high, or low with RF_ANTMAP.EXTPA_POL (R230). -/
def extpaPin (s : State) : Bool := s.rf.extpa != s.on F.rfAntmap_extpaPol

/-- A packet as it is sent: the preamble, SYNC and then LEN and the payload under their CRC (R234). -/
def rfPacket (s : State) (prof : Nat) (body : List Byte) : List Byte :=
  List.replicate (rfPre s prof) 0xAA#8 ++ beBytes 4 (s.get (F.rfProf_sync prof)) ++ airFrame (byte body.length :: body)

/-- The payload of a packet received after SYNC; none where its CRC fails or LEN disagrees (R234, R235). -/
def rfPayload (frame : List Byte) : Option (List Byte) :=
  match airBody frame with
  | some (l :: p) => if l.toNat = p.length then some p else none
  | _ => none

/-- The powered-down radio has no lock and no tune to keep (R240, R636). -/
def rfUnlock (s : State) : State := rfUpd (s.set F.rfStat_locked 0) fun x => { x with lastFreq := none }

-- The regulatory block (Tables 7.6, 7.7) -----------------------------------------------------------------

/-- Bytes of the block in force. -/
def regAt (s : State) (ofs n : Nat) : Nat := leNat (memRead s.rf.block ofs n)

/-- Entry `e`: FLO, FHI, MAXSTEP, FLAGS and DUTY. -/
def entFlo (s : State) (e : Nat) : Nat := regAt s (16 + 12 * e) 4
def entFhi (s : State) (e : Nat) : Nat := regAt s (20 + 12 * e) 4
def entMax (s : State) (e : Nat) : Nat := regAt s (24 + 12 * e) 1
def entFlags (s : State) (e : Nat) : Nat := regAt s (25 + 12 * e) 1
def entDuty (s : State) (e : Nat) : Nat := regAt s (26 + 12 * e) 2

/-- The drive code of a power step at a frequency: DRV_HI for band 2, DRV_LO below (R246, R247). -/
def rfDrive (s : State) (freq step : Nat) : Nat := regAt s (208 + 2 * step + b2n (rfBand freq == some 2)) 1

/-- The lowest-numbered enabled entry that holds FREQ ± `half` kHz and has the wanted flags (R257, R259). -/
def rfEntry (s : State) (flags freq half : Nat) : Option Nat :=
  (List.range (min 16 (regAt s 1 1))).find? fun e =>
    entFlags s e &&& flags == flags && decide (entFlo s e + half ≤ freq) && decide (freq + half ≤ entFhi s e)

/-- Transmission is barred (R255, R256). -/
def txBarred (s : State) : Bool :=
  let ok := s.sec.regLock && s.on F.rfStat_regValid
  (s.sec.regLock && !ok) || (decide (2 ≤ s.get F.secStat_lc) && !ok)

/-- Half the occupied band in kHz, rounded up (R237). -/
def rfHalf (s : State) (kind prof : Nat) : Nat :=
  if kind = 3 then 1
  else if rfMod s prof = 2 then (2 * rfRate s prof + 19) / 20
  else (2 * rfDev s prof + rfRate s prof + 19) / 20

-- Duty (R260–R266) -----------------------------------------------------------------------------------------

/-- The charge fits an entry (R262). -/
def dutyFits (s : State) (e ms : Nat) : Bool :=
  entDuty s e == 0xFFFF || decide (rfUsed s e + ms ≤ 100 * entDuty s e)

/-- The remaining time of an entry in use is below DUTYWARN percent of its DUTY (R265). -/
def dutyLow (s : State) (e : Nat) : Bool :=
  let d := 100 * entDuty s e
  decide (e < regAt s 1 1) && (entFlags s e).testBit 0 && entDuty s e != 0xFFFF
    && decide ((d - rfUsed s e) * 100 < d * rfDutywarn s)

/-- Charge an entry's current bin; DUTY_LOW when the remaining time falls below DUTYWARN percent (R261, R265). -/
def dutyCharge (s : State) (e ms : Nat) : State :=
  let t := rfUpd s fun r => { r with bins := r.bins.modify e fun b => match b with
    | [] => [ms]
    | x :: l => (x + ms) :: l }
  if !dutyLow s e && dutyLow t e then raise t 90 0 else t

/-- The charge of a TX or CW request in ms (R261): both ramps and the bits at RATE, or the duration. -/
def txCharge (s : State) (kind prof len time : Nat) : Nat :=
  if kind = 3 then time + 1
  else
    let r := rfRate s prof
    (16 * r + 8 * (rfPre s prof + len + 7) * 10000 + 1000 * r - 1) / (1000 * r)

-- Requests ---------------------------------------------------------------------------------------------------

/-- Fields of a request (Table 7.2). -/
def rqProf (d : List Byte) : Nat := leAt d 1 1 % 8
def rqStep (d : List Byte) : Nat := leAt d 2 1 % 32
def rqFreq (d : List Byte) : Nat := leAt d 4 4 % 2 ^ 20
def rqTime (d : List Byte) : Nat := let t := leAt d 8 2; if t = 0 then 1000 else t

/-- The request is well formed (R231, R233). -/
def rfReqOk (s : State) (kind : Nat) (req : Req) (d : List Byte) : Bool :=
  decide (req.cls < 3) && decide (16 ≤ d.length) && leAt d 0 1 == kind && natBits (leAt d 1 1) 7 3 == 0 && natBits (leAt d 2 1) 7 6 == 0
  && natBits (leAt d 4 4) 31 20 == 0 && slice d 10 6 == zeros 6 && (rfBand (rqFreq d)).isSome
  && d.length == 16 + leAt d 3 1 && (kind == 1 || leAt d 3 1 == 0) && (kind != 3 || s.on F.rfCtrl_cwEn)

/-- A completion (Table 7.3). -/
def rfAnswer (s : State) (it : RfItem) (status flags step rssi ferr ts : Nat) (data : List Byte) : State :=
  let flags := flags + b2n it.clipped + 2 * b2n it.deferred
  it.reqs.foldl (fun s r => complete s 6 0 r 0x03
    ([byte status, byte flags, byte step, byte rssi] ++ leBytes 2 ferr ++ leBytes 2 (min 65535 it.waited) ++ leBytes 4 ts
      ++ [byte data.length] ++ zeros 3 ++ data)) s

/-- Units of the system pool a request takes (Table 20.4). -/
def rfUnits (kind step : Nat) : Nat := if kind = 2 then 6 else if step < 16 then 10 else if step < 24 then 14 else 20

/-- Enter RXSETTLE or TXRAMP (R246, R261): the charge falls at the start of TXRAMP, EXTPA_EN follows the entry (R230). -/
def rfLocked (s : State) (r : RfRun) : State :=
  if r.item.kind = 2 then s.set F.rfStat_state 2
  else
    let d := r.item.data
    let s := dutyCharge (s.set F.rfStat_state 4) r.entry (txCharge s r.item.kind (rqProf d) (leAt d 3 1) (rqTime d))
    rfUpd s fun x => { x with extpa := (entFlags s r.entry).testBit 2 }

/-- Tune (R229, R238, R240): CAL, or straight on when the synthesiser still stands on the same frequency. -/
def rfTune (s : State) (it : RfItem) (entry step : Nat) : State :=
  let f := rqFreq it.data
  let skip := s.rf.lastFreq == some f && s.on F.rfStat_locked
  let drive := if it.kind = 2 then 0 else rfDrive s f step
  let r : RfRun := { item := it, entry, step, drive, skipped := skip, status := St.ok, ts := 0, sync := none, expired := false }
  let s := { s with ev := { s.ev with sysHeld := rfUnits it.kind step } }
  let s := arbPeak (rfUpd s fun x => { x with run := some r, ant := rfAnt s f })
  let s := s.set F.rfFreq_freq f
  if skip then rfLocked s r
  else ((s.set F.rfStat_locked 0).set F.rfStat_state 1).set F.rfCal_attempts 1

/-- DUTY, and one more outcome in DEFER (R262). -/
def dutyNote (s : State) : State := raise (s.bump F.rfCnt1_defer 1) 89 0

/-- A request is taken up (R255–R262): the state, in which it runs, is held, or has completed. -/
def rfTakeUp (s : State) (it : RfItem) : State :=
  let d := it.data
  let step := rqStep d
  let fail := fun (s : State) (it : RfItem) (st : Nat) => rfAnswer s it st 0 step 0 0 0 []
  let it := match it.held with
    | some t => { it with held := none, waited := (s.now - t) / 1000 }
    | none => it
  if !s.on F.rfCtrl_en then fail s it St.portDown
  else if it.kind = 2 then rfTune s it 0 step
  else if txBarred s then fail s it St.regLimit
  else
    match rfEntry s 1 (rqFreq d) (rfHalf s it.kind (rqProf d)) with
    | none => fail (raise s 87 0) it St.regLimit
    | some e =>
      let clip := decide (entMax s e < step)
      let s := if clip && !it.clipped then raise (s.bump F.rfCnt0_clip 1) 88 0 else s
      let it := { it with clipped := clip }
      let step := min step (entMax s e)
      if dutyFits s e (txCharge s it.kind (rqProf d) (leAt d 3 1) (rqTime d)) then rfTune s it e step
      else
        if (leAt d 2 1).testBit 5 ∧ s.rf.held.length < 8 then
          rfUpd (if it.deferred then s else dutyNote s) fun x => { x with held := x.held ++ [{ it with held := some (s.now - 1000 * it.waited), deferred := true }] }
        else rfAnswer (dutyNote s) it St.dutyDeferred 0 step 0 0 0 []

/-- The radio is free to take up work (R267, Table 18.1). -/
def rfFree (s : State) : Bool :=
  s.get F.rfStat_state == 0 && s.rf.run.isNone && s.prx.cur.isNone && s.prx.stalled.isNone && !noNewWork s 20 && pmAwake s

/-- The next queued item: class order, then arrival (R233); sweeps wait while the proximity unit is stopped (R298). -/
def rfPick (s : State) : Option RfItem :=
  [0, 1, 2].findSome? fun c =>
    let cs := s.rf.queue.filter fun x => x.cls == c && !(x.kind == 7 && noNewWork s 22)
    cs.foldl (fun best x => match best with
      | none => some x
      | some b => if x.id < b.id then some x else some b) none

/-- Take up requests until one runs or the queue is empty; a sweep waits for its own take-up. -/
def rfNext : Nat → State → State
  | 0, s => s
  | n + 1, s =>
    if !rfFree s then s
    else match rfPick s with
      | none => s
      | some it =>
        if it.kind = 7 then s
        else rfNext n (rfTakeUp (rfUpd s fun x => { x with queue := x.queue.filter fun y => y.id != it.id }) it)
def rfGo (s : State) : State := rfNext (s.rf.queue.length + 1) s

/-- Queue an item. -/
def rfEnqueue (s : State) (cls kind : Nat) (d : List Byte) (req : Req) : State :=
  let it : RfItem := { id := s.rf.nextId, cls, kind, data := d, reqs := [req], held := none, deferred := false, waited := 0
                       clipped := false, dead := false }
  rfUpd s fun x => { x with queue := x.queue ++ [it], nextId := x.nextId + 1 }

/-- A radio request arrives (R231); a row stands for the frames whose OP is its own. -/
def rfArrive (kind : Nat) (req : Req) (d : List Byte) (s : State) : State :=
  if !rfReqOk s kind req d then
    complete s 6 0 req 0x03 ([byte St.badDescriptor, 0#8, byte (rqStep d)] ++ zeros 13)
  else rfGo (rfEnqueue s req.cls kind d req)

/-- The radio goes idle or on: the grant returns (R701), in POLL an idle radio loses its lock (R636). -/
def rfIdle (s : State) : State :=
  let s := { s.set F.rfStat_state 0 with ev := { s.ev with sysHeld := 0 } }
  let s := rfUpd s fun x => { x with run := none, extpa := false }
  let s := rfGo s
  if s.get F.rfStat_state ≠ 0 then s
  else
    let s := rfUpd s fun x => { x with ant := 0 }
    if s.get F.pmStat_current = 5 then s.set F.rfStat_locked 0 else s

/-- The request under way ends with a status. -/
def rfEnd (s : State) (r : RfRun) (status : Nat) (data : List Byte) : State :=
  let (rssi, ferr) := if status = St.ok ∧ r.item.kind = 2 then r.sync.getD (0, 0) else (0, 0)
  let ts := if r.item.kind = 2 ∧ status ≠ St.ok then 0 else r.ts
  let s := rfAnswer s r.item status (4 * b2n r.skipped) r.step rssi ferr ts data
  rfIdle (rfUpd s fun x => { x with lastFreq := some (rqFreq r.item.data) })

-- The offset cache (R243, R244) -------------------------------------------------------------------------------

/-- A valid set for a frequency at the die temperature given. -/
def dcHit (s : State) (f : Nat) (temp : Int) : Bool :=
  s.rf.cache.any fun c => c.1 == f && decide ((c.2 - temp).natAbs ≤ rfDcTemp s)

/-- Use the cache for a frequency: HITS, or MISSES with the set measured and stored. -/
def dcUse (s : State) (f : Nat) (temp : Int) : State :=
  let hit := dcHit s f temp
  let old := (s.rf.cache.find? fun c => c.1 == f).getD (f, temp)
  let new := if hit then old else (f, temp)
  let s := if hit then s.bump F.rfDcstat_hits 1 else s.bump F.rfDcstat_misses 1
  rfUpd s fun x => { x with cache := (new :: x.cache.filter fun c => c.1 != f).take 64 }

-- The regulatory block's commands (R252–R255) ------------------------------------------------------------------------

/-- The key of the block's MAC (Table 7.6). -/
def regMac (s : State) (b : List Byte) : List Byte := cmac (rootKey s "RGLK" 0) (b.take 496)

/-- An enabled entry of the image passes the lock's checks (R253). -/
def regEntryOk (b : List Byte) (e : Nat) : Bool :=
  let o := 16 + 12 * e
  let flo := leAt b o 4
  let fhi := leAt b (o + 4) 4
  let duty := leAt b (o + 10) 2
  if !(leAt b (o + 9) 1).testBit 0 then true
  else decide (flo < fhi) && (rfBand flo).isSome && rfBand flo == rfBand fhi && decide (leAt b (o + 8) 1 ≤ 31)
    && (decide (duty ≤ 36000) || duty == 0xFFFF) && natBits (leAt b (o + 9) 1) 7 3 == 0

/-- The whole image may be locked. -/
def regImageOk (b : List Byte) : Bool :=
  decide (leAt b 1 1 ≤ 16) && slice b 4 12 == zeros 12 && slice b 272 224 == zeros 224
  && (List.range (min 16 (leAt b 1 1))).all (regEntryOk b)

/-- From `old` to `s`, some entry's remaining time has fallen below the mark (R265). -/
def dutyFell (old s : State) : Bool := (List.range 16).any fun e => !dutyLow old e && dutyLow s e

/-- A block comes into force (R252, R253); a lower DUTY may raise DUTY_LOW (R265). -/
def regInForce (s : State) (b : List Host.Cell) : State :=
  let t := (rfUpd s fun x => { x with image := b, block := b }).set F.rfStat_regValid 1
  if dutyFell s t then raise t 90 0 else t

/-- RF_CMD.REG_SAVE (R252, R254). -/
def regSaveOp (s : State) (src : Src) : State :=
  if s.sec.regLock then s.bump F.nvCnt_refused 1
  else
    match nvSubmit s (.record recRegBlock (memRead s.rf.image 0 512)) false false (srcPort src) .none with
    | (true, s) => regInForce s s.rf.image
    | (false, s) => s

/-- RF_CMD.REG_LOCK (R253); without KEY 0xA5 it does not act. -/
def regLockOp (s : State) (src : Src) (key : Nat) : State :=
  if key ≠ 0xA5 then s
  else
    let b := memRead s.rf.image 0 512
    if s.sec.regLock || !isStopped s 20 || !regImageOk b then cfgReject s src W.rfCmd
    else
      let b := b.take 496 ++ regMac s b
      match nvSubmit s (.record recRegBlock b) false false (srcPort src) .regLock with
      | (false, s) => cfgReject s src W.rfCmd
      | (true, s) => rfUpd s fun x => { x with image := memWrite [] 0 b }

/-- The locked block is saved: it is in force, whatever was written to the image since, and the fuse is blown (R253). -/
def regLocked (s : State) (k : NvKind) (ok : Bool) : State :=
  match ok, k with
  | true, .record _ b => { regInForce s (memWrite [] 0 b) with sec := { s.sec with regLock := true } }
  | _, _ => s

/-- A write to RF_REGDATA (R252), or to RF_PWRTAB, which is a view of the same bytes (R247); the caller has checked R254. -/
def regdataWrite (s : State) (w : W32) : State :=
  let k := s.get F.rfRegidx_idx / 4 * 4
  (rfUpd s fun x => { x with image := memWrite x.image k (leBytes 4 w.toNat) }).set F.rfRegidx_idx (k + 4)
def pwrtabWrite (s : State) (n : Nat) (w : W32) : State :=
  rfUpd s fun x => { x with image := memWrite x.image (208 + 2 * n) (leBytes 2 (wBits w 31 16)) }

/-- The block at the start (R255): REG_VALID, and REGBLK when a locked block fails its MAC. -/
def regLoad (s : State) : State :=
  let b := (recSelect s recRegBlock).map fun r => r.payload
  let mem := match b with
    | some b => memWrite [] 0 b
    | none => []
  let ok := match b with
    | some b => !s.sec.regLock || regMac s b == b.drop 496
    | none => false
  let s := rfUpd s fun x => { x with image := mem, block := mem }
  let s := s.setB F.rfStat_regValid ok
  if s.sec.regLock && !ok then raise s 91 0 else s

/-- The duty bins at the start: each restored USED in the current bin (R266). -/
def dutyLoad (s : State) : State :=
  rfUpd s fun x => { x with bins := (List.range 16).map fun e => [kGet s (K.duty e) 4] }

/-- USED with the RTC minute into the keep set (R266). -/
def dutyKeep (s : State) : State :=
  (List.range 16).foldl (fun s e => kPut (kPut s (K.duty e) 4 (rfUsed s e)) (K.duty e + 4) 4 (s.rtcSec / 60)) s

-- Held requests, stop and hold-up ---------------------------------------------------------------------------------

/-- Held requests whose charge fits go back to their place in the queue (R262, R263). -/
def rfRecheck (s : State) : State :=
  let fits := fun (it : RfItem) =>
    let d := it.data
    match rfEntry s 1 (rqFreq d) (rfHalf s it.kind (rqProf d)) with
    | none => true
    | some e => dutyFits s e (txCharge s it.kind (rqProf d) (leAt d 3 1) (rqTime d))
  rfGo (rfUpd s fun x => { x with queue := x.queue ++ x.held.filter fits, held := x.held.filter fun it => !fits it })

/-- The step of a request after clipping by the entry that admits it (R258). -/
def rfClipped (s : State) (it : RfItem) : Nat :=
  match rfEntry s 1 (rqFreq it.data) (rfHalf s it.kind (rqProf it.data)) with
  | some e => min (rqStep it.data) (entMax s e)
  | none => rqStep it.data

/-- A held request's TIME has passed (R262). -/
def rfHeldOut (s : State) (it : RfItem) : State :=
  let s := rfUpd s fun x => { x with held := x.held.filter fun y => y.id != it.id }
  let it := match it.held with
    | some t => { it with waited := (s.now - t) / 1000 }
    | none => it
  rfAnswer (dutyNote s) it St.dutyDeferred 0 (rfClipped s it) 0 0 0 []

/-- CONFIG_START (R267). -/
def rfStart (s : State) : State := rfGo ((s.rf.held.filter fun x => x.dead).foldl rfHeldOut s)

/-- HOLDUP (R268): everything is abandoned without completion; charges stand. -/
def rfHoldup (s : State) : State :=
  let s := (s.set F.rfStat_state 0).set F.rfStat_locked 0
  let s := rfUpd s fun x => { x with queue := [], held := [], run := none, lastFreq := none, ant := 0, extpa := false }
  { s with prx := { s.prx with cur := none, stalled := none, held := [] } }

/-- TX_NOLOCK (R239, R242). -/
def rfNolock (s : State) : State := raise ((s.bump F.rfCnt0_nolock 1).set F.rfStat_locked 0) 86 0

/-- The synthesiser loses lock (R242); in RANGE the hop says so itself. -/
def rfLockLoss (s : State) : State :=
  match s.rf.run with
  | none => s.set F.rfStat_locked 0
  | some r =>
    let st := s.get F.rfStat_state
    if st = 2 ∨ st = 3 then rfEnd (rfNolock s) r St.txNolock []
    else if st = 4 ∨ st = 5 then
      rfUpd ((rfNolock s).set F.rfStat_state 6) fun x => { x with run := some { r with status := St.txNolock } }
    else s.set F.rfStat_locked 0

-- The commands ------------------------------------------------------------------------------------------------------

/-- RADIO_TX (R231, R234). -/
def execRfRadioTx (req : Req) (payload : List Byte) (s : State) : Host.Outcome State Fault Refusal := .next (rfArrive 1 req payload s)
/-- RADIO_RX (R231, R235). -/
def execRfRadioRx (req : Req) (payload : List Byte) (s : State) : Host.Outcome State Fault Refusal := .next (rfArrive 2 req payload s)
/-- RADIO_CW (R231). -/
def execRfRadioCw (req : Req) (payload : List Byte) (s : State) : Host.Outcome State Fault Refusal := .next (rfArrive 3 req payload s)

/-- The request under way while the radio is in a state. -/
def rfIn (s : State) (st : Nat) (f : RfRun → State) : State :=
  match s.rf.run with
  | some r => if s.get F.rfStat_state = st then f r else s
  | none => s

/-- CAL_LOCKED (R238): the VCO code and the µs CAL has taken. -/
def execRfCalLocked (vco us : Nat) (s : State) : Host.Outcome State Fault Refusal :=
  .next <| rfIn s 1 fun r =>
    rfLocked (((s.set F.rfStat_locked 1).set F.rfCal_vco vco).set F.rfCal_calUs (min 255 us)) r

/-- CAL_ATTEMPT_TIMEOUT (R239): `us` since the request was taken up. -/
def execRfCalAttemptTimeout (us : Nat) (s : State) : Host.Outcome State Fault Refusal :=
  .next <| rfIn s 1 fun r =>
    if 100 ≤ us then rfEnd (rfNolock (s.set F.rfCal_calUs (min 255 us))) r St.txNolock []
    else s.bump F.rfCal_attempts 1

/-- RX_SETTLED (R243): `temp` is the die temperature in °C. -/
def execRfRxSettled (temp : Int) (s : State) : Host.Outcome State Fault Refusal :=
  .next <| rfIn s 2 fun r => dcUse (s.set F.rfStat_state 3) (rqFreq r.item.data) temp

/-- SYNC_DETECTED (R232, R235): RSSI in dBm and frequency error in 100 Hz, as their two's-complement codes. -/
def execRfSyncDetected (rssi ferr : Nat) (s : State) : Host.Outcome State Fault Refusal :=
  .next <| rfIn s 3 fun r => rfUpd (s.set F.rfRssi_live rssi) fun x => { x with run := some { r with sync := some (rssi, ferr), ts := rfTstamp s } }

/-- RX_PACKET (R234, R235): a packet received to its end, as the bytes after SYNC: LEN with the payload, and the CRC. -/
def execRfRxPacket (body crc : List Byte) (s : State) : Host.Outcome State Fault Refusal :=
  .next <| rfIn s 3 fun r =>
    match r.sync with
    | none => s
    | some (rssi, _) =>
      match rfPayload (body ++ crc) with
      | some data => rfEnd (s.set F.rfRssi_pkt rssi) r St.ok data
      | none =>
        let s := s.bump F.rfCnt1_crcerr 1
        if r.expired then rfEnd s r St.timeout [] else rfUpd s fun x => { x with run := some { r with sync := none } }

/-- RX_WINDOW_EXPIRY (R235). -/
def execRfRxWindowExpiry (s : State) : Host.Outcome State Fault Refusal :=
  .next <| rfIn s 3 fun r =>
    if r.sync.isSome then rfUpd s fun x => { x with run := some { r with expired := true } } else rfEnd s r St.timeout []

/-- TXRAMP_DONE (R234, R246): the first preamble bit goes out; a CW carries no packet. -/
def execRfTxrampDone (s : State) : Host.Outcome State Fault Refusal :=
  .next <| rfIn s 4 fun r =>
    let d := r.item.data
    let air := if r.item.kind = 1 then rfPacket s (rqProf d) (d.drop 16) else []
    rfUpd (s.set F.rfStat_state 5) fun x => { x with run := some { r with ts := rfTstamp s }, air }

/-- TX_DONE (R248). -/
def execRfTxDone (s : State) : Host.Outcome State Fault Refusal := .next (rfIn s 5 fun _ => s.set F.rfStat_state 6)

/-- TXRAMPDOWN_DONE (R248). -/
def execRfTxrampdownDone (s : State) : Host.Outcome State Fault Refusal := .next (rfIn s 6 fun r => rfEnd s r r.status [])

/-- LOCK_LOSS (R242). -/
def execRfLockLoss (s : State) : Host.Outcome State Fault Refusal := .next (rfLockLoss s)

/-- DUTY_HELD_TIMEOUT (R262, R267): the TIME of held request `n` has passed. -/
def execRfDutyHeldTimeout (n : Nat) (s : State) : Host.Outcome State Fault Refusal :=
  .next <| match s.rf.held.find? fun x => x.id == n with
    | none => s
    | some it =>
      if noNewWork s 20 then rfUpd s fun x => { x with held := x.held.map fun y => if y.id = n then { y with dead := true } else y }
      else rfHeldOut s it

/-- RTC_MINUTE (R260, R262, R266, R691). -/
def execRfRtcMinute (s : State) : Host.Outcome State Fault Refusal :=
  .next <|
    let s := rfUpd s fun x => { x with bins := x.bins.map fun b => (0 :: b).take 60 }
    let s := raise (dutyKeep s) 126 1
    if noNewWork s 20 then s else rfRecheck s

/-- REG_SAVE (R252). -/
def execRfRegSave (src : Src) (s : State) : Host.Outcome State Fault Refusal := .next (regSaveOp s src)
/-- REG_LOCK (R253). -/
def execRfRegLock (src : Src) (key : Nat) (s : State) : Host.Outcome State Fault Refusal := .next (regLockOp s src key)
/-- DC_FLUSH (R244). -/
def execRfDcFlush (s : State) : Host.Outcome State Fault Refusal := .next (rfUpd s fun x => { x with cache := [] })
/-- RF_CMD.CLR_CNT (R269). -/
def execRfClrCnt (s : State) : Host.Outcome State Fault Refusal :=
  .next (((s.setW W.rfCnt0 0#32).setW W.rfCnt1 0#32).setW W.rfDcstat 0#32)

end Sys2Proof.Machine
end

