-- ==== Sys2Proof/Machine/Prox.lean ====
section
/-! DEFINITION. The proximity unit (08_proximity.md): sweep requests (R270–R274), take-up and hop order (R275–R277, R285),
hops (R281–R284), distance and round-trip bound (R286–R288), the LF check (R289, R290), checks, fusion and the verdict
record (R291–R294), card verdicts (R295) and calibration (R296). The arithmetic of R286 is in floating point (log
entry 73). -/

namespace Sys2Proof.Machine

/-- Replace the unit's state. -/
def prxUpd (s : State) (f : Prx → Prx) : State := { s with prx := f s.prx }

-- The verdict record (Table 8.9) ---------------------------------------------------------------------------

/-- A verdict record before it is written out; the fields' names are those of Table 8.9, distances already in their coding. -/
structure PrxRecord where
  verdict : Nat := 2
  status  : Nat := 0
  cause   : Nat := 0
  dist    : Nat := 0xFFFF
  sigma   : Nat := 0xFFFF
  resid   : Nat := 0xFFFF
  rttb    : Nat := 0xFF
  lfres   : Nat := 0
  dlo     : Nat := 0
  dhi     : Nat := 0
  nvl     : Nat := 0
  nvh     : Nat := 0
  nolock  : Nat := 0
  flags   : Nat := 0
  dbl     : Nat := 0x8000
  dbh     : Nat := 0x8000
  sweepId : Nat := 0
  ts      : Nat := 0
  uid     : List Byte := []
  deriving DecidableEq, Repr

/-- The 40 bytes of a record. -/
def recordBytes (r : PrxRecord) : List Byte :=
  [byte r.verdict, byte r.status] ++ leBytes 2 r.cause ++ leBytes 2 r.dist ++ leBytes 2 r.sigma ++ leBytes 2 r.resid
    ++ [byte r.rttb, byte r.lfres] ++ leBytes 2 r.dlo ++ leBytes 2 r.dhi
    ++ [byte r.nvl, byte r.nvh, byte r.nolock, byte r.flags] ++ leBytes 2 r.dbl ++ leBytes 2 r.dbh
    ++ leBytes 4 r.sweepId ++ leBytes 4 r.ts ++ fit 8 r.uid

/-- The verdict and status of a set of cause bits (R292). -/
def prxFuse (cause : Nat) : Nat × Nat :=
  if 256 ≤ cause then (1, St.rangeInconsistent) else if cause ≠ 0 then (2, St.rangeInconclusive) else (0, St.ok)

/-- Send a record to every requester (R273, R293). -/
def prxAnswer (s : State) (reqs : List Req) (r : PrxRecord) : State :=
  reqs.foldl (fun s q => complete s 6 1 q 0x04 (recordBytes r)) s

/-- A verdict (R293, R294): PRX_LAST, the counters, DONE and ALERT, the event log, and the completions. -/
def prxVerdict (s : State) (reqs : List Req) (r : PrxRecord) : State :=
  let s := loadWords s ((List.range 10).map W.prxLast) (recordBytes r)
  let s := if r.verdict = 0 then s.bump F.prxCnt0_pass 1 else if r.verdict = 1 then s.bump F.prxCnt0_fail 1
    else s.bump F.prxCnt1_inconc 1
  let s := raise s 92 0
  let s := if r.verdict = 1 then logAppend (raise s 93 0) 93 0 (recordBytes r) else s
  prxAnswer s reqs r

-- Floating point (R286) ------------------------------------------------------------------------------------

/-- π, 2π and c. -/
def fPi : Float := 3.141592653589793
def fTau : Float := 2.0 * fPi
def fC : Float := 299792458.0

def fNat (n : Nat) : Float := Float.ofNat n
def fInt (n : Int) : Float := Float.ofInt n

/-- wrap() to [0, 2π) and wrapsym() to (−π, π]. -/
def fWrap (x : Float) : Float := x - fTau * (x / fTau).floor
def fWrapsym (x : Float) : Float := fPi - fWrap (fPi - x)

def fSum (l : List Float) : Float := l.foldl (· + ·) 0.0
def fMean (l : List Float) : Float := fSum l / fNat l.length
/-- The circular mean of angles. -/
def fCircMean (l : List Float) : Float := Float.atan2 (fSum (l.map Float.sin)) (fSum (l.map Float.cos))

/-- A whole number of a value that is already rounded; values of 2^31 and above have no place in any field. -/
def fToInt (x : Float) : Option Int :=
  if x.isNaN || x.abs >= 2147483648.0 then none
  else if x < 0.0 then some (-(((-x).toUInt64.toNat : Nat) : Int)) else some ((x.toUInt64.toNat : Nat) : Int)

/-- A finite value, or a free one where the spec states none (log entry 74). -/
def fFinite (s : State) (x : Float) : Float × State :=
  if x.isFinite then (x, s)
  else
    let (n, s) := s.draw
    (fNat n / 1000.0, s)

/-- A rounded value in a field of `w` bits, or a free one outside its range (log entry 74); `sgn` for a signed field. -/
def fField (s : State) (w : Nat) (sgn : Bool) (x : Float) : Nat × State :=
  let lo : Int := if sgn then -(2 ^ (w - 1) : Nat) + 1 else 0
  let hi : Int := if sgn then ((2 ^ (w - 1) : Nat) : Int) - 1 else ((2 ^ w : Nat) : Int) - 1
  match fToInt x.round with
  | some n => if lo ≤ n ∧ n ≤ hi then (unsigned w n, s) else
      let (k, s) := s.draw
      (k % 2 ^ w, s)
  | none =>
    let (k, s) := s.draw
    (k % 2 ^ w, s)

-- Distance (R286, R287) ----------------------------------------------------------------------------------------

/-- A hop is valid (R284). -/
def hopValid (s : State) (h : PrxHop) : Bool :=
  h.locked && !h.lost && ((h.reply.map fun r => decide (s.get F.prxThr1_minsnr ≤ r.2.1)).getD false)

/-- Phases of a band by frequency: kHz and the merged phase in rad, sorted by frequency. -/
def bandPoints (hs : List PrxHop) : List (Float × Float) :=
  let tab := hs.foldl (fun (t : List (Nat × List Float)) h =>
    match h.reply with
    | some r => sput t h.freq ((sget t h.freq).getD [] ++ [fNat r.1 / 1000000.0])
    | none => t) []
  tab.map fun x => (fNat x.1 * 1000.0, match x.2 with
    | [p] => p
    | ps => fCircMean ps)

/-- Unwrap: successive differences in (−π, π]. -/
def unwrapFrom : Float → List (Float × Float) → List (Float × Float)
  | _, [] => []
  | prev, (f, p) :: l => let q := prev + fWrapsym (p - prev); (f, q) :: unwrapFrom q l

def unwrapPts (l : List (Float × Float)) : List (Float × Float) :=
  match l with
  | [] => []
  | (f, p) :: l => (f, p) :: unwrapFrom p l

/-- The fit of one band: fref, w, a and dband. -/
def bandFit (l : List (Float × Float)) : Float × Float × Float × Float :=
  let fref := fMean (l.map fun x => x.1)
  let w := fSum (l.map fun x => (x.1 - fref) * (x.1 - fref))
  let sl := fSum (l.map fun x => (x.1 - fref) * x.2) / w
  (fref, w, fMean (l.map fun x => x.2), fC * sl / (4.0 * fPi))

/-- What R286 computes from the valid hops: dc, frac, draw, rms, the number of points, dband of both bands, λa, a[1] − a[0]
and fref[1] − fref[0]. -/
structure PrxFit where
  dc    : Float
  frac  : Float
  draw  : Float
  rms   : Float
  n     : Nat
  dbl   : Float
  dbh   : Float
  lam   : Float
  da    : Float
  df    : Float

def prxFit (s : State) (hs : List PrxHop) : PrxFit :=
  let lo := unwrapPts (bandPoints (hs.filter fun h => !h.high))
  let hi := unwrapPts (bandPoints (hs.filter fun h => h.high))
  let (f0, w0, a0, d0) := bandFit lo
  let (f1, w1, a1, d1) := bandFit hi
  let dc := (w0 * d0 + w1 * d1) / (w0 + w1)
  let lam := fC / (2.0 * (f1 - f0))
  let phofs := fNat (prxPhofs s) / 1000.0
  let dz := lam * fWrap (a1 - a0 - phofs) / fTau
  let x := (dc - dz) / lam
  let k := x.round
  let draw := dz + k * lam
  let res := fun (l : List (Float × Float)) =>
    let e := l.map fun p => p.2 - 4.0 * fPi * p.1 * draw / fC
    let phi := fCircMean e
    e.map fun v => let r := fWrapsym (v - phi); r * r
  { dc, frac := (x - k).abs, draw, rms := (fMean (res lo ++ res hi)).sqrt, n := lo.length + hi.length, dbl := d0, dbh := d1
    lam, da := a1 - a0, df := f1 - f0 }

-- Round trip (R288) ---------------------------------------------------------------------------------------------

/-- Insertion into a rising list, and the lower median. -/
def insInt (x : Int) : List Int → List Int
  | [] => [x]
  | y :: l => if x ≤ y then x :: y :: l else y :: insInt x l
def lowMedian (l : List Int) : Option Int := (l.foldr insInt [])[(l.length - 1) / 2]?

/-- The onset intervals of the hops with a reply tone, in ns. -/
def replyTimes (hs : List PrxHop) : List Int := hs.filterMap fun h =>
  if h.locked then h.reply.map fun r => (r.2.2 : Int) else none

/-- Ticks of an onset interval. -/
def rttTicks (s : State) (t : Int) : Int :=
  let x := t - 36000 - (s.get F.prxCal1_rttOfs : Int)
  max 0 (-((-x) / 50))

-- The LF check (R289, R290, R295) -----------------------------------------------------------------------------------

/-- The enabled PRX_LFCALn of a channel. -/
def lfcalOf (s : State) (ch : Nat) : Option Nat :=
  (List.range 4).find? fun n => s.on (F.prxLfcal_en n) && s.get (F.prxLfcal_ch n) == ch

/-- The reports of a key no older than LF_MAXAGE, newest first, each with its PRX_LFCALn. -/
def freshReports (s : State) (uid : List Byte) : List (PrxReport × Nat) :=
  (s.prx.reports.filter fun r => r.uid == uid && decide (s.now ≤ r.at_ + 1000 * s.get F.prxThr2_lfMaxage)).filterMap fun r =>
    (lfcalOf s r.ch).map fun n => (r, n)

/-- |A| squared. -/
def lfMag2 (r : PrxReport) : Nat :=
  let a := beNat (slice r.axes 0 2)
  let b := beNat (slice r.axes 2 2)
  let c := beNat (slice r.axes 4 2)
  a * a + b * b + c * c

/-- r_lo and r_hi of a report in cm. -/
def lfRange (s : State) (x : PrxReport × Nat) : Float × Float :=
  let q := fNat (s.get (F.prxLfcal_k x.2)) * (fNat (coilMa x.1.step) / 100.0) / (fNat (lfMag2 x.1)).sqrt
  (10.0 * q.cbrt, 10.0 * (2.0 * q).cbrt)

/-- A report is consistent with a distance in cm (R290). -/
def lfConsistent (s : State) (d : Float) (x : PrxReport × Nat) : Bool :=
  let (lo, hi) := lfRange s x
  let tol := fNat (prxLftol s) / 100.0
  let ofs := fNat (s.get (F.prxLfcal_ofs x.2))
  lfMag2 x.1 != 0 && (1.0 - tol) * lo - ofs <= d && d <= (1.0 + tol) * hi + ofs

/-- LF_DLO and LF_DHI of the newest report. -/
def lfBounds (s : State) (rs : List (PrxReport × Nat)) : Nat × Nat × State :=
  match rs with
  | [] => (0, 0, s)
  | x :: _ =>
    let (lo, hi) := lfRange s x
    let (a, s) := fField s 16 false lo
    let (b, s) := fField s 16 false hi
    (a, b, s)

-- Requests (R270–R273, R295, R297) ----------------------------------------------------------------------------------------

/-- The checks of R270 but for the directory. -/
def prxFormOk (cls : Nat) (d : List Byte) : Bool :=
  let hops := leAt d 8 1
  decide (cls < 3) && d.length == 16 && (hops == 0 || (decide (40 ≤ hops) && decide (hops ≤ 80) && hops % 2 == 0))
    && natBits (leAt d 9 1) 7 5 == 0 && natBits (leAt d 10 1) 7 2 == 0 && leAt d 11 1 == 0
    && ((leAt d 10 1).testBit 1 || leAt d 12 2 == 0) && leAt d 14 2 == 0

/-- A card verdict (R295). -/
def prxCard (s : State) (req : Req) (uid : List Byte) : State :=
  let ts := rfTstamp s
  let rs := freshReports s uid
  match rs with
  | [] =>
    let (v, st) := prxFuse 8
    prxVerdict s [req] { verdict := v, status := st, cause := 8, lfres := 3, flags := 1, ts, uid }
  | x :: _ =>
    let (lo, hi) := lfRange s x
    let bad := lfMag2 x.1 == 0 || lo < fNat (s.get F.prxThr2_cardmin)
    let (dlo, dhi, s) := lfBounds s rs
    let cause := if bad then 2 ^ 11 else 0
    let (v, st) := prxFuse cause
    let (sig, s) := if bad then (0xFFFF, s) else fField s 16 false ((hi - lo) / 2.0)
    prxVerdict s [req] { verdict := v, status := st, cause, dist := if bad then 0xFFFF else dhi, sigma := sig
                         lfres := (if bad then 2 else 1) + 4, dlo, dhi, flags := 1, ts, uid }

/-- The record of a refusal (R274): only REFUSED, with the bounds of the newest report (Table 8.9). -/
def prxRefusal (s : State) (d : List Byte) (status : Nat) : PrxRecord × State :=
  let uid := slice d 0 8
  let (dlo, dhi, s) := lfBounds s (freshReports s uid)
  ({ status, cause := 1, dlo, dhi, flags := 2 * natBits (leAt d 10 1) 1 1, ts := rfTstamp s, uid }, s)

/-- Another request for the sweep's key joins it (R273). -/
def prxJoin (s : State) (uid : List Byte) (req : Req) : Option State :=
  let mine := fun (it : RfItem) => it.kind == 7 && it.data.take 8 == uid
  let add := fun (it : RfItem) => { it with cls := min it.cls req.cls, reqs := it.reqs ++ [req] }
  match s.prx.cur with
  | some c =>
    if mine c.item then some (prxUpd s fun p => { p with cur := some { c with item := add c.item } })
    else if s.rf.queue.any mine then
      some (rfUpd s fun r => { r with queue := r.queue.map fun it => if mine it then add it else it })
    else none
  | none =>
    match s.prx.stalled with
    | some (it, ts, temp) =>
      if mine it then some (prxUpd s fun p => { p with stalled := some (add it, ts, temp) })
      else if s.rf.queue.any mine then
        some (rfUpd s fun r => { r with queue := r.queue.map fun it => if mine it then add it else it })
      else none
    | none =>
      if s.rf.queue.any mine then
        some (rfUpd s fun r => { r with queue := r.queue.map fun it => if mine it then add it else it })
      else none

/-- A request is taken (R270–R273): held until its lookup can be made (R483), refused, a card verdict, joined to a sweep, or queued. -/
def prxTake (s : State) (req : Req) (d : List Byte) : State :=
  let uid := slice d 0 8
  let refuse := fun (s : State) st => let (r, s) := prxRefusal s d st; prxAnswer s [req] r
  if !prxFormOk req.cls d then refuse s St.badDescriptor
  else if lookWaits s uid then prxUpd s fun p => { p with held := p.held ++ [(req, d)] }
  else
    let (i, s) := dirLook s uid
    let cls := leAt uid 0 1
    if i.isNone || !(cls == 1 || cls == 2) then refuse s St.badDescriptor
    else if (leAt d 10 1).testBit 1 && decide (2 ≤ s.get F.secStat_lc) then refuse s St.cfgReject
    else if cls = 2 then prxCard s req uid
    else match prxJoin s uid req with
      | some s => s
      | none => rfGo (rfEnqueue s req.cls 7 d req)

/-- SWEEP_REQUEST (R270): held while the block is stopped (R298). -/
def execPrxSweepRequest (req : Req) (payload : List Byte) (s : State) : Host.Outcome State Fault Refusal :=
  .next <|
    if noNewWork s 22 && decide (req.cls < 3) then prxUpd s fun p => { p with held := p.held ++ [(req, payload)] }
    else prxTake s req payload

/-- CONFIG_START (R298). -/
def prxRelease (s : State) : State :=
  let h := s.prx.held
  rfGo (h.foldl (fun s x => prxTake s x.1 x.2) (prxUpd s fun p => { p with held := [] }))

/-- Basin is ready or the directory loaded: lookups that waited are made (R483, R484). -/
def lookupsGoOn (s : State) : State :=
  let s := cldResume s
  let s := if noNewWork s 18 then s else cldRelease s
  if noNewWork s 22 then s else prxRelease s

/-- DIR_LOAD_END (R483). -/
def execDirLoadEnd (s : State) : Host.Outcome State Fault Refusal :=
  .next <| if s.dir.loadRun then lookupsGoOn (dirLoaded s) else s

-- Take-up (R274–R277, R285) ----------------------------------------------------------------------------------------------------

/-- Grid frequencies in kHz (R275). -/
def gridLow (s : State) (j : Nat) : Nat := s.get F.prxFl_fl + j * s.get F.prxStep_stepl
def gridHigh (s : State) (j : Nat) : Nat := s.get F.prxFh_fh + j * s.get F.prxStep_steph

/-- The hops of a request. -/
def sweepHops (s : State) (d : List Byte) : Nat := if leAt d 8 1 = 0 then prxHops s else leAt d 8 1

/-- The hop list before the shuffle (R276): frequency and whether it lies in the high band. -/
def hopList (s : State) (h : Nat) : List (Nat × Bool) :=
  (List.range (h / 2)).flatMap fun i => [(gridLow s (i % prxNl s), false), (gridHigh s (i % prxNh s), true)]

/-- The shuffle (R276): `n` steps, from index `n` down to 1, with the keystream's 16-bit words. -/
def hopShuffle : Nat → List Byte → List (Nat × Bool) → List (Nat × Bool)
  | 0, _, l => l
  | i + 1, ks, l =>
    let j := beNat (ks.take 2) % (i + 2)
    let a := l.getD (i + 1) (0, false)
    let b := l.getD j (0, false)
    hopShuffle i (ks.drop 2) ((l.set (i + 1) b).set j a)

/-- The bytes R276 and R280 use of a SWEEP_ID. -/
def sweepIdBytes (id : Nat) : List Byte := leBytes 4 id

/-- RK and the hop order (R276). -/
def sweepKey (k : List Byte) (id : Nat) (seed : List Byte) : List Byte :=
  aesEnc k ((['P', 'R', 'X', 'K'].map fun c => byte c.toNat) ++ sweepIdBytes id ++ seed ++ zeros 4)
def sweepOrder (s : State) (rk : List Byte) (id : Nat) (seed : List Byte) (h : Nat) : List (Nat × Bool) :=
  let ks := aesCtr (roundKeys rk) 128 (sweepIdBytes id ++ seed ++ zeros 8) (zeros (2 * h))
  hopShuffle (h - 1) ks (hopList s h)

/-- Transmit intervals of a sweep per admitting entry, in ms (R261, R285); none where START or a hop lies outside Table 7.1 or
outside every enabled entry with RANGING set (R227, R259). -/
def sweepCharges (s : State) (h : Nat) : Option (List (Nat × Nat)) :=
  let prof := s.get F.prxCtrl_profile
  let r := rfRate s prof
  let holder := fun (f half : Nat) => if (rfBand f).isSome && (rfEntry s 3 f half).isSome then rfEntry s 1 f half else none
  let start := (holder (s.get F.prxFh_fh) (rfHalf s 1 prof)).map fun e => (e, 16 * r + 8 * (rfPre s prof + 20) * 10000)
  let hops := (hopList s h).map fun x => (holder x.1 1).map fun e => (e, 32 * r)
  ((start :: hops).mapM id).map fun l =>
    (l.foldl (fun t x => sput t x.1 ((sget t x.1).getD 0 + x.2)) ([] : List (Nat × Nat))).map
      fun x => (x.1, (x.2 + 1000 * r - 1) / (1000 * r))

/-- A transmission of a sweep at the step requested (R230, R246, R257–R259). -/
def sweepTx (s : State) (step freq half : Nat) : RfTx :=
  let e := (rfEntry s 1 freq half).getD 0
  let step := min step (entMax s e)
  ⟨e, step, rfDrive s freq step, (entFlags s e).testBit 2⟩

/-- The grant of a sweep: RANGE at the highest step it uses (Table 20.4, log entry 132). -/
def sweepUnits (s : State) (step h : Nat) : Nat :=
  let start := sweepTx s step (s.get F.prxFh_fh) (rfHalf s 1 (s.get F.prxCtrl_profile))
  rfUnits 7 (((hopList s h).map fun x => (sweepTx s step x.1 1).step).foldl max start.step)

/-- The CLIP of a START or hop above its entry's MAXSTEP (R258, R259). -/
def prxClip (s : State) (step : Nat) (tx : RfTx) : State :=
  if tx.step < step then raise (s.bump F.rfCnt0_clip 1) 88 0 else s

/-- A CAL of RANGE that locks (R238, R249): its VCO code and its time, under 100 µs, are free values (log entry 131). -/
def calRange (s : State) (f : Nat) : State :=
  let (v, s) := s.draw
  let (u, s) := s.draw
  let s := (((s.set F.rfStat_locked 1).set F.rfCal_vco (v % 64)).set F.rfCal_calUs (u % 100)).set F.rfCal_attempts (u % 100 / 40 + 1)
  rfUpd (s.set F.rfFreq_freq f) fun x => { x with ant := rfAnt s f, lastFreq := some f }

/-- A CAL of RANGE that has not locked after 100 µs: the third attempt is abandoned with it (R239, R249). -/
def calMissed (s : State) (f : Nat) : State :=
  let s := ((s.set F.rfStat_locked 0).set F.rfCal_calUs 100).set F.rfCal_attempts 3
  rfUpd (s.set F.rfFreq_freq f) fun x => { x with ant := rfAnt s f, lastFreq := some f }
/-- A refusal at take-up (R274). -/
def prxRefuse (s : State) (it : RfItem) (status id ts : Nat) : State :=
  let (r, s) := prxRefusal s it.data status
  rfIdle (prxVerdict (prxUpd s fun p => { p with stalled := none }) it.reqs { r with sweepId := id, ts })

/-- After the checks, in RANGE: SEED and the masks of K, RK, the hop order and START's MAC (R300), then RK, the hop order,
Prepare and START (R276, R279, R280). -/
def prxBegin (s : State) (it : RfItem) (ts : Nat) (temp : Int) : State :=
  let id := s.get F.prxSweepid_id
  let uid := it.data.take 8
  let wait := fun (s : State) => prxUpd s fun p => { p with stalled := some (it, ts, temp) }
  match rngDraw s 3 4 with
  | .fatal => prxRefuse s it St.rngFatal id ts
  | .wait s => wait s
  | .bits seed s1 =>
    match maskDraws 4 s1 with
    | .fatal => prxRefuse s it St.rngFatal id ts
    | .wait s => wait s
    | .bits _ s =>
      let kc := ((dirSeek s uid).map fun i => leAt (dirEntry s i) 9 1).getD 0
      match cldKey s uid kc with
      | none => prxRefuse s it St.keyUnavailable id ts
      | some k =>
        let h := sweepHops s it.data
        let step := rqStep (0#8 :: slice it.data 8 2)
        let prof := s.get F.prxCtrl_profile
        let fh := s.get F.prxFh_fh
        let rk := sweepKey k id seed
        let grid := (List.range (prxNl s)).map (gridLow s) ++ (List.range (prxNh s)).map (gridHigh s)
        let s := grid.foldl (fun s f => if dcHit s f temp then s else dcUse s f temp) s
        let s := ((sweepCharges s h).getD []).foldl (fun s x => dutyCharge s x.1 x.2) s
        let tx := sweepTx s step fh (rfHalf s 1 prof)
        let s := prxClip s step tx
        let m := sweepIdBytes id ++ seed ++ [byte (s.get F.prxPlan_planVer)]
        let start := m ++ (cmac rk m).take 4
        let c : PrxSweep := { item := it, id, rk, hops := sweepOrder s rk id seed h, done := [], ts, start, tx, temp }
        let s := prxUpd s fun p => { p with cur := some c, stalled := none }
        rfUpd (calRange s fh) fun x => { x with air := rfPacket s prof start }

/-- The checks of Table 8.2, in order. -/
def prxTakeUp (s : State) (it : RfItem) (temp : Int) : State :=
  let ts := rfTstamp s
  let uid := it.data.take 8
  let charges := sweepCharges s (sweepHops s it.data)
  if !s.on F.prxCtrl_en || !s.on F.rfCtrl_en then prxRefuse s it St.portDown 0 ts
  else if txBarred s then prxRefuse s it St.regLimit 0 ts
  else if charges.isNone then prxRefuse (raise s 87 0) it St.regLimit 0 ts
  else if s.get F.prxSweepid_id = 2 ^ 32 - 1 then prxRefuse s it St.nonceExhausted 0 ts
  else
    let id := s.get F.prxSweepid_id + 1
    let s := keepTouch (s.set F.prxSweepid_id id)
    let kc := ((dirSeek s uid).map fun i => leAt (dirEntry s i) 9 1).getD 0
    if (cldKey s uid kc).isNone then prxRefuse s it St.keyUnavailable id ts
    else if s.on F.rngStat_fatal then prxRefuse s it St.rngFatal id ts
    else if (charges.getD []).any fun x => !dutyFits s x.1 x.2 then
      prxRefuse (dutyNote s) it St.dutyDeferred id ts
    else
      let units := sweepUnits s (rqStep (0#8 :: slice it.data 8 2)) (sweepHops s it.data)
      let s := arbPeak { s with ev := { s.ev with sysHeld := units } }
      prxBegin (s.set F.rfStat_state 7) it ts temp

/-- SWEEP_TAKE_UP (R276): `temp` is the die temperature in °C. -/
def execPrxSweepTakeUp (temp : Int) (s : State) : Host.Outcome State Fault Refusal :=
  .next <|
    match rfPick s with
    | some it =>
      if rfFree s && it.kind == 7 then
        prxTakeUp (rfUpd s fun r => { r with queue := r.queue.filter fun y => y.id != it.id }) it temp
      else s
    | none => s

/-- A take-up that waited for its draws goes on (R359, R361), and one that has waited 2 ms ends (R360, R362). -/
def prxResume (s : State) : State :=
  match s.prx.stalled with
  | some (it, ts, temp) => prxBegin s it ts temp
  | none => s
def prxStall (s : State) : State :=
  match s.prx.stalled with
  | some (it, ts, _) => prxRefuse s it St.timeout (s.get F.prxSweepid_id) ts
  | none => s

-- Hops (R281–R284) ------------------------------------------------------------------------------------------------------------------

/-- CONFIRM's CAL on FH and its RXSETTLE (Table 8.5), once the last hop has ended. -/
def prxListen (s : State) (c : PrxSweep) : State :=
  let fh := s.get F.prxFh_fh
  dcUse (calRange s fh) fh c.temp

/-- HOP (R281): whether CAL locked within 100 µs, the step of Table 8.7 in which lock was lost (3 or 7; 0: none), and of a reply
tone its phase ψ in µrad, its SNR in dB and the onset interval in ns. A loss in step 3 ends the hop before RXSETTLE. -/
def execPrxHop (locked : Bool) (lost : Nat) (reply : Option (Nat × Nat × Nat)) (s : State) : Host.Outcome State Fault Refusal :=
  .next <|
    match s.prx.cur with
    | none => s
    | some c =>
      match c.hops with
      | [] => s
      | (f, hi) :: rest =>
        let step := natBits (leAt c.item.data 9 1) 4 0
        let tx := sweepTx s step f 1
        let h : PrxHop := { freq := f, high := hi, locked, lost := locked && lost != 0, tx := if locked then some tx else none
                            reply := if locked && lost != 3 then reply else none }
        let c := { c with hops := rest, done := c.done ++ [h] }
        let s := prxUpd s fun p => { p with cur := some c }
        let s := if locked then
            let s := prxClip (calRange s f) step tx
            let s := if lost = 3 then s else dcUse s f c.temp
            s.setB F.rfStat_locked (lost == 0)
          else (calMissed s f).bump F.prxCnt1_nolock 1
        if rest.isEmpty then prxListen s c else s

-- Verdict (R291–R294, R296) ------------------------------------------------------------------------------------------------------------

/-- A cause bit. -/
def causeIf (b : Bool) (i : Nat) : Nat := if b then 2 ^ i else 0

/-- The checks of Table 8.8 and the record. `confirm` is the CONFIRM payload received with a valid CRC. -/
def prxJudge (s : State) (c : PrxSweep) (confirm : Option (List Byte)) : PrxRecord × State :=
  let uid := c.item.data.take 8
  let valid := c.done.filter (hopValid s)
  let nl := (valid.filter fun h => !h.high).length
  let nh := (valid.filter fun h => h.high).length
  let few := decide (nl < prxMinhops s) || decide (nh < prxMinhops s)
  let lfReq := (leAt c.item.data 10 1).testBit 0
  let calib := (leAt c.item.data 10 1).testBit 1
  let rtts := replyTimes c.done
  let rttb := lowMedian (rtts.map (rttTicks s))
  let rs := freshReports s uid
  let r0 : PrxRecord :=
    { nvl := nl, nvh := nh, nolock := (c.done.filter fun h => !h.locked).length, flags := 2 * b2n calib, sweepId := c.id
      ts := c.ts, uid, rttb := (rttb.map fun t => min 254 t.toNat).getD 0xFF }
  let (dlo, dhi, s) := lfBounds s rs
  let r0 := { r0 with dlo, dhi }
  let auth := match confirm with
    | some b => b != leBytes 2 c.id ++ (cmac c.rk ((['C', 'O', 'N', 'F'].map fun x => byte x.toNat) ++ sweepIdBytes c.id)).take 4
    | none => false
  let rttMax : Int := s.get F.prxThr1_rttMax
  let lf0 := if rs.isEmpty then 3 else 0
  if few then
    let cause := if calib then 2 else 2 + causeIf (lfReq && rs.isEmpty) 3 + causeIf confirm.isNone 4
      + causeIf ((rttb.map fun t => decide (rttMax < t)).getD false) 10 + causeIf auth 12
    let (v, st) := prxFuse cause
    ({ r0 with verdict := v, status := st, cause, lfres := if calib then 0 else lf0 }, s)
  else
    let fit := prxFit s valid
    let (dc, s) := fFinite s fit.dc
    let (frac, s) := fFinite s fit.frac
    let (draw, s) := fFinite s fit.draw
    let (rms, s) := fFinite s fit.rms
    let (dbl, s) := fFinite s fit.dbl
    let (dbh, s) := fFinite s fit.dbh
    let (lam, s) := fFinite s fit.lam
    let d := let x := draw - fInt (signed 16 (s.get F.prxCal0_dofs)) / 100.0
             if x < 0.0 then 0.0 else x
    let sigma := let a := fNat (s.get F.prxCal1_sigfloor)
                 let b := 100.0 * lam / fTau * rms * 2.0 / (fNat fit.n).sqrt
                 if a < b then b else a
    let (sig, s) := fField s 16 false sigma
    let (dbl16, s) := fField s 16 true (100.0 * dbl)
    let (dbh16, s) := fField s 16 true (100.0 * dbh)
    let resid := ((fToInt (1000.0 * rms).round).map fun n => min 0xFFFF n.toNat).getD 0xFFFF
    let r0 := { r0 with sigma := sig, resid, dbl := dbl16, dbh := dbh16 }
    if calib then
      let ref := leAt c.item.data 12 2
      let rnd := (100.0 * dc).round
      let (dofs, s) := fField s 16 true (rnd - fNat ref)
      let (da, s) := fFinite s fit.da
      let (df, s) := fFinite s fit.df
      let ph := fWrap (da - 4.0 * fPi * df * (rnd / 100.0) / fC)
      let t := (lowMedian rtts).getD 0
      let ofs := (fInt t - 36000.0 - 2.0 * (fNat ref / 100.0) / fC * 1.0e9).floor
      let (rofs, s) := fField s 16 false ofs
      let s := (s.set F.prxCal0_dofs dofs).set F.prxCal0_phofs (min 6283 ((fToInt (1000.0 * ph).round).getD 0).toNat)
      ({ r0 with verdict := 0, status := St.ok, dist := ref }, s.set F.prxCal1_rttOfs rofs)
    else
      let bound := (rttb.map fun t => 7.5 * (fInt t + 1.0)).getD 0.0
      let lfBad := rs.any fun x => !lfConsistent s (100.0 * d) x
      let cause := causeIf (frac > fNat (s.get F.prxThr0_maxfrac) / 256.0) 2
        + causeIf (lfReq && rs.isEmpty) 3 + causeIf confirm.isNone 4
        + causeIf (rms > fNat (s.get F.prxThr0_maxres) / 1000.0) 8
        + causeIf ((dbl - dbh).abs > fNat (s.get F.prxThr1_bandtol) / 100.0) 9
        + causeIf (rttb.isSome && ((rttb.map fun t => decide (rttMax < t)).getD false || d > bound)) 10
        + causeIf lfBad 11 + causeIf auth 12
      let (v, st) := prxFuse cause
      let (dist, s) := fField s 16 false (100.0 * d)
      let lfres := if rs.isEmpty then 3 else (if lfBad then 2 else 1) + 4 * min 3 rs.length
      ({ r0 with verdict := v, status := st, cause, dist, lfres }, s)

/-- The sweep ends with its verdict; the MAC check of a CONFIRM takes its masks (R300). -/
def prxFinish (s : State) (c : PrxSweep) (confirm : Option (List Byte)) : State :=
  let (r, s) := prxJudge (if confirm.isSome then maskTake 1 s else s) c confirm
  rfIdle (prxVerdict (prxUpd s fun p => { p with cur := none }) c.item.reqs r)

/-- The sweep in its CONFIRM phase. -/
def prxConfirming (s : State) : Option PrxSweep := s.prx.cur.filter fun c => c.hops.isEmpty

/-- CONFIRM_RECEIVED (R280, R291): a packet on FH, as the bytes after SYNC. Without lock nothing is received (R241); one that fails
its CRC is discarded and counted (R235). -/
def execPrxConfirmReceived (frame : List Byte) (s : State) : Host.Outcome State Fault Refusal :=
  .next <| match prxConfirming s with
    | none => s
    | some c =>
      if !s.on F.rfStat_locked then s
      else match rfPayload frame with
        | some b => prxFinish s c (some b)
        | none => s.bump F.rfCnt1_crcerr 1

/-- CONFIRM_TIMEOUT (R291). -/
def execPrxConfirmTimeout (s : State) : Host.Outcome State Fault Refusal :=
  .next <| match prxConfirming s with
    | some c => prxFinish s c none
    | none => s

-- Commands and the start --------------------------------------------------------------------------------------------------------------------

/-- The settings of record 0x0008 that a start restores. -/
def prxWords : List Nat :=
  [W.prxCtrl, W.prxPlan, W.prxFl, W.prxFh, W.prxStep, W.prxThr0, W.prxThr1, W.prxThr2, W.prxCal0, W.prxCal1]
    ++ (List.range 4).map W.prxLfcal

/-- PRX_CMD.SAVE (Table 8.10). -/
def prxSaveOp (s : State) (src : Src) : State :=
  (nvSubmit s (.record recProx (wordsBytes s ((List.range 20).map fun k => 0x5800 + 4 * k))) false false (srcPort src) .none).2
def execPrxSave (src : Src) (s : State) : Host.Outcome State Fault Refusal := .next (prxSaveOp s src)

/-- PRX_CMD.CLR_CNT. -/
def execPrxClrCnt (s : State) : Host.Outcome State Fault Refusal :=
  .next ((s.setW W.prxCnt0 0#32).setW W.prxCnt1 0#32)

/-- The start: the settings of record 0x0008, and PRX_SWEEPID advanced by 4,096 (R277). -/
def prxStart (s : State) : State :=
  let s := match recSelect s recProx with
    | some r => prxWords.foldl (fun (s : State) w => s.setW w (BitVec.ofNat 32 (leAt r.payload (w - 0x5800) 4))) s
    | none => s
  keepTouch (s.set F.prxSweepid_id (min (2 ^ 32 - 1) (s.get F.prxSweepid_id + 4096)))

end Sys2Proof.Machine
end

