-- ==== Sys2Proof/Machine/Nv.lean ====
section
/-! DEFINITION. The NV store's requests (11_nv_store.md): direct reads and writes, user records, settings, block
protect, scrubbing and the end of a page write. What follows a finished request is in NvDone.lean. -/

namespace Sys2Proof.Machine

/-- Replace the NV store's state. -/
def nvUpd (s : State) (f : Nv → Nv) : State := { s with nv := f s.nv }

-- Records (R393, R394) --------------------------------------------------------------------------------

/-- Note what a record read found (Table 11.6): RECORD for no record or a conflict. -/
def recNote (s : State) (r : Option RecSel) : State :=
  match r with
  | none => raise s 84 0
  | some x => if x.conflict then raise (s.bump F.nvCnt_conflict 1) 84 0 else s

/-- Rewrite the copy that was not selected (R394): whether a rewrite was queued. -/
def recRepair (s : State) (d : RecDesc) (x : RecSel) : Bool × State :=
  if x.repair then nvSubmit s (.copy d (!x.copyB) x.seq x.payload) false true (recPort d.id) .none else (false, s)

/-- A device record's first read since the start (R394): its payload. -/
def recLoad (s : State) (d : RecDesc) : Option (List Byte) × State :=
  let r := recSelect s d
  let s := recNote s r
  match r with
  | none => (none, s)
  | some x =>
    if s.nv.repaired.contains d.id then (some x.payload, s)
    else (some x.payload, (recRepair (nvUpd s fun n => { n with repaired := d.id :: n.repaired }) d x).2)

-- Direct accesses (R375) --------------------------------------------------------------------------------

/-- A host or firmware write lies in the user region, the only range open to both (Table 11.1). -/
def nvOpen (addr len : Nat) : Bool := decide (0x40000 ≤ addr) && decide (addr + len ≤ 0x50000)

/-- The pages a range touches include the page being written (R384). -/
def nvPageBusy (s : State) (addr len : Nat) : Bool :=
  match s.nv.cur with
  | none => false
  | some c => decide (addr < 128 * c.page + 128) && decide (128 * c.page < addr + len)

/-- A read of a record's copies meets the page being written (R384). -/
def recBusy (s : State) (d : RecDesc) : Bool :=
  nvPageBusy s d.addrA (128 * recPages d.len) || nvPageBusy s d.addrB (128 * recPages d.len)

-- Register commands (R405, R406) --------------------------------------------------------------------------

/-- End a register command. -/
def nvRegEnd (s : State) (status : Nat) : State :=
  let s := (s.set F.nvResult_status status).wrapInc F.nvResult_seq
  nvUpd (s.set F.nvResult_valid 1) fun n => { n with cmd := none }

/-- End a register read with its data. -/
def nvRegData (s : State) (status : Nat) (data : List Byte) : State :=
  nvRegEnd (loadWords s ((List.range 32).map W.nvRbuf) (fit 128 data)) status

/-- What a record read selected, in NV_RESULT and NV_RECSEQ. -/
def nvRegSel (s : State) (x : RecSel) (repaired : Bool) : State :=
  let s := (s.setB F.nvResult_copyB x.copyB).setB F.nvResult_conflict x.conflict
  (s.setB F.nvResult_repaired repaired).setW W.nvRecseq (BitVec.ofNat 32 x.seq)

/-- Carry out the register command in progress, unless it has to wait for a page or for the store to restart. -/
def nvRegRun (s : State) : State :=
  match s.nv.cmd with
  | none => s
  | some c =>
    if noNewWork s 28 then nvUpd s fun n => { n with held := n.held ++ [.reg] }
    else
      let d := userDesc s c.desc
      let lenOk := decide (1 ≤ c.len) && decide (c.len ≤ 128)
      let wait := nvUpd s fun n => { n with waitRead := n.waitRead ++ [.reg] }
      if c.op = 0 then
        if !lenOk || 0x100000 < c.addr + c.len then nvRegEnd s St.badDescriptor
        else if nvPageBusy s c.addr c.len then wait
        else nvRegData s St.ok (memRead s.nv.cells c.addr c.len)
      else if c.op = 1 then
        if !lenOk then nvRegEnd s St.badDescriptor
        else if !nvOpen c.addr c.len then nvRegEnd (s.bump F.nvCnt_refused 1) St.nvProtected
        else
          let (ok, s) := nvSubmit s (.raw c.addr (fit c.len c.buf)) false false c.src (.regCmd false c.desc)
          if ok || nvHoldup s then s else nvRegEnd s St.nvProtected
      else if !userDescOk d || !lenOk then nvRegEnd s St.badDescriptor
      else if c.op = 2 then
        if d.len < c.addr + c.len then nvRegEnd s St.badDescriptor
        else if recBusy s d then wait
        else
          let r := recSelect s d
          let s := recNote s r
          match r with
          | none => nvRegEnd s St.nvNoRecord
          | some x =>
            let (rep, s) := recRepair s d x
            nvRegData (nvRegSel s x rep) St.ok (slice x.payload c.addr c.len)
      else if c.addr ≠ 0 ∨ c.len ≠ d.len then nvRegEnd s St.badDescriptor
      else
        let (ok, s) := nvSubmit s (.record d (fit c.len c.buf)) false false c.src (.regCmd true c.desc)
        if ok || nvHoldup s then s else nvRegEnd s St.nvProtected

/-- A write of NV_CMD with READ, WRITE, REC_READ or REC_WRITE (R405, R406). -/
def nvRegCmd (s : State) (op : Nat) (src : Src) : State :=
  if s.nv.cmd.isSome then s.set F.nvStat_overrun 1
  else
    let s := (((s.set F.nvStat_overrun 0).set F.nvResult_valid 0).set F.nvResult_copyB 0).set F.nvResult_conflict 0
    let s := loadWords (s.set F.nvResult_repaired 0) ((List.range 32).map W.nvRbuf) (zeros 128)
    let c : NvCmd := ⟨op, srcPort src, s.get F.nvAddr_addr, s.get F.nvXfer_len, s.get F.nvXfer_desc,
      wordsBytes s ((List.range 32).map W.nvWbuf)⟩
    nvRegRun (nvUpd s fun n => { n with cmd := some c })

-- Frame requests (R407) --------------------------------------------------------------------------------------

/-- The completion of an NV frame request. -/
def nvFrameAnswer (s : State) (req : Req) (status copy flags seq len : Nat) (data : List Byte) : State :=
  complete s 15 28 req 0x07 ([byte status, byte copy, byte flags, 0#8] ++ leBytes 4 seq ++ leBytes 4 len ++ data)

/-- The form of a frame request (R407), with the limits of R405 that hold for it. -/
def nvFrameOk (s : State) (req : Req) (op : Nat) (d : List Byte) : Bool :=
  let addr := leAt d 4 4
  let len := leAt d 8 4
  let desc := userDesc s (leAt d 1 1)
  (req.cls == 1 || req.cls == 2) && decide (16 ≤ d.length) && leAt d 0 1 == op
  && decide (leAt d 1 1 < 8) && slice d 2 2 == zeros 2 && slice d 12 4 == zeros 4
  && decide (1 ≤ len) && decide (len ≤ 4096)
  && d.length == 16 + (if op = 2 ∨ op = 4 then len else 0)
  && (if op = 1 then decide (addr + len ≤ 0x100000)
      else if op = 2 then true
      else userDescOk desc && (if op = 3 then decide (addr + len ≤ desc.len) else addr == 0 && len == desc.len))

/-- Carry out a frame request, unless it has to wait. -/
def nvFrameRun (s : State) (req : Req) (op : Nat) (d : List Byte) : State :=
  let addr := leAt d 4 4
  let len := leAt d 8 4
  let k := leAt d 1 1
  let desc := userDesc s k
  let wait := nvUpd s fun n => { n with waitRead := n.waitRead ++ [.frame req op d] }
  if noNewWork s 28 then nvUpd s fun n => { n with held := n.held ++ [.frame req op d] }
  else if !nvFrameOk s req op d then nvFrameAnswer s req St.badDescriptor 0 0 0 len []
  else if op = 1 then
    if nvPageBusy s addr len then wait else nvFrameAnswer s req St.ok 0 0 0 len (memRead s.nv.cells addr len)
  else if op = 2 then
    if !nvOpen addr len then nvFrameAnswer (s.bump F.nvCnt_refused 1) req St.nvProtected 0 0 0 len []
    else
      let (ok, s) := nvSubmit s (.raw addr (slice d 16 len)) false false req.port (.frame req op len k)
      if ok || nvHoldup s then s else nvFrameAnswer s req St.nvProtected 0 0 0 len []
  else if op = 3 then
    if recBusy s desc then wait
    else
      let r := recSelect s desc
      let s := recNote s r
      match r with
      | none => nvFrameAnswer s req St.nvNoRecord 0 0 0 len []
      | some x =>
        let (rep, s) := recRepair s desc x
        nvFrameAnswer s req St.ok (b2n x.copyB) (b2n x.conflict + 2 * b2n rep) x.seq len (slice x.payload addr len)
  else
    let (ok, s) := nvSubmit s (.record desc (slice d 16 len)) false false req.port (.frame req op len k)
    if ok || nvHoldup s then s else nvFrameAnswer s req St.nvProtected 0 0 0 len []

/-- Serve reads that waited, or requests held while the store was stopped. -/
def nvServe (s : State) (ws : List NvWaitRead) : State :=
  ws.foldl (fun s w => match w with
    | .reg => nvRegRun s
    | .frame req op d => nvFrameRun s req op d) s

/-- The store restarts: queued and held requests run (R408). -/
def nvRetry (s : State) : State :=
  let ws := s.nv.held
  nvServe (nvKick (nvUpd s fun n => { n with held := [] })) ws

/-- A write of NV_CMD with another bit: ignored while a command is pending (R406). -/
def nvCmdGate (s : State) (f : State → State) : State :=
  if s.nv.cmd.isSome then s.set F.nvStat_overrun 1 else f (s.set F.nvStat_overrun 0)

-- The end of a page write (R377, R378, R380) -----------------------------------------------------------------------

/-- The page write in progress ends, with step 4 (`none`), or after a second mismatch with the page as found. Answers the
request that ends with it and its status. -/
def nvPageEnd (s : State) (found : Option (List Byte)) : Option (NvJob × Nat) × State :=
  match s.nv.cur with
  | none => (none, s)
  | some c =>
    let data := match found with
      | none => c.data
      | some b => fit 128 b
    let s := nvUpd s fun n => { n with cells := memWrite n.cells (128 * c.page) data, cur := none }
    let s := match found with
      | none => nvUpd s fun n => { n with incomplete := n.incomplete.filter (· != c.page), torn := n.torn.filter (· != c.page) }
      | some _ => s
    if c.orphan then (none, s)
    else
      let q := if c.custody then s.nv.cust else s.nv.ord
      match q with
      | [] => (none, s)
      | j :: rest =>
        let pop := fun (s : State) => nvUpd s fun n => if c.custody then { n with cust := rest } else { n with ord := rest }
        let left := j.pages.drop 1
        if found.isSome then (some (j, St.nvTorn), pop s)
        else if left.isEmpty then (some (j, St.ok), pop s)
        else (none, nvSetHead s c.custody { j with pages := left })

-- Settings (R399, R793) ------------------------------------------------------------------------------------------------

/-- The words of record 0x0001: NV_PROT, NV_CTRL, NV_SCRUBLAST and the descriptors. -/
def recNvWords : List Nat :=
  [W.nvProt, W.nvCtrl, W.nvScrublast] ++ (List.range 8).flatMap fun n => [W.nvRecdA n, W.nvRecdB n, W.nvRecdCfg n]

/-- The words of record 0x0045 (R793), with the mask of the fields it holds. -/
def recSysWords : List (Nat × W32) :=
  [(W.pmMode, 0x7#32), (W.pmCtrl, 0xFFFFFF07#32), (W.pmWakeen, 0x0003FFFC#32), (W.pmLsncfg, 0x0FFFFFFF#32),
   (W.pmLsnmaskLo, 0xFFFFFFFF#32), (W.pmLsnmaskHi, 0xFFFF#32), (W.pmLsnrf, 0xFFFFFFFF#32), (W.pmHoldcap, 0x03FF0000#32),
   (W.clkCtrl, 0xC#32), (W.dirCtrl, 0xFFFF#32), (W.vioDest, 0x1FF#32), (W.vioMtrcfg, 0x3FFFF#32),
   (W.vioCanCfg 0, 0x3F#32), (W.vioCanSid 0, 0x9FFFFFFF#32), (W.vioCanRid 0, 0x9FFFFFFF#32),
   (W.vioCanCfg 1, 0x3F#32), (W.vioCanSid 1, 0x9FFFFFFF#32), (W.vioCanRid 1, 0x9FFFFFFF#32),
   (W.vioGpcfg0, 0xFF#32), (W.vioGpcfg1, 0xFFFFFFFF#32), (W.secTampcfg, 0xFF#32), (W.cphCtrl, 0xFF0F#32),
   (W.plCtrl, 0x7F07#32), (W.ivcCtrl, 0x1#32)]

/-- The payload of record 0x0045. -/
def recSysBytes (s : State) : List Byte := recSysWords.flatMap fun x => leBytes 4 (s.getW x.1 &&& x.2).toNat

/-- Load the fields of record 0x0045. -/
def recSysLoad (s : State) (b : List Byte) : State :=
  (List.range 24).foldl (fun s i =>
    let x := recSysWords.getD i (0, 0#32)
    let w := BitVec.ofNat 32 (leAt b (4 * i) 4)
    s.setW x.1 ((s.getW x.1 &&& ~~~ x.2) ||| (w &&& x.2))) s

/-- NV_CMD.SAVE_CFG (R793): record 0x0001, and after it record 0x0045. -/
def nvSaveCfgOp (s : State) (src : Src) : State :=
  (nvSubmit s (.record recNv (wordsBytes s recNvWords)) false false (srcPort src) (.saveCfg)).2

/-- NV_PROT.BP is written (R399): a raise takes effect at once and is saved under the level in force before it; a lowering
takes effect only in BLANK and PROVISIONED. -/
def nvProtOp (s : State) (own : Bool) (src : Src) (bp : Nat) : State :=
  let old := s.get F.nvProt_bp
  if old < bp then
    let payload := wordsBytes (s.set F.nvProt_bp bp) recNvWords
    ((nvSubmit s (.record recNv payload) false own (if own then 15 else srcPort src) .none).2).set F.nvProt_bp bp
  else if bp < old then
    if s.get F.secStat_lc ≤ 1 then s.set F.nvProt_bp bp else cfgReject s src W.nvProt
  else s

-- Scrubbing (R400–R402) ---------------------------------------------------------------------------------------------------

/-- A pass may run: POLL or RUN, and SCRUB_EN set (R402). -/
def scrubRuns (s : State) : Bool :=
  (s.get F.pmStat_current == 5 || s.get F.pmStat_current == 6) && s.on F.nvCtrl_scrubEn

/-- A pass starts, unless one is in progress; whether it may run is another matter. Its position is part of the keep set. -/
def scrubStart (s : State) : State :=
  if s.on F.nvStat_scrubbing then s
  else keepTouch (((s.set F.nvStat_scrubbing 1).set F.nvScrubpos_page 0).set F.nvScrubpos_weak 0)

/-- The pass has done its current page: the next one that is not listed as torn, or the end of the pass (R401, R402). -/
def scrubAdvance : Nat → State → State
  | 0, s => s
  | n + 1, s =>
    let p := s.get F.nvScrubpos_page
    if p = 8191 then
      let s := (keepTouch ((s.set F.nvScrubpos_page 0).set F.nvStat_scrubbing 0)).setW W.nvScrublast (BitVec.ofNat 32 s.rtcSec)
      raise (nvOwn s (.record recNv (wordsBytes s recNvWords)) false 15 .none) 85 0
    else
      let s := keepTouch (s.set F.nvScrubpos_page (p + 1))
      if s.nv.torn.contains (p + 1) then scrubAdvance n s else s

/-- A refresh is queued or being written. -/
def scrubQueued (s : State) : Bool := s.nv.ord.any fun j => match j.kind with
  | .refresh _ => true
  | _ => false

-- The commands --------------------------------------------------------------------------------------------------------------

/-- NV_READ (R405). -/
def execNvRead (src : Src) (s : State) : Host.Outcome State Fault Refusal := .next (nvRegCmd s 0 src)
/-- NV_WRITE (R405). -/
def execNvWrite (src : Src) (s : State) : Host.Outcome State Fault Refusal := .next (nvRegCmd s 1 src)
/-- NV_REC_READ (R405). -/
def execNvRecRead (src : Src) (s : State) : Host.Outcome State Fault Refusal := .next (nvRegCmd s 2 src)
/-- NV_REC_WRITE (R392, R405). -/
def execNvRecWrite (src : Src) (s : State) : Host.Outcome State Fault Refusal := .next (nvRegCmd s 3 src)
/-- NV_FRAME_READ (R407). -/
def execNvFrameRead (req : Req) (data : List Byte) (s : State) : Host.Outcome State Fault Refusal := .next (nvFrameRun s req 1 data)
/-- NV_FRAME_WRITE (R407). -/
def execNvFrameWrite (req : Req) (data : List Byte) (s : State) : Host.Outcome State Fault Refusal := .next (nvFrameRun s req 2 data)
/-- NV_FRAME_REC_READ (R407). -/
def execNvFrameRecRead (req : Req) (data : List Byte) (s : State) : Host.Outcome State Fault Refusal := .next (nvFrameRun s req 3 data)
/-- NV_FRAME_REC_WRITE (R407). -/
def execNvFrameRecWrite (req : Req) (data : List Byte) (s : State) : Host.Outcome State Fault Refusal := .next (nvFrameRun s req 4 data)

/-- SCRUB_NOW (R402). -/
def execNvScrubNow (s : State) : Host.Outcome State Fault Refusal := .next (nvCmdGate s scrubStart)
/-- NV_CLR_CNT (R409). -/
def execNvClrCnt (s : State) : Host.Outcome State Fault Refusal := .next (nvCmdGate s fun s => s.setW W.nvCnt 0#32)
/-- SAVE_CFG (R793). -/
def execNvSaveCfg (src : Src) (s : State) : Host.Outcome State Fault Refusal := .next (nvCmdGate s fun s => nvSaveCfgOp s src)
/-- NV_PROT_WRITE (R399). -/
def execNvProtWrite (src : Src) (bp : Nat) (s : State) : Host.Outcome State Fault Refusal :=
  .next (nvProtOp s false src (bp % 4))

/-- SCRUB_DUE (R402): the RTC has reached NV_SCRUBLAST + 31,536,000 s. -/
def execNvScrubDue (s : State) : Host.Outcome State Fault Refusal :=
  .next <| if s.get F.nvScrublast_last + 31536000 ≤ s.rtcSec then scrubStart s else s

/-- SCRUB_PAGE (R400): the next page is margin-read, with `weak` weak words, and written back. -/
def execNvScrubPage (weak : Nat) (s : State) : Host.Outcome State Fault Refusal :=
  .next <|
    if !s.on F.nvStat_scrubbing || !scrubRuns s || scrubQueued s then s
    else
      let s := s.bump F.nvScrubpos_weak weak
      let s := if s.nv.torn.contains (s.get F.nvScrubpos_page) then scrubAdvance 8192 s else s
      if !s.on F.nvStat_scrubbing then s
      else nvOwn s (.refresh (s.get F.nvScrubpos_page)) false 15 .scrub

end Sys2Proof.Machine
end

