-- ==== Sys2Proof/Machine/Passport.lean ====
section
/-! DEFINITION. The passport tag (06_passport_tag.md): its field side as a LONG-profile tag (R193–R203), the paged memory
and its write transaction (R205–R212), the arbitration of both sides (R216–R220) and the wired commands (R221–R225). -/

namespace Sys2Proof.Machine

/-- Replace the tag's state. -/
def ptUpd (s : State) (f : Pt → Pt) : State := { s with pt := f s.pt }

/-- The device is powered, so that the tag's registers stand beside the header image (R194). -/
def ptPowered (s : State) : Bool := s.get F.pmStat_current != 0

/-- The registers stand: the device has started. Until then, and while it is off, the tag goes by what NV holds. -/
def ptRegs (s : State) : Bool := s.on F.clkStat_cfgDone

/-- The tag answers the field: PT_CFG.FIELD_EN, from the header image until the registers stand. -/
def ptAnswers (s : State) : Bool := if ptRegs s then s.on F.ptCfg_fieldEn else (ptHdrCfg s).testBit 0

/-- NV_PROT.BP as a field WRITE meets it (R212): from record 0x0001 until the registers stand (R399). -/
def ptBp (s : State) : Nat :=
  if ptRegs s then s.get F.nvProt_bp
  else match recSelect s recNv with
    | some r => leAt r.payload 0 1 % 4
    | none => s.get F.nvProt_bp

-- The memory (Table 6.4) -----------------------------------------------------------------------------

/-- The address of a slot of a page. -/
def ptSlotAddr (p : Nat) (slot1 : Bool) : Nat :=
  if p < 96 then (if slot1 then 0x5E680 else 0x5E080) + 16 * p
  else (if slot1 then 0x5EC80 else 0x5F000) + 16 * (p - 96)

/-- The commit cells A and B as 128-bit masks. -/
def ptCellsA (s : State) : Nat := leNat (memRead s.nv.cells 0x5E010 16)
def ptCellsB (s : State) : Nat := leNat (memRead s.nv.cells 0x5E020 16)

/-- The current slot of a page: slot A's value. -/
def ptSlot (s : State) (p : Nat) : Bool := bitOf (ptCellsA s) p

/-- A page's content (Table 6.2). -/
def ptPage (s : State) (p : Nat) : List Byte :=
  if p = 0 then ptUid s ++ [128#8, 16#8] ++ zeros 6 else memRead s.nv.cells (ptSlotAddr p (ptSlot s p)) 16

/-- Resolve the commit pairs once after a loss of power (R208, R209): a disagreeing pair goes back to its old value, which
is cell B's, and the header page is whole again. -/
def ptResolve (s : State) : State :=
  if s.pt.resolved then s
  else
    let a := ptCellsA s
    let b := ptCellsB s
    let n := ((List.range 128).filter fun p => bitOf a p != bitOf b p).length
    let page := 0x5E000 / 128
    let s := nvUpd s fun v => { v with
      cells := memWrite v.cells 0x5E010 (leBytes 16 b)
      incomplete := v.incomplete.filter (· != page), torn := v.torn.filter (· != page) }
    ptUpd (s.set F.ptStat_restored (min 255 n)) fun t => { t with resolved := true }

/-- The 48 bytes of the header after a transaction: PT_CFG and PT_MBOX images, commit cells A and B (R206, R225). -/
def ptHeader (s : State) (t : PtTxn) : List Byte :=
  let cfg := if t.op = 2 then
      b2n (s.on F.ptCfg_fieldEn) + 4 * b2n (s.on F.ptCfg_hvEn) + 8 * b2n (s.on F.ptCfg_hvLevel)
    else ptHdrCfg s
  let mbox := if ptRegs s then s.get F.ptMbox_fwritten else ptHdr s 4 4
  let mbox := if t.who = 2 ∧ 96 ≤ t.page then setBit mbox (t.page - 96) else mbox
  let a := t.pages.foldl (fun a p => if bitOf a p.1 then clrBit a p.1 else setBit a p.1) (ptCellsA s)
  leBytes 4 cfg ++ leBytes 4 mbox ++ [1#8] ++ zeros 7 ++ leBytes 16 a ++ leBytes 16 a

-- The air side ---------------------------------------------------------------------------------------------

/-- The tag answers a frame, with the CRC of R152, keeping the copy of R161. -/
def ptSay (s : State) (frame resp : List Byte) : State :=
  ptUpd s fun t => { t with lastF := frame, lastR := airFrame resp, air := airFrame resp }

/-- A STATUS alone. -/
def ptStatus (s : State) (frame : List Byte) (st : Nat) : State := ptSay s frame [byte st]

/-- The MAC of R174 under this tag's SK and CNT. -/
def ptMac (s : State) (bs : List Byte) : List Byte := cldMac s.pt.sk s.pt.cnt bs

/-- A secured command carried out (R174, R175). -/
def ptSecured (s : State) (frame data : List Byte) : State :=
  let body := 0#8 :: data
  ptUpd (ptSay s frame (body ++ ptMac s body)) fun t => { t with cnt := t.cnt + 1 }

/-- A standard frame of opcode `op` as the tag takes it: without its CRC, none when it fails R153. -/
def ptFrame (frame : List Byte) (op len : Nat) : Option (List Byte) :=
  (airBody frame).filter fun b => b.length == len && leAt b 0 1 == op

/-- An addressed frame reaches a tag in HALTED, OPEN or SECURED with its handle; HALTED becomes OPEN (Table 5.4). A retry
is answered from the copy (R161), a frame that fails R153 is discarded, and while a transaction of its own is under way the
tag hears nothing. -/
def ptHear (s : State) (frame : List Byte) (op len : Nat) (f : State → List Byte → State) : State :=
  match ptFrame frame op len with
  | none => s
  | some b =>
    if !ptAnswers s || s.pt.st < 2 || leAt b 1 1 != s.pt.handle || ptHold s then s
    else if b == s.pt.lastF then ptUpd s fun t => { t with air := t.lastR }
    else f (if s.pt.st = 2 then ptUpd s fun t => { t with st := 3 } else s) b

/-- The counter is exhausted (R176). -/
def ptExhausted (s : State) (frame : List Byte) : State := ptStatus (ptUpd s fun t => { t with st := 2 }) frame 2

/-- A field READ (R199, R217, Table 6.2). -/
def ptFieldRead (s : State) (frame : List Byte) : State :=
  let p := leAt frame 2 1
  let sec := s.pt.st == 4
  if sec && s.pt.cnt == 0xFFFF then ptExhausted s frame
  else if sec && ptMac s (frame.take 3) != frame.drop 3 then ptStatus s frame 5
  else if 127 < p then ptStatus s frame 3
  else if p = 1 ∨ (!sec && decide (16 ≤ p)) then ptStatus s frame 2
  else if s.pt.run.any fun t => t.hdr then ptUpd s fun t => { t with waitRead := some frame }
  else
    let s := s.bump F.ptCnt_fieldtx 1
    if sec then ptSecured s frame (ptPage s p) else ptSay s frame (0#8 :: ptPage s p)

-- Transactions (R206, R216–R219) -----------------------------------------------------------------------------

/-- The end of a wired command (R221). -/
def ptResult (s : State) (status : Nat) : State :=
  ptUpd (((s.set F.ptResult_valid 1).set F.ptResult_status status).wrapInc F.ptResult_seq) fun t => { t with cmd := false }

/-- What a transaction's end brings its side: 0 the ledger, 1 PT_CMD, unless a hold-up has cut it off (R211), 2 the field. -/
def ptReport (s : State) (t : PtTxn) (status : Nat) : State :=
  if t.who = 1 then
    if !s.pt.cmd then s
    else
    let s := if t.op = 0 then loadWords s ((List.range 4).map W.ptRdata) (ptPage s t.page) else s
    ptResult s status
  else if t.who = 2 then
    let s := s.bump F.ptCnt_fieldtx 1
    if s.pt.st ≠ 4 then s else if status = St.ok then ptSecured s t.frame [] else ptStatus s t.frame 6
  else s

/-- A step of a transaction: the next slot, or the header write of step 3; a refused write ends it. Reads end at once. -/
def ptStep (s : State) (t : PtTxn) : Option Nat × State :=
  let submit := fun (s : State) (addr : Nat) (d : List Byte) (t : PtTxn) =>
    let s := ptUpd s fun x => { x with run := some t }
    match nvSubmit s (.raw addr d) true (t.who != 1) t.src (.pt t.id) with
    | (true, s) => (none, s)
    | (false, s) => (some St.nvProtected, s)
  if t.op = 0 then (some St.ok, s)
  else match t.left with
    | (p, d) :: rest => submit s (ptSlotAddr p (!ptSlot s p)) d { t with left := rest }
    | [] => submit s 0x5E000 (ptHeader s t) { t with hdr := true }

/-- Run the waiting transactions until one has a page write under way (R216, R219). -/
def ptRun : Nat → State → State
  | 0, s => s
  | n + 1, s =>
    if s.pt.run.isSome then s
    else match s.pt.queue with
      | [] => s
      | t :: rest =>
        match ptStep (ptUpd s fun x => { x with queue := rest }) t with
        | (none, s) => s
        | (some st, s) => ptRun n (ptReport (ptUpd s fun x => { x with run := none }) t st)

/-- Queue a transaction in order of arrival. -/
def ptQueue (s : State) (t : PtTxn) : State :=
  let s := ptUpd s fun x => { x with queue := x.queue ++ [{ t with id := x.nextId }], nextId := x.nextId + 1 }
  ptRun (s.pt.queue.length + 1) s

/-- The running transaction has ended: its side is told, a waiting READ is answered, the next one runs. -/
def ptFinish (s : State) (t : PtTxn) (status : Nat) : State :=
  let s := ptReport (ptUpd s fun x => { x with run := none }) t status
  let s := match s.pt.waitRead with
    | some f => ptFieldRead (ptUpd s fun x => { x with waitRead := none }) f
    | none => s
  ptRun (s.pt.queue.length + 1) s

/-- A page write of transaction `id` has ended with a status (R206): NV_TORN ends it, as does a slot that reads back
otherwise; after step 3 the mailbox bit shows (R225). -/
def ptPageDone (s : State) (id status : Nat) : State :=
  match s.pt.run with
  | none => s
  | some t =>
    if t.id ≠ id then s
    else if status ≠ St.ok then ptFinish s t St.nvTorn
    else if t.hdr then
      let s := if t.who = 2 ∧ 96 ≤ t.page then
          raise (s.set F.ptMbox_fwritten (setBit (s.get F.ptMbox_fwritten) (t.page - 96))) 121 0 else s
      ptFinish s t St.ok
    else if t.left.isEmpty ∧ !(t.pages.all fun p => memRead s.nv.cells (ptSlotAddr p.1 (!ptSlot s p.1)) 16 == fit 16 p.2) then
      ptFinish s t St.nvTorn
    else match ptStep s t with
      | (none, s) => s
      | (some st, s) => ptFinish s t st

/-- The ledger's transaction of R204: device status, the latest report, or a closing statement's pages. -/
def ptLedgerTxn (s : State) (pages : List (Nat × List Byte)) : State :=
  ptQueue s { id := 0, who := 0, op := 1, page := 2, src := 15, pages, left := pages, hdr := false, frame := [] }

/-- Six pages of 16 bytes from page `p`. -/
def pages16 (p : Nat) (b : List Byte) : List (Nat × List Byte) :=
  (List.range (b.length / 16)).map fun i => (p + i, slice b (16 * i) 16)

/-- Pages 2 and 3 (Table 6.3), page 3 as the save found it. -/
def ptStatusPages (s : State) : List (Nat × List Byte) := pages16 2 (devIdentity s ++ fit 16 s.led.page3)

-- Wired commands (R221–R224) ------------------------------------------------------------------------------------

/-- Carry out a wired command (R201, R212, R218). -/
def ptCmdRun (s : State) (t : PtTxn) : State :=
  let p := t.page
  if t.op ≠ 2 ∧ (p = 1 ∨ 127 < p) then ptResult s St.badDescriptor
  else if t.op = 1 ∧ (p < 4 ∨ (16 ≤ p ∧ p < 46)) then ptResult s St.nvProtected
  else if t.op ≠ 0 ∧ s.get F.nvProt_bp = 3 then ptResult (s.bump F.nvCnt_refused 1) St.nvProtected
  else if ptHold s then
    let s := s.bump F.ptCnt_busy 1
    if s.on F.ptCfg_hostwait then ptQueue s t else ptResult s St.nvBusyField
  else ptQueue s t

/-- A write of PT_CMD: 0 READ, 1 WRITE, 2 SAVE_CFG (R221–R224). -/
def ptCmdOp (s : State) (src : Src) (op page : Nat) : State :=
  if s.pt.cmd then s.set F.ptStat_overrun 1
  else
    let s := loadWords ((s.set F.ptStat_overrun 0).set F.ptResult_valid 0) ((List.range 4).map W.ptRdata) (zeros 16)
    let data := if op = 1 then [(page, wordsBytes s ((List.range 4).map W.ptWdata))] else []
    let t : PtTxn := { id := 0, who := 1, op, page, src := srcPort src, pages := data, left := data, hdr := false, frame := [] }
    let s := ptUpd s fun x => { x with cmd := true }
    if noNewWork s 30 then ptUpd s fun x => { x with held := some t } else ptCmdRun s t

/-- A held command runs at CONFIG_START (R224). -/
def ptRelease (s : State) : State :=
  match s.pt.held with
  | none => s
  | some t => ptCmdRun (ptUpd s fun x => { x with held := none }) t

/-- HOLDUP and device reset (R210, R211): wired transactions in steps 1 and 2 or queued are abandoned; a header write
completes with its page. -/
def ptAbandon (s : State) : State :=
  ptUpd s fun x => { x with run := x.run.filter fun t => t.hdr, queue := [], held := none, cmd := false }

/-- PT_CFG and PT_MBOX from the header image, and the MAILBOX flag (R225). -/
def ptLoad (s : State) : State :=
  let s := ptResolve s
  let c := ptHdrCfg s
  let s := ((s.setB F.ptCfg_fieldEn (c.testBit 0)).setB F.ptCfg_hvEn (c.testBit 2)).setB F.ptCfg_hvLevel (c.testBit 3)
  let s := s.set F.ptMbox_fwritten (ptHdr s 4 4)
  if ptHdr s 4 4 = 0 then s else raise s 121 0

-- The commands ------------------------------------------------------------------------------------------------------

/-- FIELD_ON (R193, R179): Vpk has risen above VACT. -/
def execPtFieldOn (s : State) : Host.Outcome State Fault Refusal :=
  .next <|
    if s.pt.field then s
    else
      let s := ptResolve s
      let s := ptUpd s fun t => { t with field := true, st := 1, round := 0, slot := none, replied := false, chal := none
                                         rejects := 0, cnt := 0, lastF := [], lastR := [], air := [], fast := false }
      if ptPowered s then raise s 120 0 else s

/-- `old` with the bits of `new` under a free mask: each bit either. -/
def mixNat (mask old new : Nat) : Nat := old ^^^ (mask &&& (old ^^^ new))

/-- The record tag a write cut off in its step 1 leaves: the old one, the new one, or each bit of either (Table 11.3); a blank
header reads as zeros. -/
def tagCut (s : State) (old new : Option RecTag) : Option RecTag × State :=
  let (x, s) := s.draw
  if x % 3 = 0 then (old, s)
  else if x % 3 = 1 then (new, s)
  else
    let o := old.getD ⟨0, 0, 0, 0⟩
    let n := new.getD o
    let (a, s) := s.drawBytes 2
    let (b, s) := s.drawBytes 2
    let (c, s) := s.drawBytes 4
    let (d, s) := s.drawBytes 4
    (some ⟨mixNat (leNat a) o.id n.id, mixNat (leNat b) o.len n.len, mixNat (leNat c) o.seq n.seq, mixNat (leNat d) o.crc n.crc⟩, s)

/-- The page write under way is cut off by loss of power (R379, Table 11.3), at a free point: in step 1, where the content is old
and the tag free; at word k of step 2, which is free; in step 3; or in step 4, before or after INCOMPLETE is cleared. -/
def nvCut (s : State) : State :=
  match s.nv.cur with
  | none => s
  | some c =>
    let (x, s) := s.draw
    let p := x % 35
    let old := memRead s.nv.cells (128 * c.page) 128
    let off := fun (s : State) => nvUpd s fun v => { v with cur := none, ord := [], cust := [] }
    if p = 0 then
      match c.tag with
      | none => off s
      | some _ =>
        let (t, s) := tagCut s c.was c.tag
        off (nvUpd s fun v => { v with tags := match t with
          | some t => sput v.tags c.page t
          | none => sdel v.tags c.page })
    else if p ≤ 32 then
      let k := p - 1
      let (w, s) := s.drawBytes 4
      let mix := List.zipWith (fun (o : Byte × Byte) (m : Byte) => (o.1 &&& ~~~ m) ||| (o.2 &&& m))
        ((slice old (4 * k) 4).zip (slice c.data (4 * k) 4)) w
      off (nvUpd s fun v => { v with cells := memWrite v.cells (128 * c.page) ((c.data.take (4 * k) ++ mix ++ old.drop (4 * k + 4)).take 128) })
    else
      let s := nvUpd s fun v => { v with cells := memWrite v.cells (128 * c.page) c.data }
      off (if p = 33 then s else nvUpd s fun v => { v with
        incomplete := v.incomplete.filter (· != c.page), torn := v.torn.filter (· != c.page) })

/-- A loss of power cuts off the page write under way and the tag's transaction; the commit pairs are resolved again (R208–R210). -/
def ptCut (s : State) : State :=
  match s.nv.cur with
  | none => s
  | some _ => ptUpd (nvCut s) fun t => { t with run := none, resolved := false }

/-- FIELD_OFF (R147, R210): POWER_OFF; a field transaction in its steps 1 and 2 is abandoned, and a tag that lives on the
field alone loses the page write under way. -/
def execPtFieldOff (s : State) : Host.Outcome State Fault Refusal :=
  .next <|
    if !s.pt.field then s
    else
      let s := if ptPowered s then s else ptCut s
      let s := ptUpd s fun t => { t with
        field := false, hv := false, st := 0, slot := none, replied := false, chal := none, sk := [], lastF := [], lastR := []
        air := [], waitRead := none, run := t.run.filter fun x => x.who != 2 || x.hdr, queue := t.queue.filter fun x => x.who != 2 }
      if ptPowered s then ptRun (s.pt.queue.length + 1) (raise s 120 0) else s

/-- HV_THRESHOLD (R213): Vpk crosses VHV. -/
def execPtHvThreshold (above : Bool) (s : State) : Host.Outcome State Fault Refusal :=
  .next (ptUpd s fun t => { t with hv := above && t.field })

/-- WAKE (R195): no effect. -/
def execPtWake (s : State) : Host.Outcome State Fault Refusal := .next s

/-- The open slot is the one drawn: the slot reply carries the UID (R162, R164). -/
def ptReply (s : State) : State :=
  if s.pt.st = 1 ∧ s.pt.slot = some s.pt.cur then ptUpd s fun t => { t with replied := true, air := airFrame (ptUid s) }
  else ptUpd s fun t => { t with replied := false, air := [] }

/-- FIELD_CENSUS (R164): a READY tag that matches the class filter draws a free slot number; it answers at the fast rate when
FLAGS bit 0 asks for it (R150). -/
def execPtFieldCensus (frame : List Byte) (s : State) : Host.Outcome State Fault Refusal :=
  .next <| match ptFrame frame 0x10 6 with
  | none => s
  | some b =>
    if !ptAnswers s || s.pt.st == 0 then s
    else
      let flags := leAt b 1 1
      let cls := natBits flags 7 4
      let s := ptUpd s fun t => { t with round := t.round + 1, cur := 0, slot := none, replied := false, air := [] }
      if s.pt.st ≠ 1 ∨ !(cls == 0 || cls == 4) then s
      else
        let (x, s) := s.draw
        ptReply (ptUpd s fun t => { t with slot := some (x % 16), fast := flags.testBit 0 })

/-- MARK (R164): the next slot opens; the sixteenth closes the round. -/
def ptMarkOp (s : State) : State :=
  if !ptAnswers s || s.pt.st == 0 then s
  else if 15 ≤ s.pt.cur then ptUpd s fun t => { t with cur := 16, slot := none, replied := false, air := [] }
  else ptReply (ptUpd s fun t => { t with cur := t.cur + 1 })
def execPtMark (s : State) : Host.Outcome State Fault Refusal := .next (ptMarkOp s)

/-- MARK_ACK (R160): after its own valid reply the tag keeps handle 16 × (round − 1) + slot. -/
def execPtMarkAck (s : State) : Host.Outcome State Fault Refusal :=
  .next <|
    if !ptAnswers s then s
    else if s.pt.st = 1 ∧ s.pt.replied = true then
      ptMarkOp (ptUpd s fun t => { t with st := 2, handle := (16 * (t.round - 1) + t.cur) % 256 })
    else ptMarkOp s

/-- DROP (R160). -/
def execPtFieldDrop (frame : List Byte) (s : State) : Host.Outcome State Fault Refusal :=
  .next <|
    if ptAnswers s && decide (2 ≤ s.pt.st) && (ptFrame frame 0x11 2).any fun b => leAt b 1 1 == s.pt.handle then
      ptUpd s fun t => { t with st := 1, slot := none, replied := false, chal := none, lastF := [], lastR := [], air := [] }
    else s

/-- FIELD_READ (R217): opcode, handle, page, and in SECURED the MAC. -/
def execPtFieldRead (frame : List Byte) (s : State) : Host.Outcome State Fault Refusal :=
  .next (ptHear s frame 0x20 (if s.pt.st = 4 then 7 else 3) ptFieldRead)

/-- FIELD_WRITE (R178, R202, R206, R207, R212); `vwr` says that Vpk is at VWR or above. -/
def execPtFieldWrite (frame : List Byte) (vwr : Bool) (s : State) : Host.Outcome State Fault Refusal :=
  .next <| ptHear s frame 0x21 23 fun s frame =>
    let p := leAt frame 2 1
    if s.pt.st ≠ 4 then ptStatus s frame 2
    else if s.pt.cnt = 0xFFFF then ptExhausted s frame
    else if ptMac s (frame.take 19) ≠ frame.drop 19 then ptStatus s frame 5
    else if p < 2 ∨ 127 < p then ptStatus s frame 3
    else if p < 96 ∨ ptBp s = 3 then ptStatus s frame 2
    else if !vwr && !ptPowered s then ptStatus s frame 6
    else
      let data := [(p, slice frame 3 16)]
      ptQueue s { id := 0, who := 2, op := 1, page := p, src := 15, pages := data, left := data, hdr := false, frame }

/-- FIELD_KEY_LOAD (R195): answered PARAM. -/
def execPtFieldKeyLoad (frame : List Byte) (s : State) : Host.Outcome State Fault Refusal :=
  .next <| ptHear s frame 0x22 22 fun s frame =>
    if s.pt.st = 4 ∧ s.pt.cnt = 0xFFFF then ptExhausted s frame else ptStatus s frame 3

/-- FIELD_AUTH_A (R168, R199): RB is a free value of the tag's own generator. -/
def execPtFieldAuthA (frame : List Byte) (s : State) : Host.Outcome State Fault Refusal :=
  .next <| ptHear s frame 0x30 10 fun s frame =>
    if s.pt.st = 4 then ptStatus s frame 2
    else if 3 ≤ s.pt.rejects then ptStatus s frame 4
    else match s.pt.kp with
      | none => ptStatus s frame 2
      | some k =>
        let ra := slice frame 2 8
        let (rb, s) := s.drawBytes 8
        let x := aesEnc k (ra ++ rb)
        ptSay (ptUpd s fun t => { t with chal := some (ra, rb) }) frame (0#8 :: rb ++ x.take 8)

/-- FIELD_AUTH_B (R170): the right TA secures the tag, a wrong one halts it (REJECT). -/
def execPtFieldAuthB (frame : List Byte) (s : State) : Host.Outcome State Fault Refusal :=
  .next <| ptHear s frame 0x31 10 fun s frame =>
    if s.pt.st = 4 then ptStatus s frame 2
    else if 3 ≤ s.pt.rejects then ptStatus s frame 4
    else
      let ok := match s.pt.kp, s.pt.chal with
        | some k, some (ra, rb) =>
          let y := aesEnc k (rb ++ ra)
          if y.take 8 = slice frame 2 8 then some (aesEnc k (slice (aesEnc k (ra ++ rb)) 8 8 ++ slice y 8 8)) else none
        | _, _ => none
      match ok with
      | some sk => ptStatus (ptUpd s fun t => { t with st := 4, sk, cnt := 0, chal := none }) frame 0
      | none => ptStatus (ptUpd s fun t => { t with st := 2, rejects := t.rejects + 1, chal := none }) frame 1

/-- FIELD_REPORT_CMD (R195): answered PARAM. -/
def execPtFieldReportCmd (frame : List Byte) (s : State) : Host.Outcome State Fault Refusal :=
  .next <| ptHear s frame 0x40 6 fun s frame =>
    if s.pt.st = 4 ∧ s.pt.cnt = 0xFFFF then ptExhausted s frame else ptStatus s frame 3

/-- PT_KEY_LOAD (R198): KP from the installed domain key and the epoch of the change, or cleared cells. -/
def execPtKeyLoad (s : State) : Host.Outcome State Fault Refusal :=
  .next <| match s.pt.kpDue with
    | none => s
    | some epoch => ptUpd s fun t => { t with
        kpDue := none, kp := s.cph.domain.map fun k => kdf k (kdfLabel "LSSR" "CLDP" (ptUid s ++ zeros 8) epoch) 128 }

/-- PT_CMD READ (R221). -/
def execPtCmdRead (src : Src) (page : Nat) (s : State) : Host.Outcome State Fault Refusal := .next (ptCmdOp s src 0 page)
/-- PT_CMD WRITE (R221). -/
def execPtCmdWrite (src : Src) (page : Nat) (s : State) : Host.Outcome State Fault Refusal := .next (ptCmdOp s src 1 page)
/-- PT_CMD SAVE_CFG (R226). -/
def execPtSaveCfg (src : Src) (s : State) : Host.Outcome State Fault Refusal := .next (ptCmdOp s src 2 0)

end Sys2Proof.Machine
end

