-- ==== Sys2Proof/Machine/Sec.lean ====
section
/-! DEFINITION. Security and lifecycle (21_security_lifecycle.md R705–R724): the lifecycle from its fuses, the security
commands with their authorisations, lessor domain keys, firmware installs, and the tamper latches. Commands run one at a
time, in arrival order (log entry 81). -/

namespace Sys2Proof.Machine

def secUpd (s : State) (f : Sec → Sec) : State := { s with sec := f s.sec }

-- Lifecycle (R707–R710) --------------------------------------------------------------------------------------------

/-- The lifecycle code of the fuses (R707). -/
def lcOf (k : Nat) (retired : Bool) : Nat :=
  if retired then 4 else if k < 2 then k else if k % 2 = 0 then 2 else 3

/-- SEC_STAT shows the fuses (R707). -/
def lcShow (s : State) : State :=
  (s.set F.secStat_lc (lcOf s.sec.k s.sec.retired)).set F.secStat_transfers ((s.sec.k - 2) / 2)

/-- Blow the fuse of a transition: the code, the debug level's end (R725), and the decommission cause on entry to TRANSFER
or RETIRED (R709). -/
def lcBlow (s : State) (retire : Bool) : State :=
  let s := secUpd s fun x => if retire then { x with retired := true } else { x with k := x.k + 1 }
  let s := (lcShow s).set F.secStat_dbgLevel 0
  if s.get F.secStat_lc = 3 ∨ s.get F.secStat_lc = 4 then kPut s K.decom 1 1 else s

-- Completions (R711) -------------------------------------------------------------------------------------------------

/-- SEC_FW.STATUS takes the code of an install command. -/
def secFwNote (s : State) (op status : Nat) : State := if 0x14 ≤ op ∧ op ≤ 0x17 then s.set F.secFw_status status else s

/-- Answer a command: a completion, or the debug port's reply. -/
def secAnswer (s : State) (w : SecWait) (status : Nat) : State :=
  let op := leAt w.data 0 1
  let s := secFwNote s op status
  match w.req with
  | some r => complete s 15 40 r 0x41 [byte status, byte op, 0#8, 0#8]
  | none => secUpd s fun x => { x with dbg := [byte status] }

/-- The command under way ends with a status. -/
def secEnd (s : State) (status : Nat) : State :=
  match s.sec.queue with
  | [] => s
  | w :: ws => secAnswer (secUpd s fun x => { x with queue := ws, busy := false }) w status

/-- The command under way makes its last write; refused by block protect, it ends with `refused`. -/
def secWrite (s : State) (k : NvKind) (own : Bool) (step status refused : Nat) : State :=
  let port := match s.sec.queue with
    | w :: _ => (w.req.map fun r => r.port).getD 12
    | [] => 15
  match nvSubmit s k false own port (.sec step status) with
  | (true, s) => s
  | (false, s) => secEnd s refused

-- The security record (R714) -------------------------------------------------------------------------------------------

/-- Record 0x0044: AUTHSEQ at 0, NEWKEY at 8, the higher AUTHSEQ wins. -/
def recSec : RecDesc := ⟨0x0044, 32, 0x57600, 0x57680, true, 0, 8⟩

def recSecBytes (s : State) : List Byte :=
  fit 32 (leBytes 4 (s.getW W.secAuthseqLo).toNat ++ leBytes 4 (s.getW W.secAuthseqHi).toNat ++ [byte (s.get F.secStat_newkey)])

-- Lessor domain keys (R712–R714) ---------------------------------------------------------------------------------------

/-- The installed key's store has completed (R714, R315): copy A decides. -/
def secInstalled (s : State) (status copyA epoch : Nat) (key : List Byte) : State :=
  if copyA ≠ St.ok then secEnd s status
  else
    let s := s.setW W.secEpoch (BitVec.ofNat 32 epoch)
    let s := (s.setW W.secAuthseqLo 0#32).setW W.secAuthseqHi 0#32
    let s := keepTouch ((s.setW W.vioStsctr 0#32).setW W.vioReqctr 0#32)
    let s := if s.get F.secStat_lc = 3 then s.set F.secStat_newkey 1 else s
    let s := cphRun (domainChanged s (some key) epoch)
    secWrite s (.record recSec (recSecBytes s)) true 1 status status

/-- KEY_INSTALL once its masks are drawn (R712, R713). -/
def secKeyRun (s : State) (p : List Byte) : State :=
  let epoch := leAt p 8 4
  let store := fun (key : List Byte) =>
    let req := match s.sec.queue with
      | w :: _ => w.req.getD ⟨8, 0, 0, 1, 0, false⟩
      | [] => ⟨8, 0, 0, 1, 0, false⟩
    match domainStore s req true 0 epoch key with
    | (true, s) => s
    | (false, s) => secEnd s St.nvProtected
  if leAt p 4 1 = 0 then store (slice p 16 32)
  else
    let tk := kdf (s.cph.domain.getD []) (kdfLabel "LSSR" "XFER" (devIdentity s) epoch) 256
    match keyUnwrap tk (slice p 16 40) with
    | some key => store key
    | none => secEnd s St.authFail

/-- KEY_INSTALL's conditions (R712, R713). -/
def secKeyOk (s : State) (p : List Byte) : Bool :=
  let lc := s.get F.secStat_lc
  let epoch := leAt p 8 4
  if leAt p 4 1 = 0 then lc == 1 && s.cph.domain.isNone && decide (1 ≤ epoch)
  else (lc == 1 || lc == 2 || lc == 3) && s.cph.domain.isSome && decide (s.get F.secEpoch_epoch < epoch)

-- Authorisations (R715–R717) ---------------------------------------------------------------------------------------------

/-- Step 1 of Table 21.5, over the 48 bytes of Table 21.4. -/
def authFormOk (s : State) (a : List Byte) : Bool :=
  let op := leAt a 1 1
  let level := leAt a 2 1
  leAt a 0 1 == 1 && decide (1 ≤ op) && decide (op ≤ 4) && (if op = 4 then level == 1 || level == 2 else level == 0)
    && leAt a 3 1 == 0 && leAt a 28 4 == 0 && slice a 4 16 == devIdentity s

/-- An enabled tamper input is active (R724). -/
def tamperActive (s : State) : Bool := (s.get F.secTamp_level &&& s.get F.secTampcfg_en) != 0

/-- Empty every latch and remove the tamper force cause (R724, R32). -/
def tamperClearOp (s : State) : State := kPut (kPut (s.set F.secTamp_latch 0) K.tamper 1 0) K.tampIn 1 0

/-- The conditions of step 6. -/
def authOpOk (s : State) (a : List Byte) : Bool :=
  let lc := s.get F.secStat_lc
  match leAt a 1 1 with
  | 1 => lc == 2 && decide (s.sec.k ≤ 14)
  | 2 => lc == 1 || lc == 2 || lc == 3
  | 3 => !tamperActive s
  | _ => !(lc == 4 && leAt a 2 1 == 2)

/-- A passport transaction of the ledger is queued or under way (R204). -/
def ledPagesDue (s : State) : Bool := (s.pt.run.any fun t => t.who == 0) || s.pt.queue.any fun t => t.who == 0

/-- The ledger's closing has ended (R710): a retirement freezes NV (R399), then the command completes. Closing 3 is the one
a start finishes. -/
def secClosed (s : State) : State :=
  let c := s.sec.closing
  let retire := c == 2
  let s := secUpd s fun x => { x with closing := 0 }
  if c = 3 then nvProtOp s true .fw 3
  else if !retire ∨ s.get F.nvProt_bp = 3 then secEnd s St.ok
  else
    let payload := wordsBytes (s.set F.nvProt_bp 3) recNvWords
    (secWrite s (.record recNv payload) true 1 St.ok St.ok).set F.nvProt_bp 3

/-- A checkpoint or a passport transaction has ended; the closing waits for the last one. -/
def secCkptDone (s : State) : State :=
  if s.sec.closing ≠ 0 ∧ !s.led.closing ∧ !s.on F.ledStat_ckptBusy ∧ !ledPagesDue s then secClosed s else s

/-- Steps 6 and 7 of Table 21.5. -/
def authCarry (s : State) (a : List Byte) : State :=
  if !authOpOk s a then secEnd s St.cfgReject
  else match leAt a 1 1 with
    | 1 => secCkptDone (ledClose (secUpd (lcBlow s false) fun x => { x with closing := 1 }))
    | 2 => secCkptDone (ledClose (secUpd (lcBlow s true) fun x => { x with closing := 2 }))
    | 3 => secEnd (tamperClearOp s) St.ok
    | _ => secEnd (s.set F.secStat_dbgLevel (leAt a 2 1)) St.ok

/-- Steps 4 and 5, with the masks drawn; AUTHSEQ is saved before step 6 is judged (R717). -/
def authRun (s : State) (a : List Byte) : State :=
  let mac := match lessorKey s "LCAU" with
    | some k => cmac k (a.take 32)
    | none => []
  let seq := leAt a 20 8
  if mac ≠ slice a 32 16 then secEnd s St.authFail
  else if seq ≤ get64 s W.secAuthseqLo W.secAuthseqHi then secEnd s St.tokenReplay
  else
    let s := set64 s W.secAuthseqLo W.secAuthseqHi seq
    match nvSubmit s (.record recSec (recSecBytes s)) false true 15 (.sec 0 0) with
    | (true, s) => s
    | (false, s) => authCarry s a

-- Firmware images (R718–R722) ---------------------------------------------------------------------------------------------

/-- LEN is valid (Table 21.6). -/
def fwLenOk (n : Nat) : Bool := decide (4 ≤ n) && decide (n ≤ 262016) && n % 4 == 0

/-- The first 96 bytes of a header are well formed (Table 21.6, R719). -/
def fwHdrOk (s : State) (h : List Byte) : Bool :=
  let len := leAt h 4 4
  let entry := leAt h 8 4
  let flags := leAt h 17 1
  h.take 4 == [0x49#8, 0x56#8, 0x46#8, 0x32#8] && fwLenOk len
    && entry % 2 == 0 && decide (0x300C0080 ≤ entry) && decide (entry ≤ 0x300C0080 + len - 2)
    && decide (leAt h 16 1 ≤ 64) && decide (flags < 8) && slice h 18 14 == zeros 14
    && (!flags.testBit 1 || !s.sec.intkey.isEmpty)

/-- The image bytes in the NV store. -/
def fwImage (s : State) (len : Nat) : List Byte := memRead s.nv.cells 0xC0080 len

/-- The seal of a header and its image (R674). -/
def fwSeal (s : State) (h : List Byte) : List Byte := cmac (rootKey s "FWSL" 0) (h.take 96 ++ fwImage s (leAt h 4 4))

/-- The header is well formed and its seal matches (R674, R676). -/
def fwSealed (s : State) (h : List Byte) : Bool := fwHdrOk s h && fwSeal s h == slice h 96 16

/-- SEC_FWVER: the installed header's VERSION, 0 when none. -/
def fwVersion (s : State) : State :=
  let h := memRead s.nv.cells 0xC0000 128
  s.setW W.secFwver (if fwHdrOk s h then BitVec.ofNat 32 (leAt h 12 4) else 0#32)

/-- The signature verifies (R719). -/
def fwSigOk (s : State) (h : List Byte) : Bool :=
  let pub := if (leAt h 17 1).testBit 1 then s.sec.intkey else (List.range 64).map fun i => byte (Config.oltumKey i)
  ecdsaVerify pub (sha256 (h.take 32 ++ fwImage s (leAt h 4 4))) (slice h 32 64)

/-- The preconditions of FW_BEGIN and FW_RESEAL (R720, R722); `none` when they hold. -/
def fwBarred (s : State) (len : Nat) : Option Nat :=
  if s.get F.nvProt_bp ≠ 0 then some St.nvProtected
  else if (s.on F.ivcCtrl_run && !s.sec.recovery) || !fwLenOk len then some St.cfgReject
  else none

/-- The checks of FW_COMMIT step 3. -/
def fwCheck (s : State) (h : List Byte) : Option Nat :=
  if !fwHdrOk s h then some St.badDescriptor
  else if !fwSigOk s h then some St.authFail
  else if leAt h 16 1 < s.get F.secStat_fwSvn then some St.cfgReject
  else none

/-- The SVN fuses are blown up to a level (R720). -/
def svnRaise (s : State) (n : Nat) : State :=
  let s := secUpd s fun x => { x with svn := max x.svn n }
  s.set F.secStat_fwSvn s.sec.svn

/-- FW_COMMIT and FW_RESEAL with their masks drawn: check, blow, write the sealed header in one page write. -/
def fwSealRun (s : State) (commit : Bool) (h : List Byte) : State :=
  if !s.on F.secStat_rootOk then secEnd s St.keyUnavailable
  else match fwCheck s h with
    | some st => secEnd s st
    | none =>
      let s := if commit && (leAt h 17 1).testBit 2 then svnRaise s (leAt h 16 1) else s
      secWrite s (.raw 0xC0000 (fit 128 (h.take 96 ++ fwSeal s h))) false 3 St.ok St.nvProtected

/-- FW_WRITE (R720 step 2); outside an open install it is CFG_REJECT (log entry 82). -/
def fwWriteOk (s : State) (p : List Byte) : Option Nat :=
  let ofs := leAt p 4 4
  let n := p.length - 8
  if s.get F.secFw_state ≠ 1 then some St.cfgReject
  else if ofs % 128 ≠ 0 ∨ (s.sec.fwLen + 127) / 128 * 128 < ofs + n then some St.badDescriptor
  else none

-- The command under way ---------------------------------------------------------------------------------------------------

/-- The form of a command (R711, Table 21.3). -/
def secFormOk (w : SecWait) : Bool :=
  let p := w.data
  let op := leAt p 0 1
  let n := p.length
  (match w.req with
   | some r => (r.port == 8 || r.port == 9 || r.port == 10) && r.cls == 1
   | none => true)
  && slice p 1 3 == zeros 3 && decide (1 ≤ n)
  && (if op = 0x10 ∨ op = 0x12 ∨ op = 0x17 then n == 4
      else if op = 0x11 then (if leAt p 4 1 = 0 then n == 48 else leAt p 4 1 == 1 && n == 56) && slice p 5 3 == zeros 3 && slice p 12 4 == zeros 4
      else if op = 0x13 then n == 64 && slice p 4 12 == zeros 12
      else if op = 0x14 then n == 8
      else if op = 0x15 then decide (136 ≤ n) && decide (n ≤ 4104) && n % 128 == 8
      else op == 0x16 && n == 112 && slice p 4 12 == zeros 12)

/-- What a command does before any mask draw: it ends with a status, carries on by itself, or needs masks. -/
inductive SecFirst where
  | ends (status : Nat)
  | goes (s : State)
  | masks

/-- FW_COMMIT and FW_RESEAL before the seal's masks: the checks that need no key come first. -/
def fwFirst (s : State) (h : List Byte) : SecFirst :=
  match fwCheck s h with
  | some st => .ends st
  | none => .masks

/-- A command's start. -/
def secFirst (s : State) (w : SecWait) : SecFirst :=
  let p := w.data
  let op := leAt p 0 1
  let lc := s.get F.secStat_lc
  if !secFormOk w then .ends St.badDescriptor
  else if op = 0x10 then
    if lc = 0 ∧ s.on F.secStat_rootOk then .goes (secEnd (lcBlow s false) St.ok) else .ends St.cfgReject
  else if op = 0x12 then
    if lc = 1 ∧ s.cph.domain.isSome ∧ s.sec.regLock then .goes (secEnd (lcBlow s false) St.ok)
    else if lc = 3 ∧ s.on F.secStat_newkey then
      let s := kPut (lcBlow s false) K.decom 1 0
      let s := (s.setW W.ledSeqLo 0#32).setW W.ledSeqHi 0#32
      let s := (s.set F.secStat_newkey 0)
      .goes (secWrite s (.record recSec (recSecBytes s)) true 1 St.ok St.ok)
    else .ends St.cfgReject
  else if op = 0x11 then (if secKeyOk s p then .masks else .ends St.cfgReject)
  else if op = 0x13 then
    if !authFormOk s (slice p 16 48) then .ends St.tokenInvalid
    else if s.cph.domain.isNone then .ends St.keyUnavailable
    else .masks
  else if op = 0x14 then
    match fwBarred s (leAt p 4 4) with
    | some st => .ends st
    | none => .goes (secWrite (secUpd (s.set F.secFw_state 1) fun x => { x with fwLen := leAt p 4 4 }) (.raw 0xC0000 (zeros 128)) false 2 St.ok St.nvProtected)
  else if op = 0x15 then
    match fwWriteOk s p with
    | some st => .ends st
    | none => .goes (secWrite s (.raw (0xC0080 + leAt p 4 4) (p.drop 8)) false 2 St.ok St.nvProtected)
  else if op = 0x16 then (if s.get F.secFw_state = 1 then fwFirst s (slice p 16 96) else .ends St.cfgReject)
  else
    match fwBarred s (leAt (memRead s.nv.cells 0xC0000 128) 4 4) with
    | some st => .ends st
    | none => if s.get F.secFw_state = 0 then fwFirst s (memRead s.nv.cells 0xC0000 128) else .ends St.cfgReject

/-- The part of a command that needs masks. -/
def secMasked (s : State) (p : List Byte) : State :=
  let op := leAt p 0 1
  if op = 0x11 then secKeyRun s p
  else if op = 0x13 then authRun s (slice p 16 48)
  else if op = 0x16 then fwSealRun s true (slice p 16 96)
  else fwSealRun s false (memRead s.nv.cells 0xC0000 128)

/-- The cipher operations of a command that draws masks (R300): a derivation, then the unwrapping, the MAC or the seal; an import
alone for KEY_INSTALL with FORM 0. -/
def secOps (p : List Byte) : Nat := if leAt p 0 1 = 0x11 ∧ leAt p 4 1 = 0 then 1 else 2

/-- The command reads a page that is being written, and waits until that write ends (R384): FW_COMMIT the image, FW_RESEAL the
header and the image. -/
def secNvBusy (s : State) (p : List Byte) : Bool :=
  if leAt p 0 1 = 0x16 then nvPageBusy s 0xC0080 (leAt (slice p 16 96) 4 4)
  else leAt p 0 1 == 0x17 && nvPageBusy s 0xC0000 (128 + leAt (memRead s.nv.cells 0xC0000 128) 4 4)

/-- The command in front waits for such a page. -/
def secReads (s : State) : Bool := (s.sec.queue.head?.map fun w => secNvBusy s w.data).getD false

/-- Run the waiting commands until one waits for masks or for NV. -/
def secRun : Nat → State → State
  | 0, s => s
  | n + 1, s =>
    match s.sec.queue with
    | [] => s
    | w :: _ =>
      if s.sec.busy || secReads s then s
      else match secFirst s w with
        | .ends st => secRun n (secEnd s st)
        | .goes t =>
          if t.sec.queue.length < s.sec.queue.length then secRun n t else secUpd t fun x => { x with busy := true }
        | .masks =>
          match maskDraws (secOps w.data) s with
          | .fatal => secRun n (secEnd s St.rngFatal)
          | .wait t => t
          | .bits _ t =>
            let t := secMasked t w.data
            if t.sec.queue.length < s.sec.queue.length then secRun n t else secUpd t fun x => { x with busy := true }

/-- Go on with the waiting commands. -/
def secGo (s : State) : State := secRun (s.sec.queue.length + 1) s

/-- A command arrives. -/
def secArrive (s : State) (req : Option Req) (data : List Byte) : State :=
  secGo (secUpd s fun x => { x with queue := x.queue ++ [⟨req, data⟩] })

/-- The command under way has waited 2 ms for its masks (R362). -/
def secStall (s : State) : State := if s.sec.busy || secReads s then s else secGo (secEnd s St.timeout)

/-- A write of the command under way has ended (R717, R720). -/
def secNvDone (s : State) (step status nvStatus : Nat) : State :=
  let a := match s.sec.queue with
    | w :: _ => slice w.data 16 48
    | [] => []
  let s :=
    if step = 0 then authCarry s a
    else if step = 1 then secEnd s status
    else
      let s := fwVersion s
      let s := if step = 3 ∧ nvStatus = St.ok then s.set F.secFw_state 0 else s
      secEnd s nvStatus
  secGo s

/-- The domain key's store has ended (R714). -/
def secDomainDone (s : State) (status copyA epoch : Nat) (key : List Byte) : State := secGo (secInstalled s status copyA epoch key)

/-- HOLDUP entry and device reset: the commands under way are lost without completion (R385, R710). -/
def secHoldup (s : State) : State := secUpd s fun x => { x with queue := [], busy := false, closing := 0 }

-- The start (R705, R706, R710, R724) -----------------------------------------------------------------------------------------

/-- The registers show the fuses. -/
def fuseShow (s : State) : State :=
  let s := lcShow s
  let s := (s.setB F.secStat_rootOk (s.sec.rootGen && s.sec.root.length == 32)).setB F.secStat_intkey (!s.sec.intkey.isEmpty)
  let s := s.set F.secStat_fwSvn s.sec.svn
  let s := (List.range 4).foldl (fun s i => s.setW (W.secDevid i) (BitVec.ofNat 32 (leAt s.sec.devId (4 * i) 4))) s
  (s.setW W.ptUidLo (BitVec.ofNat 32 (leAt (ptUid s) 0 4))).setW W.ptUidHi (BitVec.ofNat 32 (leAt (ptUid s) 4 4))

/-- Root generation at the first start (R706), once the seed pool holds its 512 bits: they leave the pool as a seed does
(R351, log entry 83). -/
def rootGenerate (s : State) : State :=
  if s.sec.rootGen || !s.sec.root.isEmpty || s.rng.pool.length < 64 then s
  else
    let seed := s.rng.pool.take 64
    fuseShow (secUpd (rngUpd s fun r => { r with pool := r.pool.drop 64 }) fun x => { x with root := (drbgDf seed).take 32, rootGen := true })

/-- The security record and the tamper latches at a start (R714, R724). -/
def secLoad (s : State) : State :=
  let s := match recSelect s recSec with
    | some r =>
      (set64 s W.secAuthseqLo W.secAuthseqHi (leAt r.payload 0 8)).set F.secStat_newkey (leAt r.payload 8 1)
    | none => s
  let s := match recSelect s recDomain with
    | some r => s.setW W.secEpoch (BitVec.ofNat 32 (leAt r.payload 40 4))
    | none => s
  fwVersion (if kGet s K.tamper 1 = 0 then s else s.set F.secTamp_latch (kGet s K.tampIn 1))

/-- Step 4 of the start finishes a cut-off closing or retirement (R710). -/
def secFinish (s : State) : State :=
  let lc := s.get F.secStat_lc
  let open_ := (lc == 3 || lc == 4) && s.on F.ledStat_open && !s.led.closing
  if lc = 4 ∧ open_ then secCkptDone (ledClose (secUpd s fun x => { x with closing := 3 }))
  else if lc = 4 then nvProtOp s true .fw 3
  else if open_ then ledClose s
  else s

-- The commands -----------------------------------------------------------------------------------------------------------------

/-- PROVISION (R708). -/
def execSecProvision (req : Req) (payload : List Byte) (s : State) : Host.Outcome State Fault Refusal := .next (secArrive s (some req) payload)
/-- KEY_INSTALL (R712–R714). -/
def execSecKeyInstall (req : Req) (payload : List Byte) (s : State) : Host.Outcome State Fault Refusal := .next (secArrive s (some req) payload)
/-- DEPLOY (R708, R709). -/
def execSecDeploy (req : Req) (payload : List Byte) (s : State) : Host.Outcome State Fault Refusal := .next (secArrive s (some req) payload)
/-- AUTHORISE, OP 1 (R709, R715–R717). -/
def execSecAuthTransfer (req : Req) (payload : List Byte) (s : State) : Host.Outcome State Fault Refusal := .next (secArrive s (some req) payload)
/-- AUTHORISE, OP 2 (R710). -/
def execSecAuthRetire (req : Req) (payload : List Byte) (s : State) : Host.Outcome State Fault Refusal := .next (secArrive s (some req) payload)
/-- AUTHORISE, OP 3 (R724). -/
def execSecAuthTamperClear (req : Req) (payload : List Byte) (s : State) : Host.Outcome State Fault Refusal := .next (secArrive s (some req) payload)
/-- AUTHORISE, OP 4 (R725). -/
def execSecAuthDebug (req : Req) (payload : List Byte) (s : State) : Host.Outcome State Fault Refusal := .next (secArrive s (some req) payload)
/-- FW_BEGIN (R720). -/
def execSecFwBegin (req : Req) (payload : List Byte) (s : State) : Host.Outcome State Fault Refusal := .next (secArrive s (some req) payload)
/-- FW_WRITE (R720). -/
def execSecFwWrite (req : Req) (payload : List Byte) (s : State) : Host.Outcome State Fault Refusal := .next (secArrive s (some req) payload)
/-- FW_COMMIT (R720). -/
def execSecFwCommit (req : Req) (payload : List Byte) (s : State) : Host.Outcome State Fault Refusal := .next (secArrive s (some req) payload)
/-- FW_RESEAL (R722). -/
def execSecFwReseal (req : Req) (payload : List Byte) (s : State) : Host.Outcome State Fault Refusal := .next (secArrive s (some req) payload)

/-- SEC_TAMP.CLEAR (R724, R728). -/
def tamperClearWrite (s : State) (src : Src) : State :=
  if s.get F.secStat_lc ≤ 1 ∧ !tamperActive s then tamperClearOp s else cfgReject s src W.secTamp
def execSecTamperClearWrite (src : Src) (s : State) : Host.Outcome State Fault Refusal := .next (tamperClearWrite s src)

end Sys2Proof.Machine
end

