-- ==== Sys2Proof/Machine/Reset.lean ====
section
/-! DEFINITION. Device resets (R668–R670, Table 19.2, R792): what each cause keeps. What a start then restores is in
Start.lean. -/

namespace Sys2Proof.Machine

-- Abandoned NV requests (R385, R792) -----------------------------------------------------------------------------------

/-- The record of a request given up: its first unwritten page, the pages left and its source port; none when only the
page in progress was left. -/
def jobAbandon (s : State) (running : Bool) (j : NvJob) : Option (Nat × Nat × Nat) :=
  let ps := if j.started then j.pages else jobPages s j.kind
  match (if running then ps.drop 1 else ps) with
  | [] => none
  | p :: rest => some (p.page, min 255 (rest.length + 1), j.src)

/-- A request given up before it began. -/
def kindAbandon (s : State) (k : NvKind) (src : Nat) : List (Nat × Nat × Nat) :=
  (jobAbandon s false ⟨k, [], false, false, false, src, .none⟩).toList

/-- The records of one queued request; of SAVE_CFG also that of the record it had still to ask for (R793). -/
def jobRecords (s : State) (running : Bool) (j : NvJob) : List (Nat × Nat × Nat) :=
  (jobAbandon s running j).toList ++ (if j.cont = .saveCfg then kindAbandon s (.record recSystem (recSysBytes s)) j.src else [])

/-- The write of NV_CMD that CONFIG_STOP keeps waiting (R408), if it is one that the store would take. -/
def heldRecords (s : State) : List (Nat × Nat × Nat) :=
  match s.nv.cmd with
  | none => []
  | some c =>
    let d := userDesc s c.desc
    if !s.nv.held.contains .reg || c.len < 1 || 128 < c.len then []
    else if c.op = 1 ∧ nvOpen c.addr c.len = true then kindAbandon s (.raw c.addr (fit c.len c.buf)) c.src
    else if c.op = 3 ∧ userDescOk d = true ∧ c.addr = 0 ∧ c.len = d.len then kindAbandon s (.record d (fit c.len c.buf)) c.src
    else []

/-- The records of every request, custody requests first. -/
def nvAbandoned (s : State) : List (Nat × Nat × Nat) :=
  let runs := fun (custody : Bool) (i : Nat) => i == 0 && s.nv.cur.any fun c => c.custody == custody && !c.orphan
  (s.nv.cust.mapIdx fun i j => jobRecords s (runs true i) j).flatten
    ++ (s.nv.ord.mapIdx fun i j => jobRecords s (runs false i) j).flatten ++ heldRecords s

/-- The header write of a passport transaction in step 3 is the page in progress: it completes with its page (Table 6.5). -/
def ptHeaderJob (s : State) : Option NvJob :=
  (s.nv.cust.head?.filter fun j => match j.cont with
    | .pt id => (s.pt.run.any fun t => t.hdr && t.id == id) && s.nv.cur.any fun c => c.custody && !c.orphan
    | _ => false).map fun j => { j with pages := j.pages.take 1 }

/-- Drop every request; the page write in progress goes on without one, unless it is a passport header's. -/
def nvDrop (s : State) : State :=
  let keep := ptHeaderJob s
  { s with nv := { s.nv with
    cust := keep.toList, ord := [], cmd := none, waitRead := [], held := []
    cur := s.nv.cur.map fun c => { c with orphan := c.orphan || keep.isNone } } }

-- The reset ------------------------------------------------------------------------------------------------------------

/-- The registers whose values a reset of the rest of the device leaves alone while the always-on domain is powered: the meter
counters (R741), the tamper word (R724), the hold-up record (R656), VHOLD as measured, and the LFRC's calibration (R667). -/
def aonRegs : List Nat := [W.vioEpdcnt, W.vioEpccnt, W.secTamp, W.pmHoldinfo, W.pmVhold, W.clkLfrc]

/-- The NV store through a reset: the array, its headers, and the abandon records on the always-on domain, the first eight in
all (R792). -/
def nvAfter (s : State) (recs : List (Nat × Nat × Nat)) : Nv :=
  let all_ := s.nv.aonAbandon ++ recs
  { State.reset.nv with
    cells := s.nv.cells, tags := s.nv.tags, incomplete := s.nv.incomplete
    aonAbandon := all_.take 8, aonLost := s.nv.aonLost + (all_.length - 8) }

/-- What a reset keeps whatever its cause: the waiting commands and free values, the NV array, the fuses, the clock of free
values, the passport tag's field side, the host side's memory, the levels of the balls, and the clock. -/
def resetBase (s : State) (nv : Nv) : State :=
  { State.reset with
    pending := s.pending, free := s.free, nv := nv
    sec := { State.reset.sec with
      root := s.sec.root, rootGen := s.sec.rootGen, devId := s.sec.devId, uid := s.sec.uid, k := s.sec.k
      retired := s.sec.retired, regLock := s.sec.regLock, svn := s.sec.svn, intkey := s.sec.intkey }
    pt := { s.pt with run := none, queue := [], held := none, cmd := false, waitRead := none, resolved := false }
    hst := { State.reset.hst with mem := s.hst.mem, msi := s.hst.msi, perstN := s.hst.perstN, qspi := s.hst.qspi }
    vio := { State.reset.vio with tamp := s.vio.tamp }
    pm := { State.reset.pm with wake := s.pm.wake, mode := s.pm.mode, wakeN := s.pm.wakeN, rtcOsc := s.pm.rtcOsc } }

/-- The loss of the always-on domain (cause 1, or OFF): keep RAM, the RTC and the meter counters are lost, and a page write
in progress is torn (R379, Table 11.3). -/
def resetLost (s : State) : State := resetBase s (nvAfter { ptCut s with nv := { (ptCut s).nv with aonAbandon := [], aonLost := 0 } } [])

/-- A reset that keeps the always-on domain (causes 2 to 7); `sram` keeps SRAM and bit RAM (cause 4). The page write in
progress ends first (R792). -/
def resetKept (s : State) (sram : Bool) : State :=
  let recs := nvAbandoned s
  let e := (nvPageEnd (nvDrop s) none).2
  let r := resetBase e (nvAfter e recs)
  let r := aonRegs.foldl (fun (r : State) o => r.setW o (s.getW o)) r
  let r := (r.set F.clkStat_rtcXtal (s.get F.clkStat_rtcXtal)).set F.pmStat_lastcause (s.get F.pmStat_lastcause)
  { r with
    rtc := s.rtc, keep := keepSynced s
    led := { r.led with takenD := s.led.takenD, takenC := s.led.takenC }
    vio := { r.vio with meters := s.vio.meters }
    iv := if sram then { r.iv with sram := s.iv.sram, bits := s.iv.bits } else r.iv
    pm := { r.pm with holdSeen := s.pm.holdSeen, aonNew := s.pm.aonNew } }

/-- A device reset (R669). RF_TSTAMP restarts at 0 (R794). -/
def deviceReset (s : State) (cause : Nat) : State :=
  (if cause = 1 then resetLost s else resetKept s (cause == 4)).set F.clkRstcause_cause cause

end Sys2Proof.Machine
end

