-- ==== Sys2Proof/Machine/Power.lean ====
section
/-! DEFINITION. Power modes and hold-up (18_power_modes_holdup.md): TARGET (R633–R635), LISTEN (R637, R638), SLEEP entry
(R639–R646), waking (R647–R649), brown-out (R650–R656), VHOLD (R658–R660), the RTC alarm (R691) and the tamper inputs
(R723, R745). -/

namespace Sys2Proof.Machine

-- Clocks and VHOLD -------------------------------------------------------------------------------------------------------

/-- SYSPLL stops (R635, R665): SEL clears first; Basin goes to self-refresh (R484), the switch parks (R448), the links are
held down (R557), every grant is void (R702) and the radio loses its power or its reference (R240, R635). -/
def sysOff (s : State) : State :=
  let s := (s.set F.clkCtrl_sel 0).set F.clkCtrl_syspllEn 0
  let s := (s.set F.clkStat_pllLock 0).set F.clkStat_onPll 0
  rfUnlock (arbVoid (plHoldDown ((s.set F.bsnStat_ready 0).set F.swStat_parked 1)))

/-- The charger runs in STANDBY to RUN (R658). -/
def chargerOn (s : State) : Bool := decide (3 ≤ s.get F.pmStat_current) && decide (s.get F.pmStat_current ≤ 6)

/-- HOLD_READY and CHARGING as VHOLD, the charger and HOLD_FAULT have them (R659). -/
def holdEval (s : State) : State :=
  let v := s.get F.pmVhold_vhold
  let was := s.on F.pmStat_holdReady
  let ok := chargerOn s && !s.on F.pmStat_holdFault && (decide (130 ≤ v) || (was && decide (125 ≤ v)))
  let s := s.setB F.pmStat_charging (chargerOn s && decide (v < 140))
  if ok == was then s
  else
    let s := s.setB F.pmStat_holdReady ok
    if evRuns s then raise s 122 0 else s

/-- HOLD_READY_CHANGE (R659): VHOLD has reached a level, in 0.1 V. -/
def execPmHoldReadyChange (vhold : Nat) (s : State) : Host.Outcome State Fault Refusal :=
  .next (holdEval (s.set F.pmVhold_vhold (min 255 vhold)))

/-- CAPTEST (R660): a capacitance measurement ends, the 24 h test only where CAPTEST_EN is set. -/
def execPmCaptest (cap : Nat) (test : Bool) (s : State) : Host.Outcome State Fault Refusal :=
  .next <|
    if !chargerOn s || (test && !s.on F.pmCtrl_captestEn) then s
    else
      let ev := fun (s : State) b => if evRuns s then raise s 122 b else s
      let s := ev (s.set F.pmHoldcap_cap (min 1023 cap)) 3
      let s := if min 1023 cap < s.get F.pmHoldcap_cmin then ev (s.set F.pmStat_holdFault 1) 1 else s.set F.pmStat_holdFault 0
      holdEval s

-- TARGET (R634, R635) --------------------------------------------------------------------------------------------------------

/-- CURRENT follows TARGET 5 or 6 once the system clock runs (R635); in POLL an idle radio has no power (R636). -/
def pmRise (s : State) : State :=
  let t := s.get F.pmMode_target
  if (t = 5 ∨ t = 6) ∧ s.on F.clkStat_onPll ∧ s.pm.entry = 0 ∧ (s.get F.pmStat_current = 4 ∨ pmAwake s) then
    let s := if t = 5 ∧ s.get F.rfStat_state = 0 then rfUnlock s else s
    coilAutostart (setMode s t)
  else s

/-- Saddle forbids LISTEN, SLEEP and resets (R634, R639, R670). -/
def sadBars (s : State) : Bool := sadState s == SS.arming || sadState s == SS.released || sadState s == SS.holding

/-- A write of PM_MODE.TARGET (R634, R635). -/
def pmTarget (s : State) (v : Nat) : State :=
  if v < 4 ∨ 6 < v ∨ (v = 4 ∧ sadBars s) then raise s 123 2
  else
    let s := s.set F.pmMode_target v
    let s := if v ≠ 4 ∧ s.pm.entry = 3 then pmUpd s fun p => { p with entry := 0 } else s
    if v = 4 then pmListen s else pmRise s

/-- PM_TARGET_WRITE (R634, R635). -/
def execPmTargetWrite (v : Nat) (s : State) : Host.Outcome State Fault Refusal := .next (pmTarget s (v % 8))

-- SLEEP (R639–R646) ------------------------------------------------------------------------------------------------------------

/-- SLEEP is issued for mode m: refused, abandoned at AP1 by an active tamper input, or step 2 begins (Table 18.3). -/
def sleepOp (s : State) (m : Nat) : State :=
  let s := s.set F.pmLastentry_mode m
  if m = 0 ∨ sadBars s then raise (s.set F.pmLastentry_result 6) 123 2
  else
    let s := pmUpd s fun p => { p with wake := none, mode := m, ckpt := false }
    if tamperActive s then pmAbandon (pmNote s 0) 1 (some 0)
    else pmUpd s fun p => { p with entry := 1 }

/-- The blocks of step 2 are idle: the program between entries, no running task, radio request, cipher segment or NV
request. -/
def pmDrained (s : State) : Bool :=
  s.coil.running.isEmpty && s.coil.progJob.isNone && !s.coil.progWait
  && s.rf.run.isNone && s.prx.cur.isNone && s.prx.stalled.isNone && (s.cph.cores.all fun c => c.run.isNone)
  && s.nv.cur.isNone && s.nv.cust.isEmpty && s.nv.ord.isEmpty

/-- LISTEN is entered (R635). -/
def enterListen (s : State) : State :=
  setMode (sysOff (pmUpd s fun p => { p with entry := 0, sniffRef := [] })) 4

/-- SLEEP_DRAIN_DONE (R640, R635): AP2 passes and the entry checkpoint starts (modes 1 and 2), or LISTEN is entered. -/
def execPmSleepDrainDone (s : State) : Host.Outcome State Fault Refusal :=
  .next <|
    if !pmDrained s then s
    else if s.pm.entry = 3 then enterListen s
    else if s.pm.entry ≠ 1 then s
    else
      let s := pmUpd s fun p => { p with entry := 2 }
      if s.pm.mode = 3 then s
      else
        let s := ckptStart s true
        pmUpd s fun p => { p with ckpt := s.on F.ledStat_ckptBusy }

/-- DRAIN_TIMEOUT (R640): DRAIN_MAX has passed in step 2. -/
def execPmDrainTimeout (s : State) : Host.Outcome State Fault Refusal :=
  .next (if s.pm.entry = 1 then pmAbandon s 2 none else s)

/-- The entry checkpoint has ended: AP3 (R640, R641). -/
def pmCkptDone (s : State) : State :=
  if s.pm.entry ≠ 2 || !s.pm.ckpt || s.on F.ledStat_ckptBusy then s
  else
    let s := pmUpd s fun p => { p with ckpt := false }
    match s.pm.wake with
    | some w => pmAbandon s 3 (some w)
    | none => s

/-- The host link goes down (R527): in PCI Express mode the interface returns to set-up. -/
def hostLinkDown (s : State) : State := if s.hst.qspi then s else hstUpd (hostSetup s) fun h => { h with pcieUp := false }

/-- Step 4 of Table 18.3 for mode m. -/
def sleepStop (s : State) (m : Nat) : State :=
  let s := hostLinkDown (sysOff s)
  if m = 3 then s else (basinLose s).set F.clkStat_xtalOk 0

/-- Every frame inside the switch is lost without completion (R449, R645). -/
def swLose (s : State) : State := { s with sw := { s.sw with frames := [], mcs := [] } }

/-- The random number unit stops (R372); its failure history is kept only while it runs. -/
def rngOff (s : State) : State := rngUpd (rngZero s) fun r => { r with fails := [[], []] }

/-- ENTRY_COMPLETE (R640, R641, R645): step 4, AP4, and mode m. -/
def execPmEntryComplete (s : State) : Host.Outcome State Fault Refusal :=
  .next <|
    if s.pm.entry ≠ 2 || s.pm.ckpt then s
    else
      let m := s.pm.mode
      let s := sleepStop s m
      match s.pm.wake with
      | some w => pmAbandon (setMode s 4) 4 (some w)
      | none =>
        let s := rngOff (pmUpd s fun p => { p with entry := 0 })
        let s := (s.set F.pmLastentry_result 5).set F.pmLastentry_wakesrc 0xFF
        holdEval (setMode (if m = 3 then s else swLose s) m)

-- Waking (R647–R649) -------------------------------------------------------------------------------------------------------------

/-- The modes a source wakes (Table 18.4). -/
def wakeModes (w : Nat) : List Nat :=
  if w = 1 then [1] else if w = 7 ∨ w = 8 then [2, 3] else if w = 9 then [4] else if w < 18 then [1, 2, 3] else []

/-- PM_WAKEEN enables the source; VBATRET is armed by a hold-up. -/
def wakeOn (s : State) (w : Nat) : Bool := bitOf (s.getW W.pmWakeen).toNat w && (w != 1 || s.pm.holdSeen)

/-- WAKE_N is driven low from a wake (R649). -/
def wakeN (s : State) : State :=
  pmUpd s fun p => { p with wakeN := p.wakeN || (!s.hst.qspi && s.on F.pmCtrl_wakenEn) }

/-- A wake from STANDBY (R648): the core goes on after SLEEP, on the HFRC; the random number unit starts again (R352). -/
def standbyWake (s : State) (w : Nat) : State :=
  let s := setMode (wakeN s) 4
  let s := ((s.set F.pmLastentry_result 5).set F.pmLastentry_wakesrc w).set F.bsnStat_retained 1
  let s := if s.on F.rngStat_fatal then s else rngStart s
  holdEval (pmNote s w)

/-- A wake event of source `w` (R641, R647, R648): from HIBERNATE and KEEPER it is a device reset. -/
def pmWake (s : State) (w : Nat) : State :=
  let m := s.get F.pmStat_current
  if !wakeOn s w then s
  else if s.pm.entry = 1 ∨ s.pm.entry = 2 then
    if w = 18 ∨ (wakeModes w).contains s.pm.mode then pmEntryWake s w else s
  else if !(wakeModes w).contains m then s
  else if m = 3 then standbyWake s w
  else if m = 1 ∨ m = 2 then deviceReset (pmUpd (wakeN s) fun p => { p with wake := some w }) (if m = 2 then 4 else 5)
  else if s.get F.pmMode_target = 4 then pmNote (wakeN s) w
  else s

/-- WAKE_EVENT (R647). -/
def execPmWakeEvent (w : Nat) (s : State) : Host.Outcome State Fault Refusal := .next (pmWake s w)

/-- PERST_N_RISE (R649): WAKE_N is released; the link may train. -/
def execPmPerstNRise (s : State) : Host.Outcome State Fault Refusal :=
  .next (hstUpd (pmUpd s fun p => { p with wakeN := false }) fun h => { h with perstN := true })

-- LISTEN (R637, R638) ---------------------------------------------------------------------------------------------------------------

/-- The sniff runs: LISTEN, with TARGET 4 (R635). -/
def sniffing (s : State) : Bool := s.get F.pmStat_current == 4 && s.get F.pmMode_target == 4 && s.on F.clkStat_cfgDone

/-- One channel's peak current in a sniff round: its reference, or whether it differs by more than THR percent (R637). -/
def sniffOne (x : State × Bool) (c : Nat × Nat) : State × Bool :=
  let s := x.1
  let masked := bitOf ((s.getW W.pmLsnmaskLo).toNat + 2 ^ 32 * s.get F.pmLsnmaskHi_mask) c.1
  if 48 ≤ c.1 || !masked || coilChDown s c.1 || coilGrpDown s c.1 then x
  else match sget s.pm.sniffRef c.1 with
    | none => (pmUpd s fun p => { p with sniffRef := sput p.sniffRef c.1 c.2 }, x.2)
    | some r => (s, x.2 || decide (s.get F.pmLsncfg_thr * r < 100 * (max r c.2 - min r c.2)))

/-- SNIFF_ROUND (R637): the channels driven in this round with their peak currents. -/
def execPmSniffRound (currents : List (Nat × Nat)) (s : State) : Host.Outcome State Fault Refusal :=
  .next <|
    if !sniffing s then s
    else
      let (s, hit) := currents.foldl sniffOne (s, false)
      if hit then pmWake s 9 else s

/-- SNIFF_RF_SYNC (R638, R243): a sync word in the window at a die temperature. -/
def execPmSniffRfSync (temp : Int) (s : State) : Host.Outcome State Fault Refusal :=
  .next (if sniffing s && s.on F.pmLsncfg_rfEn then pmWake (dcUse s (s.get F.pmLsnrf_freq) temp) 9 else s)

-- The RTC alarm (R691) ----------------------------------------------------------------------------------------------------------------

/-- The alarm fires, once per value written: ALARM, and the RTC wake. -/
def alarmFire (s : State) : State :=
  let s := { s with ev := { s.ev with alarmSet := false } }
  pmWake (if evRuns s then raise s 126 0 else s) 2

/-- A write of PM_ALARM. -/
def alarmWrite (s : State) (v : W32) : State :=
  let s := { s.setW W.pmAlarm v with ev := { s.ev with alarmSet := v != 0#32 } }
  if s.ev.alarmSet && decide (v.toNat ≤ s.rtcSec) then alarmFire s else s

/-- PM_ALARM_WRITE (R691). -/
def execPmAlarmWrite (v : W32) (s : State) : Host.Outcome State Fault Refusal := .next (alarmWrite s v)

/-- RTC_ALARM (R691). -/
def execPmRtcAlarm (s : State) : Host.Outcome State Fault Refusal :=
  .next (if s.ev.alarmSet && decide (s.get F.pmAlarm_time ≤ s.rtcSec) then alarmFire s else s)

-- Brown-out (R650–R656) ---------------------------------------------------------------------------------------------------------------

/-- The abandon records of a hold-up, in keep RAM (R385). -/
def abandonNote (s : State) (recs : List (Nat × Nat × Nat)) : State :=
  let n := s.get F.nvAbcnt_count
  let s := (recs.take (8 - n)).zipIdx.foldl (fun (s : State) x =>
    ((s.set (F.nvAbandon_page (n + x.2)) x.1.1).set (F.nvAbandon_pages (n + x.2)) x.1.2.1).set (F.nvAbandon_src (n + x.2)) x.1.2.2) s
  (s.set F.nvAbcnt_count (min 8 (n + recs.length))).bump F.nvAbcnt_lost (n + recs.length - 8)

/-- The blocks stop (Table 18.5, step 1): R35, R144, R268, R346, R449, R527, R559, R372, R748, and Basin loses its power. -/
def holdupStop (s : State) : State :=
  let s := coilHoldup (sadHoldup s)
  let s := swLose (cphHoldup (rfHoldup s))
  let s := vioHoldup (secHoldup (ptAbandon s))
  let s := hstUpd (hostSetup s) fun h => { h with pcieUp := false }
  let s := rngUpd (rngOff (plLose s)) fun r => { r with waits := [], held := [] }
  let s := ledUpd s fun l => { l with tokNow := [], tokNext := [], stalled := [], again := false, closing := false, held := [] }
  let s := (basinLose (sysOff s)).set F.clkStat_xtalOk 0
  pmUpd s fun p => { p with entry := 0, mode := 0, ckpt := false, wake := none, holdAt := s.rtc, cut := false }

/-- The keeper's save (R386): copy A of the next pair, unless nothing is unsaved or block protect is at 3 (R653). What a
save clears it clears first, so that its image holds this hold-up's abandon records (R385, R389). -/
def keeperStart (s : State) (recs : List (Nat × Nat × Nat)) : State :=
  let s := s.setW W.pmHoldinfo 0#32
  let s := if recs.isEmpty then s else keepTouch s
  if !s.on F.pmStat_keepDirty || s.get F.nvProt_bp == 3 then (abandonNote s recs).set F.pmHoldinfo_skipped 1
  else
    let s := ledUpd (abandonNote (keepSaveBegin s) recs) fun l => { l with touched := false }
    let k := s.get F.ledKseq_kseq
    let j : NvJob := ⟨.copy (recKeep (k % 16)) false k (keepBytes s), [], false, true, true, 14, .keeper⟩
    nvKick { s with nv := { s.nv with cust := s.nv.cust ++ [j], keeper := true } }

/-- HOLDUP_ENTRY (R650, R651): 1 VBAT, 2 PFAIL_N, 3 PG_CORE. -/
def execPmHoldupEntry (cause : Nat) (s : State) : Host.Outcome State Fault Refusal :=
  .next <|
    let m := s.get F.pmStat_current
    if m = 0 ∨ m = 7 ∨ cause = 0 ∨ 3 < cause ∨ (cause = 2 ∧ ¬ s.on F.pmCtrl_pfailEn) then s
    else
      let recs := nvAbandoned s
      let s := holdEval (setMode (s.set F.pmStat_lastcause cause) 7)
      keeperStart (nvDrop (holdupStop s)) recs

/-- KEEPER_CUT (R654): VHOLD below 5.0 V stops the keeper at once; the page it writes is torn. -/
def execPmKeeperCut (s : State) : Host.Outcome State Fault Refusal :=
  .next <|
    if !nvHoldup s || (s.nv.cur.isNone && !s.nv.keeper) then s
    else
      let s := nvDrop (ptCut s)
      (pmUpd { s with nv := { s.nv with keeper := false } } fun p => { p with cut := true }).set F.pmHoldinfo_cut 1

/-- HOLDUP_EXIT (R655, R656): the time in µs, VHOLD and VBAT in 0.1 V, and whether every cause has cleared. -/
def execPmHoldupExit (us vend vbat : Nat) (clear : Bool) (s : State) : Host.Outcome State Fault Refusal :=
  .next <|
    if !nvHoldup s || s.nv.cur.isSome || s.nv.keeper then s
    else
      let s := ((s.set F.pmHoldinfo_timeUs (min 8191 us)).set F.pmHoldinfo_vend (min 255 vend)).set F.pmVhold_vhold (min 255 vend)
      let s := pmUpd s fun p => { p with holdSeen := true }
      if clear ∧ pmVbo s + 5 ≤ vbat then deviceReset s 3
      else if 40 ≤ vbat then setMode s 1
      else (resetLost s).set F.pmStat_current 0

-- The tamper inputs (R723, R745) ------------------------------------------------------------------------------------------------------

/-- TAMPER_DETECT (R723): input n has been active for 122 µs. An enabled one latches, records the force cause and wakes. -/
def execSecTamperDetect (n : Nat) (s : State) : Host.Outcome State Fault Refusal :=
  .next <|
    if 4 ≤ n ∨ s.get F.pmStat_current = 0 ∨ ¬ bitOf (s.get F.secTampcfg_en) n then s
    else
      let was := bitOf s.vio.tamp n
      let s := vioUpd s fun v => { v with tamp := setBit v.tamp n }
      let s := (s.set F.secTamp_level (setBit (s.get F.secTamp_level) n)).set F.secTamp_latch (setBit (s.get F.secTamp_latch) n)
      let s := kPut (kPut s K.tamper 1 1) K.tampIn 1 (kGet s K.tampIn 1 ||| s.get F.secTamp_latch)
      let s := if evRuns s && !was then raise s (116 + n) 0 else s
      pmWake s 0

/-- TAMPER_INACTIVE (R745). -/
def execSecTamperInactive (n : Nat) (s : State) : Host.Outcome State Fault Refusal :=
  .next <|
    if 4 ≤ n ∨ ¬ bitOf s.vio.tamp n then s
    else
      let s := vioUpd s fun v => { v with tamp := clrBit v.tamp n }
      let s := s.set F.secTamp_level (clrBit (s.get F.secTamp_level) n)
      if evRuns s then raise s (116 + n) 1 else s

end Sys2Proof.Machine
end

