-- ==== Sys2Proof/Machine/Start.lean ====
section
/-! DEFINITION. Clocks (R664–R667), the rows of resets (R669, R670) and the start-up of Table 19.3 with the boot ROM's
authentication (R671–R677). -/

namespace Sys2Proof.Machine

-- The system clock (R664, R665) ------------------------------------------------------------------------------------------

/-- The switch leaves its parked state once ON_PLL and READY are 1 (R448, R664). -/
def unpark (s : State) : State :=
  if s.on F.clkStat_onPll && s.on F.bsnStat_ready then s.set F.swStat_parked 0 else s

/-- SYSPLL_EN written 1. -/
def syspllEn (s : State) : State :=
  if s.on F.clkStat_xtalOk then (s.set F.clkCtrl_syspllEn 1).set F.clkStat_selErr 0 else s.set F.clkStat_selErr 1

/-- SEL written 1: the system clock runs, and CURRENT follows TARGET. -/
def selOp (s : State) : State :=
  if s.on F.clkStat_pllLock then
    let s := ((s.set F.clkCtrl_sel 1).set F.clkStat_onPll 1).set F.clkStat_selErr 0
    unpark (pmRise s)
  else s.set F.clkStat_selErr 1

def pllLock (s : State) : State := if s.on F.clkCtrl_syspllEn then arbPeak (s.set F.clkStat_pllLock 1) else s

/-- Basin is READY after SYSPLL is enabled (R484): waiting misses go on. -/
def basinReady (s : State) : State :=
  if s.on F.clkCtrl_syspllEn && !s.on F.bsnStat_ready then lookupsGoOn (dirRetry (unpark (s.set F.bsnStat_ready 1))) else s

/-- SYSPLL_EN (R664). -/
def execClkSyspllEn (s : State) : Host.Outcome State Fault Refusal := .next (syspllEn s)
/-- PLL_LOCK (R664). -/
def execClkPllLock (s : State) : Host.Outcome State Fault Refusal := .next (pllLock s)
/-- SEL (R664). -/
def execClkSel (s : State) : Host.Outcome State Fault Refusal := .next (selOp s)
/-- BASIN_READY (R484). -/
def execClkBasinReady (s : State) : Host.Outcome State Fault Refusal := .next (basinReady s)

-- Clock failure (R666, R667) ------------------------------------------------------------------------------------------------

/-- XTAL_FAIL (R666). -/
def execClkXtalFail (s : State) : Host.Outcome State Fault Refusal :=
  .next <|
    if !s.on F.clkStat_xtalOk then s
    else
      let s := ((sysOff s).set F.clkStat_xtalOk 0).set F.clkStat_xtalFail 1
      let s := s.coil.running.foldl (fun s x => taskEnd s x St.fieldLost (some St.fieldLost)) (rfLockLoss s)
      let s := arbVoid (coilUpd s fun c => { c with mapFull := none })
      let s := if pmAwake s then setMode (pmUpd s fun p => { p with entry := if p.entry = 3 then 0 else p.entry }) 4 else s
      if evRuns s then raise s 122 4 else s

/-- Steps 5 and 6: the boot ROM, or the start sequencer, brings the system clock up with XTAL_OK and TARGET 5 or 6 (R673); with
TARGET 4 it stays off. -/
def startClock (s : State) : State :=
  let run := s.get F.pmMode_target != 4 && s.get F.pmStat_current == 4 && s.pm.entry == 0
  let s' := pmUpd s fun p => { p with clkDue := run && !s.on F.clkStat_xtalOk }
  if run && s.on F.clkStat_xtalOk then basinReady (selOp (pllLock (syspllEn s'))) else s'

/-- XTAL_OK (R666): 1 ms of good edges. A start that waits for it goes on (Table 19.3, step 5). -/
def execClkXtalOk (s : State) : Host.Outcome State Fault Refusal :=
  .next <|
    if !chargerOn s then s
    else
      let s := (s.set F.clkStat_xtalOk 1).set F.clkStat_xtalFail 0
      if s.pm.clkDue then startClock s else s

/-- The RTC's source as the crystal and RTC_LFRC have it (R667). -/
def rtcSource (s : State) : State :=
  let x := s.pm.rtcOsc && !s.on F.clkCtrl_rtcLfrc
  if x == s.on F.clkStat_rtcXtal then s
  else
    let s := s.setB F.clkStat_rtcXtal x
    if evRuns s then raise s 122 6 else s

/-- RTC_CRYSTAL_STOP (R667). -/
def execClkRtcCrystalStop (s : State) : Host.Outcome State Fault Refusal :=
  .next (rtcSource (pmUpd s fun p => { p with rtcOsc := false }))
/-- RTC_CRYSTAL_RUNNING (R667). -/
def execClkRtcCrystalRunning (s : State) : Host.Outcome State Fault Refusal :=
  .next (rtcSource (pmUpd s fun p => { p with rtcOsc := true }))
/-- LFRC_CALIBRATION (R667), while XTAL runs. -/
def execClkLfrcCalibration (ppm : Int) (s : State) : Host.Outcome State Fault Refusal :=
  .next (if s.on F.clkStat_xtalOk then s.set F.clkLfrc_ppm (unsigned 16 ppm) else s)

-- Resets (R669, R670) -----------------------------------------------------------------------------------------------------------

/-- A DEVRST or debug port reset: refused while Saddle forbids it. -/
def resetAsk (s : State) (cause : Nat) : State := if sadBars s then raise s 123 2 else deviceReset s cause

/-- DEVRST (R670). -/
def execClkDevrst (key : Nat) (s : State) : Host.Outcome State Fault Refusal :=
  .next (if key = 0x3C then resetAsk s 6 else s)

/-- DEVICE_RESET (R669): a cause of Table 19.2; DEVRST and the debug port's reset are refused as R670 has it. -/
def execClkDeviceReset (cause : Nat) (s : State) : Host.Outcome State Fault Refusal :=
  .next (if 1 ≤ cause ∧ cause ≤ 5 then deviceReset s cause else if cause = 6 ∨ cause = 7 then resetAsk s cause else s)

-- The start (R671, Table 19.3) ------------------------------------------------------------------------------------------------------

/-- Insert into a rising list. -/
def insNat (x : Nat) : List Nat → List Nat
  | [] => [x]
  | y :: l => if x ≤ y then x :: y :: l else y :: insNat x l

/-- The header scan (R381, R403): torn pages in ascending order, and TORN. -/
def nvScan (s : State) : State :=
  let s := nvUpd (s.set F.nvStat_scanDone 1) fun n => { n with torn := n.incomplete.foldr insNat [] }
  if s.nv.torn.isEmpty then s else raise s 82 0

/-- The LSEQ after the newest valid entry of the event log (R404). -/
def logNext (s : State) : Nat :=
  let is_ := ((s.nv.cells.filter fun c => decide (c.1 < 0x20000)).map fun c => c.1 / 32).eraseDups
  is_.foldl (fun n i =>
    let e := memRead s.nv.cells (32 * i) 32
    if leAt e 28 4 = crc32 (e.take 28) then max n ((leAt e 0 4 + 1) % 2 ^ 32) else n) 0

/-- Abandon records kept on the always-on domain join those of the keep set (R389, R792). -/
def abandonLoad (s : State) : State :=
  let s := if s.nv.aonAbandon.isEmpty then s else keepTouch ((abandonNote s s.nv.aonAbandon).bump F.nvAbcnt_lost s.nv.aonLost)
  let s := nvUpd s fun n => { n with aonAbandon := [], aonLost := 0 }
  if s.get F.nvAbcnt_count = 0 then s else raise s 83 0

/-- The keep set (R91); with no valid pair none is restored and keep RAM starts at 0. The force causes that the always-on domain
holds stand in every case (R31, R669). Answers whether a pair was restored. -/
def keepStart (s : State) : Bool × State :=
  let old := s
  let (ok, s) := ledRestore s
  let s := if ok then s else keepLoad s []
  (ok, if old.pm.aonNew then s
       else [K.tamper, K.decom, K.tampIn].foldl (fun s k =>
         if kGet s k 1 = kGet old k 1 then s else kPut s k 1 (kGet old k 1)) s)

/-- A device record loaded as register words, in the order of its layout (R394). -/
def loadRec (s : State) (d : RecDesc) (ws : List Nat) : State :=
  match recLoad s d with
  | (some p, s) => loadWords s ws p
  | (none, s) => s

/-- Records 0x0006 and 0x0007: Cloade and radio settings. -/
def recCloadeWords : List Nat := [W.cldCfg, W.cldWakemaskLo, W.cldWakemaskHi]
def recRadioWords : List Nat :=
  [W.rfCtrl, W.rfAntmap] ++ (List.range 8).flatMap fun n => [W.rfProfW0 n, W.rfProfW1 n, W.rfProfW2 n, W.rfProfW3 n]

/-- Record 0x0002; HOST_EN and DEADTIME keep their reset values (Tables 2.8 and 2.10). -/
def loadSaddle (s : State) : State :=
  ((loadRec s recSaddle recSaddleWords).set F.sadCtrl_hostEn 0).setW W.sadPulse (resetWord W.sadPulse)

/-- Record 0x0007; CW_EN keeps its reset value (Table 7.8). -/
def loadRadio (s : State) : State := (loadRec s recRadio recRadioWords).set F.rfCtrl_cwEn 0

/-- The groups of record 0x0040; every EPOCH and REVOKE_AT is 0 (R449, R450). -/
def loadGroups (s : State) : State :=
  match recLoad s recGroups with
  | (none, s) => s
  | (some p, s) =>
    (List.range 256).foldl (fun (s : State) g =>
      let b := slice p (21 * g) 21
      let new : Group := ⟨leAt b 0 1 == 1, 0, 0, leAt b 1 2, (List.range 16).map fun k => leAt b (5 + k) 1⟩
      { s with sw := { s.sw with groups := sputD Group.zero s.sw.groups g new } }) s

/-- Basin's partition sizes (R454). -/
def loadBasin (s : State) : State :=
  match recLoad s recBasin with
  | (none, s) => s
  | (some p, s) =>
    let sizes := (List.range 5).map fun n => leAt p (4 * n) 4
    let s := (List.range 5).foldl (fun (s : State) n => s.set ⟨W.bsnPart0 + 4 * n, 5, 0⟩ (sizes.getD n 0)) s
    bsnUpd s fun b => { b with size := (List.range 5).map fun n => s.get ⟨W.bsnPart0 + 4 * n, 5, 0⟩ }

/-- The ledger's settings (R796): with no keep set restored NET and METER_K are those of the record, or the factory's. -/
def loadLedger (s : State) (restored : Bool) : State :=
  let (p, s) := recLoad s recLedger
  let ctrl := (p.map fun b => BitVec.ofNat 32 (leAt b 0 4)).getD (resetWord W.ledCtrl)
  let s := ledUpd (if restored then s else s.setW W.ledCtrl ctrl) fun l => { l with recCtrl := ctrl }
  match p with
  | some b => s.setW W.ledLowmark (BitVec.ofNat 32 (leAt b 4 4))
  | none => s

/-- The settings records, each with its first read's repair (R394). -/
def loadRecords (s : State) (restored : Bool) : State :=
  let s := loadRec s recNv recNvWords
  let s := match recLoad s recSystem with
    | (some p, s) => recSysLoad s p
    | (none, s) => s
  let s := loadRec (loadSaddle s) recCloade recCloadeWords
  let s := loadBasin (loadGroups (loadRec (loadRadio s) recSwitch recSwitchWords))
  let s := loadLedger s restored
  [recProx, recCoilMap, recCoilProg, recDomain, recRegBlock, recEvents, recSec].foldl (fun s d => (recLoad s d).2) s

/-- P8 is down in set-up with every ring's sub-port, P12 is down until the core runs, P9 and P10 until their links are up
(Table 12.8); a port with EN 0 is down. -/
def portsStart (s : State) : State :=
  let s := (List.range 16).foldl (fun (s : State) p =>
    if !s.on (F.swPCtrl_en p) || p == 8 || p == 9 || p == 10 || p == 12 then s.set (F.swPStat_down p) 1 else s) s
  s.set (F.swPSdown_sub 8) 0xFFFF

/-- What the always-on domain has kept to tell: the wake that started this device (R647, R648), and a hold-up (R656). -/
def startTells (s : State) : State :=
  let s := match s.pm.wake with
    | none => s
    | some w =>
      let s := ((s.set F.pmLastentry_result 5).set F.pmLastentry_wakesrc w).set F.pmLastentry_mode s.pm.mode
      pmNote s w
  let s := if s.pm.holdSeen then raise s 122 2 else s
  pmUpd s fun p => { p with wake := none, holdSeen := false, aonNew := false }

/-- Step 4 of Table 19.3. -/
def startConfig (s : State) : State :=
  let lost := s.pm.aonNew
  let (restored, s) := keepStart s
  let s := regLoad (coilLoad (loadRecords s restored))
  let s := ledStart s restored lost
  let s := ptLoad (dutyLoad (prxStart (cphBootStart s restored)))
  let s := secLoad (domainLoad (rootGenerate s))
  let s := sadStart (abandonLoad s)
  let s := plStart (portsStart s)
  let s := ledEval (s.set F.clkStat_cfgDone 1)
  holdEval (rtcSource (startTells (secFinish s)))

-- Boot ROM (R674–R676) --------------------------------------------------------------------------------------------------------------

/-- The core fetches its first instruction: P12 comes up (R602). -/
def coreFetches (s : State) : State :=
  if s.iv.fetched then s else swPortComesUp { s with iv := { s.iv with fetched := true } } 12

/-- Authentication of the image, then handover or recovery. AUTH_US is a free value. -/
def bootAuth (s : State) : State :=
  if !s.on F.ivcCtrl_run then s
  else
    let s := coreFetches s
    let h := memRead s.nv.cells 0xC0000 128
    let (t, s) := s.draw
    let s := s.set F.clkBoot_authUs t
    if fwSealed s h then
      let w16 := bitOf (leAt h 17 1) 0
      let s := (s.set F.clkBoot_result 1).setB F.clkBoot_wide16 w16
      { s with iv := { s.iv with pc := BitVec.ofNat 32 (leAt h 8 4), core := if w16 then wPut s.iv.core 8 8 0 else s.iv.core } }
    else
      let r := if fwHdrOk s h then 3 else 2
      let s := logAppend1 (raise (s.set F.clkBoot_result r) 122 5) 122 r 0 []
      secUpd { s with iv := { s.iv with core := wPut s.iv.core 9 9 1 } } fun x => { x with recovery := true }

/-- DEVICE_START (R671–R677): HOSTSEL as strapped, whether XTAL oscillates well, and the coil groups without supply
(R759). -/
def execClkDeviceStart (hostsel xtalOk : Bool) (unfed : Nat) (s : State) : Host.Outcome State Fault Refusal :=
  .next <|
    if s.on F.clkStat_cfgDone || s.get F.pmStat_current != 4 then s
    else
      let s := if s.get F.clkRstcause_cause ≤ 2 then hstUpd s fun h => { h with qspi := hostsel } else s
      let s := evLoad (rngStart (fuseShow s))
      let s := nvUpd s fun n => { n with lseq := logNext s }
      let s := nvScan (s.setB F.clkStat_xtalOk xtalOk)
      let s := startClock (nvKick (startConfig s))
      let s := (List.range 6).foldl (fun s g => if bitOf unfed g then groupDownOp s g true false false 0 else s) s
      bootAuth s

end Sys2Proof.Machine
end

