-- ==== Sys2Proof/Machine/IvBase.lean ====
section
/-! DEFINITION. The Ivler core below its instructions (16_ivler_core.md): core reset (R602), CORESTAT (R585), the receive rings
and the transmit engine (R597–R599), the watchdog (R601) and loads that get their data late (R366, R384). -/

namespace Sys2Proof.Machine

def ivUpd (s : State) (f : Iv → Iv) : State := { s with iv := f s.iv }

/-- A general register. -/
def ivReg (s : State) (r : Nat) : W32 := wGet s.iv.w r
def ivSetReg (s : State) (r : Nat) (v : W32) : State := ivUpd s fun c => { c with w := wSet c.w r v }

/-- CORESTAT written by an instruction: WLOCK is read-only and holds WIDE at 1 (R585), bits 31:13 are reserved. -/
def coreWrite (old v : W32) : W32 :=
  let v := wPut (wPut v 31 13 0) Cs.wlock Cs.wlock (wBits old Cs.wlock Cs.wlock)
  if csBit old Cs.wlock then csPut v Cs.wide true else v

def ivSetCore (s : State) (v : W32) : State := ivUpd s fun c => { c with core := coreWrite c.core v }

-- SRAM ------------------------------------------------------------------------------------------------------------------

abbrev sramBase : Nat := 0x10000000
abbrev sramSize : Nat := 0x80000

/-- A range of addresses in SRAM. -/
def inSram (a n : Nat) : Bool := decide (sramBase ≤ a) && decide (a + n ≤ sramBase + sramSize)

/-- One byte at an address of the core, if SRAM holds it. -/
def sramPut (s : State) (a : Nat) (b : Byte) : State :=
  if inSram a 1 then ivUpd s fun c => { c with sram := memPut c.sram (a - sramBase) b } else s

-- Core reset (R602) ---------------------------------------------------------------------------------------------------------

/-- A frame that P12 has not accepted whole when it goes down (R442). -/
def ivFlush (s : State) (f : Frame) : State := if f.mc then s else swCompleteFrame s f St.portDown

/-- A core reset with its RESET_CAUSE. W0 to W15, SRAM, bit RAM and the debug port's halt stay; P12 is down until the first
instruction is fetched. -/
def ivReset (s : State) (cause : Nat) : State :=
  let ws := s.iv.qWait
  let s := ivUpd s fun c =>
    { State.reset.iv with w := c.w, sram := c.sram, bits := c.bits, halted := c.halted, kicked := s.now }
  let s := rngUpd s fun r => { r with waits := r.waits.filter fun w => match w with
    | .read false _ => false
    | _ => true }
  let s := (((s.set F.ivcStat_txerr 0).set F.ivcStat_overrun 0).set F.ivcStat_resetCause cause).set F.ivcWdt_lock 0
  let s := (List.range 16).foldl (fun (s : State) n => s.set (F.ivcQCfg_en n) 0) s
  ws.foldl (fun s w => ivFlush s w.2) (cphPortDown (swPortGoesDown s 12) fun o => o.ext && o.b == 12)

/-- IVC_CTRL.RUN written (R602, R603): 0 resets the core and holds it, 1 lets it run. -/
def ivRunOp (s : State) (v : Bool) : State :=
  if v == s.on F.ivcCtrl_run then s
  else if v then s.set F.ivcCtrl_run 1
  else ivReset (s.set F.ivcCtrl_run 0) 1

-- Receive rings (R597, R598) --------------------------------------------------------------------------------------------------

/-- Bytes of ring n between HEAD and TAIL. -/
def qUsed (s : State) (n : Nat) : Nat :=
  let size := ivcRing s n
  (s.get (F.ivcQTail_tail n) % size + size - s.get (F.ivcQHead_head n) % size) % size

/-- The frame and its padding written at TAIL, wrapping at the ring's end. -/
def qPut (s : State) (n : Nat) (bs : List Byte) : State :=
  let size := ivcRing s n
  let t := s.get (F.ivcQTail_tail n) % size
  let s := bs.zipIdx.foldl (fun s x => sramPut s (ivcBase s n + (t + x.2) % size) x.1) s
  s.set (F.ivcQTail_tail n) ((t + bs.length) % size)

/-- Whether the ring takes the frame now, and the state with it taken: a frame longer than the ring is discarded, TAIL never
meets HEAD. -/
def qTake (s : State) (n : Nat) (f : Frame) : Option State :=
  let bs := frameBytes f
  if !s.on (F.ivcQCfg_en n) then none
  else if ivcRing s n < bs.length then
    some (if f.mc || 0x80 ≤ f.typ then s else complete s 12 n (frameReq f) f.typ [byte St.badDescriptor])
  else
    let pad := (16 - bs.length % 16) % 16
    if ivcRing s n ≤ qUsed s n + bs.length + pad then none
    else
      let (p, s) := s.drawBytes pad
      some (qPut s n (bs ++ p))

/-- Frames that wait for ring n go in, oldest first, as far as there is room. -/
def qRetry : Nat → State → Nat → State
  | 0, s, _ => s
  | k + 1, s, n =>
    match s.iv.qWait.find? fun w => w.1 == n with
    | none => s
    | some w =>
      match qTake s n w.2 with
      | none => s
      | some s => qRetry k (ivUpd s fun c => { c with qWait := c.qWait.erase w }) n

def qServe (s : State) (n : Nat) : State := qRetry s.iv.qWait.length s n

/-- A frame for P12 sub-port n: written whole, or it waits. -/
def qArrive (s : State) (n : Nat) (f : Frame) : State := qServe (ivUpd s fun c => { c with qWait := c.qWait ++ [(n, f)] }) n

/-- A write of IVC_Qn_CFG (R598): SIZE is fixed while EN is 1; setting EN empties the ring. -/
def qCfgWrite (s : State) (n : Nat) (v : W32) : State :=
  let was := s.on (F.ivcQCfg_en n)
  let s := if was then s else s.set (F.ivcQCfg_size n) (wBits v 3 0)
  let s := (s.set (F.ivcQCfg_en n) (wBits v 4 4)).set (F.ivcQCfg_level n) (wBits v 7 5)
  if wBits v 4 4 = 1 ∧ was = false then qServe ((s.set (F.ivcQHead_head n) 0).set (F.ivcQTail_tail n) 0) n else s

-- The transmit engine (R599) --------------------------------------------------------------------------------------------------

/-- IVC_TXCTL with GO. -/
def txGo (s : State) (len queue : Nat) : State :=
  let a := s.get F.ivcTxaddr_addr / 4 * 4
  if s.iv.tx.isSome then s.set F.ivcStat_overrun 1
  else if len < 16 || !inSram a len then s.set F.ivcStat_txerr 1
  else
    let s := (s.set F.ivcStat_txerr 0).set F.ivcStat_overrun 0
    ivUpd s fun c => { c with tx := some (queue, memRead c.sram (a - sramBase) len) }

/-- The engine has read the last byte: the frame enters the switch by P12 with FH_LEN and FH_HCRC made good. -/
def txDone (s : State) : State :=
  match s.iv.tx with
  | none => s
  | some (q, bs) => swIngress (ivUpd s fun c => { c with tx := none }) 12 q (thisDev s) (hdrRsvOk bs) (frameOf bs)

-- The watchdog (R601) -----------------------------------------------------------------------------------------------------------

/-- IVC_WDKICK. -/
def wdKick (s : State) (key : Nat) : State := if key = 0x5A then ivUpd s fun c => { c with kicked := s.now } else s

/-- IVC_WDT: with LOCK set, TIMEOUT and LOCK ignore the write. -/
def wdtWrite (s : State) (v : W32) : State :=
  if s.on F.ivcWdt_lock then s
  else
    let s := ivUpd (s.set F.ivcWdt_timeout (wBits v 15 0)) fun c => { c with kicked := s.now }
    if wBits v 16 16 = 1 then s.set F.ivcWdt_lock 1 else s

-- Late loads ------------------------------------------------------------------------------------------------------------------------

/-- A late load gets its data: into its register, or as a CRC step with the address advanced (R626, R627). -/
def loadDone (s : State) (l : IvLoad) (x : Nat) : State :=
  let s := ivUpd s fun c => { c with load := none }
  match l.crc with
  | none => ivSetReg s l.rd (extWord l.sgn (8 * l.size) x)
  | some ra =>
    let v := crcStep s.iv.crw.toNat s.iv.crp.toNat (ivReg s l.rd).toNat x l.size
    ivSetReg (ivSetReg s l.rd (BitVec.ofNat 32 v)) ra (ivReg s ra + BitVec.ofNat 32 l.size)

/-- A load from the NV window gets its data once no page of it is being written (R384). -/
def loadSettle (s : State) : State :=
  match s.iv.load with
  | none => s
  | some l => if l.rng.isSome || nvPageBusy s l.addr l.size then s else loadDone s l (leNat (memRead s.nv.cells l.addr l.size))

end Sys2Proof.Machine
end

