-- ==== Sys2Proof/Machine/RegWrite.lean ====
section
/-! DEFINITION. A write to a set-up register by any path (R13, R787–R791): each field under its access code (Table 0.1) and the
rules of its own chapter, the refused ones under R525, and what the written command bits start; and reads that have an
effect. -/

namespace Sys2Proof.Machine

/-- Blocks that stop (Table 25.1). -/
def stoppable (blk : Nat) : Bool := decide (12 ≤ blk) && decide (blk ≤ 38) && blk % 2 == 0

/-- The extent of the block with this management sub-port holds the offset (Table 25.1). -/
def extentHolds (blk off : Nat) : Bool := offBlk off == blk && decide (off < 0xB000)

-- Judging a field ---------------------------------------------------------------------------------------------------------

/-- BLANK or PROVISIONED. -/
def early (s : State) : Bool := decide (s.get F.secStat_lc ≤ 1)

/-- The field's own chapter bars the write now (R51, R97, R247, R254, R297, R728). -/
def fieldBarred (s : State) (off lo : Nat) : Bool :=
  if 0x8100 ≤ off ∧ off < 0x8300 then !early s
  else if off = W.ledCtrl then !early s
  else if off = W.prxCtrl then lo == 1 && !early s
  else if 0x5820 ≤ off ∧ off < 0x5850 then !early s
  else if off = W.rfRegdata ∨ (0x5100 ≤ off ∧ off < 0x5180) then s.sec.regLock
  else if off = W.secTampcfg then !early s
  else false

/-- A write to the field is refused. -/
def fieldRefused (s : State) (off : Nat) (f : FieldSpec) : Bool :=
  match f.acc with
  | .so => !isStopped s (offBlk off) || fieldBarred s off f.lo
  | .rw | .w1s => fieldBarred s off f.lo
  | _ => false

/-- What an accepted write leaves in the field (Table 0.1). -/
def fieldNew (acc : Acc) (old new : Nat) : Nat :=
  match acc with
  | .rw | .so => new
  | .w1c => old - (old &&& new)
  | .w1s => old ||| new
  | .ro | .wo | .rsv => old

/-- The word with one field written, unless refused. -/
def fieldPut (s : State) (off : Nat) (v w : W32) (f : FieldSpec) : W32 :=
  if fieldRefused s off f then w else wPut w f.hi f.lo (fieldNew f.acc (wBits w f.hi f.lo) (wBits v f.hi f.lo))

/-- The word after the accepted fields took their values (R13). -/
def wordPut (s : State) (r : RegSpec) (off : Nat) (v : W32) : W32 := r.flds.foldl (fieldPut s off v) (s.getW off)

/-- Some field of the word is refused. -/
def wordRefused (s : State) (r : RegSpec) (off : Nat) : Bool := r.flds.any (fieldRefused s off)

/-- The stored word written field by field. -/
def wordWrite (s : State) (r : RegSpec) (off : Nat) (v : W32) : State := s.setW off (wordPut s r off v)

-- Register blocks with rules of their own -------------------------------------------------------------------------------------

/-- Firmware in the sense of R790. -/
def srcIsFw (src : Src) : Bool := !srcIsHost src

/-- The ID and HR blocks, from the host (R494–R500). -/
def hostRegWrite (s : State) (r : RegSpec) (off : Nat) (v : W32) : State :=
  if off = W.idDrvstat then
    let s := if v.getLsbD 0 then featuresOp s else s
    let s := if v.getLsbD 1 then driverOkOp s else s
    if v.getLsbD 2 then hostSetup s else s
  else if W.idFeatDrv 0 ≤ off ∧ off ≤ W.idFeatDrv 3 then
    if s.on F.idDrvstat_features then s else s.setW off v
  else if off = W.hrEqBaseLo ∨ off = W.hrEqBaseHi then if s.on F.hrEqCfg_en then s else s.setW off v
  else if off = W.hrEqCfg then eqCfgWrite s v
  else if 0x500 ≤ off ∧ off < 0x900 then
    let n := (off - 0x500) / 0x40
    let k := (off - 0x500) % 0x40
    if k = 8 then sqCfgWrite s n v
    else if k = 0x18 then cqCfgWrite s n v
    else if k < 8 then (if s.on (F.hrSqCfg_en n) then s else s.setW off v)
    else if 0x10 ≤ k ∧ k < 0x18 then (if s.on (F.hrCqCfg_en n) then s else s.setW off v)
    else s
  else wordWrite s r off v

/-- IVC_TXCTL. -/
def txctlWrite (s : State) (v : W32) : State := if v.getLsbD 20 then txGo s (wBits v 15 0) (wBits v 19 16) else s

/-- The IVC block (R603): IVC_CTRL from the host, the rest from firmware through its window or the debug port. -/
def ivcRegWrite (s : State) (src : Src) (r : RegSpec) (off : Nat) (v : W32) : State :=
  if off = W.ivcCtrl then (if srcIsHost src then ivRunOp s (v.getLsbD 0) else s)
  else if src ≠ .fw ∧ src ≠ .debug then s
  else if off = W.ivcWdt then wdtWrite s v
  else if off = W.ivcWdkick then wdKick s (wBits v 7 0)
  else if off = W.ivcTxctl then txctlWrite s v
  else if 0xA900 ≤ off then
    let n := (off - 0xA900) / 0x10
    let k := (off - 0xA900) % 0x10
    if k = 0 then (if s.on (F.ivcQCfg_en n) then s else s.setW off v)
    else if k = 4 then qCfgWrite s n v
    else qServe (wordWrite s r off v) n
  else wordWrite s r off v

-- What a written word starts -------------------------------------------------------------------------------------------------------

/-- Run `f` if bit `b` of the word is 1. -/
def onBit (v : W32) (b : Nat) (f : State → State) (s : State) : State := if v.getLsbD b then f s else s

/-- COIL_CMD (Table 4.7): MAP_SAVE is refused while stopped or stopping (R120), bits 5 to 7 with CH 48 and above. -/
def coilCmdWrite (s : State) (src : Src) (v : W32) : State :=
  let ch := wBits v 21 16
  let badCh := decide (48 ≤ ch) && wBits v 7 5 != 0
  let badSave := v.getLsbD 1 && noNewWork s 16
  let s := onBit v 0 mapFullOp s
  let s := if badSave then s else onBit v 1 (fun s => mapSaveOp s src) s
  let s := onBit v 4 (fun s => progSaveOp s src) (onBit v 3 progHaltOp (onBit v 2 progStartOp s))
  let s := if badCh then s
    else onBit v 7 (fun s => coilCmdOp s src ch 5 0) (onBit v 6 (fun s => coilCmdOp s src ch 4 3) (onBit v 5 (fun s => coilCmdOp s src ch 4 0) s))
  if badCh || badSave then cfgReject s src W.coilCmd else s

/-- SAD_CMD (Table 2.10). -/
def sadCmdWrite (s : State) (src : Src) (v : W32) : State :=
  let s := onBit v 0 (fun s => if srcIsHost src && !s.on F.sadCtrl_hostreqEn then s else sadRelease s none) s
  let s := onBit v 1 (fun s => sadPost s (.endReq none)) s
  let s := onBit v 2 sadForceClear s
  let s := onBit v 3 (savePolicyOp src) s
  onBit v 4 sadRecheck s

/-- SW_CMD and SW_MGCMD (Table 12.9). -/
def swCmdWrite (s : State) (src : Src) (v : W32) : State :=
  let s := onBit v 0 (fun s => stopBlock s 12) s
  let s := onBit v 1 (fun s => match swRestart s with
    | (true, s) => fenceRun s
    | (false, s) => cfgReject s src W.swCmd) s
  onBit v 3 swClrCntOp (onBit v 2 (fun s => swSaveOp s src) s)
def mgCmdWrite (s : State) (src : Src) (v : W32) : State :=
  let g := wBits v 7 0
  let s := onBit v 8 (fun s => mgReadOp s g) s
  onBit v 9 (fun s => match mgWriteOp s g (v.getLsbD 10) with
    | (true, s) => s
    | (false, s) => cfgReject s src W.swMgcmd) s

/-- NV_CMD (Table 11.10): ignored while a command is pending; else bits 0 to 3 in order, each meeting the command before it
(R406). -/
def nvCmdWrite (s : State) (src : Src) (v : W32) : State :=
  nvCmdGate s fun s =>
  let s := (List.range 4).foldl (fun s b => onBit v b (fun s => nvRegCmd s b src) s) s
  onBit v 6 (fun s => nvSaveCfgOp s src) (onBit v 5 (fun s => s.setW W.nvCnt 0#32) (onBit v 4 scrubStart s))

/-- CLK_CTRL: SYSPLL_EN and SEL act when written 1 (R664); the RTC source follows RTC_LFRC. -/
def clkCtrlWrite (s : State) (v : W32) : State :=
  let s := rtcSource ((s.set F.clkCtrl_rtcLfrc (wBits v 2 2)).set F.clkCtrl_xinClipped (wBits v 3 3))
  onBit v 1 selOp (onBit v 0 syspllEn s)

/-- SW_Pn_CTRL.EN written (Table 12.8): 1 lifts this down cause, where no other stands. -/
def portEnWrite (s : State) (p : Nat) (was : Bool) : State :=
  let now_ := s.on (F.swPCtrl_en p)
  if was == now_ then s
  else if now_ then
    if p = 8 then p8Up s
    else if p = 9 ∨ p = 10 then (if plUp s (p - 9) then swPortComesUp s p else s)
    else if p = 12 then (if s.iv.fetched then swPortComesUp s p else s)
    else swPortComesUp s p
  else if p = 8 then p8Down s
  else cphPortDown (swPortGoesDown s p) fun o => if o.ext then o.b == p else o.a == p

/-- A policy slot's first word: EN is left 0 where R52 refuses it. -/
def slotEnWrite (s : State) (src : Src) (off : Nat) : State :=
  let n := (off - 0x8100) / 0x40
  if (s.getW off).getLsbD 0 && !slotOk (slotWords s n) then cfgReject (s.setW off (wPut (s.getW off) 0 0 0)) src off else s

/-- The commands and side effects of an accepted word, after its fields are written; `old` is the state before. -/
def regAfter (old s : State) (src : Src) (off : Nat) (v : W32) : State :=
  if off < 0x2000 then
    if off = W.evCmd then onBit v 1 evOccClr (onBit v 0 (fun s => evSaveOp s src) s)
    else if off = W.evTmr then { s with ev := { s.ev with tmrStart := [s.now, s.now] } }
    else if off = W.snpCmd then
      onBit v 2 (fun s => s.setW W.snpCnt 0#32) (onBit v 1 (fun s => s.set F.snpStat_armed 1) (onBit v 0 (fun s => snapTrigger s 1) s))
    else if off = W.arbCmd then onBit v 0 (fun s => (s.setW W.arbCnt 0#32).setW W.arbPeak 0#32) s
    else if off = W.arbCoilbud then arbBudget s
    else s
  else if off < 0x3800 then
    if off = W.clkRst then (if wBits v 15 8 = 0x3C then onBit v 0 (fun s => resetAsk s 6) s else s)
    else if off = W.swCmd then swCmdWrite s src v
    else if off = W.swMgcmd then mgCmdWrite s src v
    else if 0x3100 ≤ off ∧ off < 0x3500 ∧ (off - 0x3100) % 0x40 = 0 then
      portEnWrite s ((off - 0x3100) / 0x40) (old.on (F.swPCtrl_en ((off - 0x3100) / 0x40)))
    else s
  else if off < 0x5000 then
    if off = W.bsnCmd then
      onBit v 3 bsnClrCntOp (onBit v 2 bsnCapFlushOp (onBit v 1 (fun s => bsnSaveOp s src) (onBit v 0 (fun s => bsnApplyOp s src) s)))
    else if off = W.dirCmd then dirCmdWrite s (srcPort src) v
    else if off = W.coilCmd then coilCmdWrite s src v
    else if 0x4100 ≤ off ∧ off < 0x4700 ∧ (off - 0x4100) % 0x20 = 0 then
      let n := (off - 0x4100) / 0x20
      if s.on (F.coilChCtrl_follow n) then s else coilUpd s fun c => { c with fact := sdel c.fact n }
    else if off = W.cldCmd then onBit v 0 (fun s => (s.setW W.cldCnt0 0#32).setW W.cldCnt1 0#32) s
    else s
  else if off < 0x7000 then
    if off = W.rfCmd then
      let s := onBit v 1 (fun s => regLockOp s src (wBits v 15 8)) (onBit v 0 (fun s => regSaveOp s src) s)
      let s := onBit v 2 (fun s => rfUpd s fun x => { x with cache := [] }) s
      onBit v 3 (fun s => ((s.setW W.rfCnt0 0#32).setW W.rfCnt1 0#32).setW W.rfDcstat 0#32) s
    else if off = W.prxCmd then
      onBit v 1 (fun s => prxSaveOp s src) (onBit v 0 (fun s => (s.setW W.prxCnt0 0#32).setW W.prxCnt1 0#32) s)
    else if off = W.cphCmd then onBit v 0 (fun s => (s.setW W.cphCnt0 0#32).setW W.cphCnt1 0#32) s
    else if off = W.rngCtrl then rngServe s
    else if off = W.rngCmd then
      onBit v 2 (fun s => (s.setW W.rngFailcnt 0#32).setW W.rngRscnt 0#32) (onBit v 1 rngRestartOp (onBit v 0 (fun s => s.set F.rngStat_stallTo 0) s))
    else s
  else if off < 0x8800 then
    if off = W.nvCmd then nvCmdWrite s src v
    else if off = W.ptCmd then
      let pg := wBits v 14 8
      onBit v 2 (fun s => ptCmdOp s src 2 0) (onBit v 1 (fun s => ptCmdOp s src 1 pg) (onBit v 0 (fun s => ptCmdOp s src 0 pg) s))
    else if off = W.sadCmd then sadCmdWrite s src v
    else if 0x8100 ≤ off ∧ off < 0x8300 ∧ (off - 0x8100) % 0x40 = 0 then
      if isStopped old 32 && early old then slotEnWrite s src off else s
    else s
  else
    if off = W.ledCmd then onBit v 0 (fun s => ckptStart s true) s
    else if off = W.ledCtrl ∨ off = W.ledLowmark ∨ off = W.ledGcap then
      if !isStopped old 34 || (off == W.ledCtrl && !early old) then s
      else
        ledRegChanged s off
    else if off = W.plCtrl then plRoleChange old s
    else if off = W.plCmd then onBit v 2 plClrCntOp (onBit v 1 plRerouteOp (onBit v 0 plEnumCmdOp s))
    else if off = W.vioCmd then onBit v 0 (fun s => (s.setW (W.vioCanCnt 0) 0#32).setW (W.vioCanCnt 1) 0#32) s
    else if off = W.secTamp then onBit v 8 (fun s => tamperClearWrite s src) s
    else s

/-- Registers whose write is an operation of its own. -/
def regSpecial (s : State) (src : Src) (off : Nat) (v : W32) : Option State :=
  if off = W.pmMode then some (pmTarget s (wBits v 2 0))
  else if off = W.pmAlarm then some (alarmWrite s v)
  else if off = W.clkCtrl then some (clkCtrlWrite s v)
  else if off = W.nvProt then some (nvProtOp s false src (wBits v 1 0))
  else if off = W.coilMapdata ∨ off = W.coilPgdata ∨ off = W.rfRegdata ∨ (0x5100 ≤ off ∧ off < 0x5180) then
    if fieldRefused s off ⟨31, 0, .so, 0⟩ then some (cfgReject s src off)
    else if off = W.coilMapdata then some (mapdataWrite s v)
    else if off = W.coilPgdata then some (pgdataWrite s v)
    else if off = W.rfRegdata then some (regdataWrite s v)
    else some (pwrtabWrite s ((off - 0x5100) / 4) v)
  else none

/-- A write of a word to a set-up register. -/
def regWrite (src : Src) (s : State) (off : Nat) (v : W32) : State :=
  match regSpec off with
  | none => s
  | some r =>
    if off < 0x1000 then (if srcIsHost src then hostRegWrite s r off v else s)
    else if 0xA800 ≤ off then ivcRegWrite s src r off v
    else
      match regSpecial s src off v with
      | some s => s
      | none =>
        let t := regAfter s (wordWrite s r off v) src off v
        if wordRefused s r off && t.hst.rejNo == s.hst.rejNo then cfgReject t src off else t

-- Reads with an effect -----------------------------------------------------------------------------------------------------------

/-- The host's read of RNG_DATA or RNG_RAW in QSPI mode: without data it returns 0 with STALL_TO (R367). -/
def rngReadNow (s : State) (raw : Bool) : W32 × State :=
  let s := rngRead s true raw
  (s.getW (if raw then W.rngRaw else W.rngData), s)

/-- A read of a set-up register, with what it changes: the random number ports, SNP_STAT (R693) and the indexed windows,
whose index moves on. Reads of the random number ports that may wait go their own ways (R354). -/
def regReadFx (src : Src) (s : State) (off : Nat) : W32 × State :=
  if off = W.rngData then rngReadNow s false
  else if off = W.rngRaw then rngReadNow s true
  else
    let w := regRead src s off
    if off = W.snpStat then (w, snpStatRead s)
    else if off = W.coilMapdata then (w, s.set F.coilMapidx_idx (s.get F.coilMapidx_idx / 4 * 4 + 4))
    else if off = W.coilPgdata then (w, s.set F.coilPgidx_idx (s.get F.coilPgidx_idx / 4 * 4 + 4))
    else if off = W.rfRegdata then (w, s.set F.rfRegidx_idx (s.get F.rfRegidx_idx / 4 * 4 + 4))
    else (w, s)

/-- Set-up registers answer the host: the configuration is loaded (R672) and the block runs. -/
def regOpen (s : State) : Bool :=
  s.on F.clkStat_cfgDone && decide (4 ≤ s.get F.pmStat_current) && decide (s.get F.pmStat_current ≤ 6)

/-- REGISTER_WRITE (R13, R789): one aligned word, with its byte enables when it comes from BAR0. -/
def execRegisterWrite (src : Src) (off be : Nat) (v : W32) (s : State) : Host.Outcome State Fault Refusal :=
  .next <|
    if !regOpen s || off % 4 ≠ 0 then s
    else if src = .host ∧ be ≠ 15 then cfgReject s src off
    else regWrite src s off v

end Sys2Proof.Machine
end

