-- ==== Sys2Proof/Machine/IvMem.lean ====
section
/-! DEFINITION. What the Ivler core reaches (16_ivler_core.md): the memory regions of Table 16.3, the bit space (R568–R570), the
special registers (Table 16.1), the data stack (R571) and the return stack with its spill (R572–R575). -/

namespace Sys2Proof.Machine

-- Regions (Table 16.3) ------------------------------------------------------------------------------------------------------

inductive IvRegion where
  | rom | sram | keep | nv | window | basin | outside
  deriving DecidableEq, Repr

/-- The region that holds `n` bytes from an address. -/
def ivRegion (a n : Nat) : IvRegion :=
  let within := fun base size => decide (base ≤ a) && decide (a + n ≤ base + size)
  if a + n ≤ 0x10000 then .rom
  else if inSram a n then .sram
  else if within 0x20000000 0x1000 then .keep
  else if within 0x30000000 0x100000 then .nv
  else if within 0x40000000 0x10000 then .window
  else if within 0x80000000 0x4000000 then .basin
  else .outside

/-- Bytes of the boot ROM. -/
def romBytes (a n : Nat) : List Byte := (List.range n).map fun i => byte (Config.bootRom (a + i))

/-- The Basin offset lies in partition `p` (Table 13.1). -/
def inPart (s : State) (p o : Nat) : Bool :=
  decide (0x100000 * partBase s p ≤ o) && decide (o < 0x100000 * (partBase s p + s.bsn.size.getD p 0))

/-- Cycles of an access (R631); the window's and Basin's times are free within their bounds, and matter only while a multiply
is in flight. -/
def ivCycles (s : State) (r : IvRegion) : Nat × State :=
  let free := fun lo n =>
    if s.iv.mul.isEmpty && s.iv.mulReg.isEmpty then (lo, s)
    else
      let (x, s) := s.draw
      (lo + x % n, s)
  match r with
  | .keep => (1, s)
  | .nv => (12, s)
  | .window => free 0 250
  | .basin => free 29 91
  | _ => (0, s)

/-- What a load gets: a value, nothing yet (from the random number unit's raw port or not; or `none` from the NV window), or a
fault. -/
inductive IvGot where
  | val (x : Nat) (s : State)
  | late (rng : Option Bool) (addr : Nat) (s : State)
  | fault

/-- A read of a set-up register through the window (R566). -/
def winGet (s : State) (off : Nat) : IvGot :=
  if off = W.rngData ∨ off = W.rngRaw then
    let raw := decide (off = W.rngRaw)
    let w := RngWait.read false raw
    match rngTry s w with
    | (none, s) => .val (s.getW off).toNat s
    | (some _, s) => .late (some raw) 0 (rngUpd s fun r => { r with waits := r.waits ++ [w] })
  else
    let (w, s) := regReadFx .fw s off
    .val w.toNat s

/-- A load of 1, 2 or 4 bytes from an aligned address. -/
def ivGet (s : State) (a n : Nat) : IvGot :=
  match ivRegion a n with
  | .rom => .val (leNat (romBytes a n)) s
  | .sram => .val (leNat (memRead s.iv.sram (a - sramBase) n)) s
  | .keep => .val (leNat (memRead (keepSynced s) (a - 0x20000000) n)) s
  | .nv =>
    let o := a - 0x30000000
    if nvPageBusy s o n then .late none o s else .val (leNat (memRead s.nv.cells o n)) s
  | .window => if n = 4 then winGet s (a - 0x40000000) else .fault
  | .basin =>
    let o := a - 0x80000000
    if !s.on F.bsnStat_ready then .fault
    else .val (if inPart s 1 o || inPart s 2 o || inPart s 3 o then leNat (memRead s.bsn.mem o n) else 0) s
  | .outside => .fault

/-- A store of 1, 2 or 4 bytes to an aligned address; `none` is a fault. -/
def ivPut (s : State) (a n x : Nat) : Option State :=
  match ivRegion a n with
  | .rom => none
  | .sram => some (ivUpd s fun c => { c with sram := memWrite c.sram (a - sramBase) (leBytes n x) })
  | .keep =>
    let o := a - 0x20000000
    some (if 0x600 ≤ o ∧ o < 0xA00 then kPutBytes s o (leBytes n x) else s)
  | .nv => none
  | .window => if n = 4 then some (regWrite .fw s (a - 0x40000000) (BitVec.ofNat 32 x)) else none
  | .basin =>
    let o := a - 0x80000000
    if !s.on F.bsnStat_ready then none
    else some (if inPart s 2 o then bsnUpd s fun b => { b with mem := memWrite b.mem o (leBytes n x) } else s)
  | .outside => none

/-- A halfword may be fetched there. -/
def ivFetchable (a : Nat) : Bool :=
  match ivRegion a 2 with
  | .rom => true | .sram => true | .nv => true | _ => false

-- Bit space (R568–R570, Table 16.4) ------------------------------------------------------------------------------------------

/-- A bit of bit space. -/
def bitGet (s : State) (b : Nat) : Bool :=
  if b < 0x1000 then bitOf (memGet s.iv.bits (b / 8)).toNat (b % 8)
  else if b < 0x1800 then bitOf (evWord s ((b - 0x1000) / 16)) ((b - 0x1000) % 16)
  else if b ≤ 0x180C then csBit s.iv.core (b - 0x1800)
  else if 0x1840 ≤ b ∧ b < 0x1848 then gpLevel s (b - 0x1840)
  else if 0x1848 ≤ b ∧ b < 0x1850 then bitOf (s.get F.vioGpcfg0_out) (b - 0x1848)
  else if 0x1850 ≤ b ∧ b < 0x1854 then bitOf (s.get F.secTamp_level) (b - 0x1850)
  else if b = 0x1854 then s.on F.sadStat_fbClosed
  else if b = 0x1855 then s.on F.pmStat_holdReady
  else if b = 0x1858 then rngReady s false
  else if 0x1860 ≤ b ∧ b < 0x1870 then s.get (F.ivcQTail_tail (b - 0x1860)) != s.get (F.ivcQHead_head (b - 0x1860))
  else if b = 0x1870 then s.iv.tx.isSome
  else false

/-- The bit is one of CORESTAT's (R621). -/
def bitIsCore (b : Nat) : Bool := decide (0x1800 ≤ b) && decide (b ≤ 0x180C)

/-- A write of a bit: bit RAM, a flag cleared by 0 (R569), CORESTAT, or a GP output; any other ignores it. -/
def bitPut (s : State) (b : Nat) (v : Bool) : State :=
  if b < 0x1000 then
    let old := (memGet s.iv.bits (b / 8)).toNat
    ivUpd s fun c => { c with bits := memPut c.bits (b / 8) (byte (if v then setBit old (b % 8) else clrBit old (b % 8))) }
  else if b < 0x1800 then
    let e := (b - 0x1000) / 16
    let k := (b - 0x1000) % 16
    if v || decide (evBits e ≤ k) then s else s.set (evField e k) 0
  else if bitIsCore b then ivSetCore s (csPut s.iv.core (b - 0x1800) v)
  else if 0x1848 ≤ b ∧ b < 0x1850 then
    let old := s.get F.vioGpcfg0_out
    s.set F.vioGpcfg0_out (if v then setBit old (b - 0x1848) else clrBit old (b - 0x1848))
  else s

-- Special registers (Table 16.1) ------------------------------------------------------------------------------------------------

/-- FEAT0 to FEAT3 (Table 16.6). -/
def ivFeat (n : Nat) : W32 :=
  if n = 0 then 0xFF#32
  else if n = 1 then BitVec.ofNat 32 (64 + 16 * 256 + 512 * 65536)
  else if n = 2 then BitVec.ofNat 32 (2 + 250 * 65536)
  else 0#32

/-- A special register as MFS reads it. -/
def srGet (c : Iv) (n : Nat) : W32 :=
  match n with
  | 0 => c.core | 1 => c.dsp | 2 => c.rsp | 3 => c.rsbase | 4 => c.rslim | 5 => c.dslim | 6 => c.rpc
  | 7 => BitVec.ofNat 32 (b2n c.ba) | 8 => c.crp | 9 => c.crw | 10 => c.mdh | 11 => c.mdl
  | 12 => BitVec.ofNat 32 c.tcause | 13 => c.tval | 14 => c.vbase | 15 => BitVec.ofNat 32 c.rs.length
  | n => ivFeat (n - 16)

/-- CRW as written: other widths than 8, 16 and 32 read as 32. -/
def crwOf (v : W32) : W32 := if v = 8#32 ∨ v = 16#32 then v else 32#32

/-- A special register as MTS writes it (R562, R629). -/
def srPut (c : Iv) (n : Nat) (v : W32) : Iv :=
  match n with
  | 0 => { c with core := coreWrite c.core v }
  | 1 => { c with dsp := v } | 2 => { c with rsp := v } | 3 => { c with rsbase := v } | 4 => { c with rslim := v }
  | 5 => { c with dslim := v } | 6 => { c with rpc := v } | 7 => { c with ba := v.getLsbD 0 } | 8 => { c with crp := v }
  | 9 => { c with crw := crwOf v } | 10 => { c with mdh := v } | 11 => { c with mdl := v }
  | 14 => { c with vbase := wPut v 10 0 0 }
  | _ => c

-- The return stack (R572–R575) -----------------------------------------------------------------------------------------------------

/-- Store entries from an address upwards, 8 bytes each: the value, then the tag. -/
def rsStore : State → Nat → List RsEntry → Option State
  | s, _, [] => some s
  | s, a, e :: es =>
    (ivPut s a 4 e.val.toNat).bind fun s => (ivPut s (a + 4) 4 e.tag).bind fun s => rsStore s (a + 8) es

/-- Load `n` entries from an address upwards; the core has waited for an NV page that is being written (`rsBusy`). -/
def rsLoad : Nat → State → Nat → Option (List RsEntry × State)
  | 0, s, _ => some ([], s)
  | n + 1, s, a =>
    let word := fun (s : State) a => match ivGet s a 4 with
      | .val x s => some (x, s)
      | .late none o s => some (leNat (memRead s.nv.cells o 4), s)
      | .late (some _) _ _ => none
      | .fault => none
    (word s a).bind fun (v, s) => (word s (a + 4)).bind fun (t, s) =>
      (rsLoad n s (a + 8)).map fun (es, s) => (⟨BitVec.ofNat 32 v, t % 4⟩ :: es, s)

/-- What a stack operation answers: the state, the cycles it adds, or a trap. -/
inductive RsOut (α : Type) where
  | ok (x : α) (s : State) (cycles : Nat)
  | trap (cause : Nat) (tval : W32)

/-- Push an entry, spilling the 16 oldest first when the stack is full (R573): the newest of them lies lowest. -/
def rsPush (s : State) (e : RsEntry) : RsOut Unit :=
  let push := fun (s : State) => ivUpd s fun c => { c with rs := e :: c.rs }
  if s.iv.rs.length < 64 then .ok () (push s) 0
  else if s.iv.rsp.toNat < s.iv.rslim.toNat + 128 then .trap 10 s.iv.rsp
  else
    let a := s.iv.rsp.toNat - 128
    if a % 4 ≠ 0 then .trap 8 (BitVec.ofNat 32 a)
    else match rsStore s a (s.iv.rs.drop 48) with
      | none => .trap 7 (BitVec.ofNat 32 a)
      | some s => .ok () (push (ivUpd s fun c => { c with rs := c.rs.take 48, rsp := BitVec.ofNat 32 a })) 16

/-- The fill for `n` entries reads an NV page that is being written, and waits until that write ends (R384). -/
def rsBusy (s : State) (n : Nat) : Bool :=
  let a := s.iv.rsp.toNat
  let len := 8 * min 16 ((s.iv.rsbase.toNat - a) / 8)
  decide (s.iv.rs.length < n) && ivRegion a 4 == .nv && nvPageBusy s (a - 0x30000000) len

/-- Fill the stack from memory where it holds fewer than `n` entries (R574): `n` is 1 for a return, 2 for a trap return. -/
def rsFill (s : State) (n : Nat) : RsOut Unit :=
  if n ≤ s.iv.rs.length then .ok () s 0
  else
    let k := min 16 ((s.iv.rsbase.toNat - s.iv.rsp.toNat) / 8)
    if k = 0 then .trap 11 s.iv.rsp
    else if s.iv.rsp.toNat % 4 ≠ 0 then .trap 8 s.iv.rsp
    else match rsLoad k s s.iv.rsp.toNat with
      | none => .trap 6 s.iv.rsp
      | some (es, s) =>
        let s := ivUpd s fun c => { c with rs := c.rs ++ es, rsp := c.rsp + BitVec.ofNat 32 (8 * k) }
        if n ≤ s.iv.rs.length then .ok () s 16 else .trap 11 s.iv.rsp

end Sys2Proof.Machine
end

