-- ==== Sys2Proof/Machine/IvRun.lean ====
section
/-! DEFINITION. What each Ivler-2 instruction does once it executes (17_ivler_instructions.md, Tables 17.6 to 17.12): the state it
leaves and the cycles it takes, the trap it raises, the transfer it makes, or the repeat it begins. -/

namespace Sys2Proof.Machine

/-- What an instruction's execution answers. A transfer carries its target (none where a branch is not taken), the CORESTAT to
restore, whether it pushed a return address and what it popped; a trap leaves everything as it was. -/
inductive IvOut where
  | next (s : State) (cycles : Nat)
  | trap (cause : Nat) (tval : W32)
  | jump (s : State) (target tst : Option W32) (pushed : Bool) (popped : List RsEntry) (cycles : Nat)
  | rep (many : Bool) (n : Nat)

/-- A result in a register, with the flags. -/
def ivRes (s : State) (rd : Nat) (r core : W32) : IvOut :=
  .next (ivUpd (ivSetReg s rd r) fun c => { c with core := core }) 1

/-- A result in a register that leaves the flags (R613). -/
def ivResPlain (s : State) (rd : Nat) (r : W32) : IvOut := .next (ivSetReg s rd r) 1

/-- Addition with Z, N, C and V. -/
def ivSum (s : State) (rd : Nat) (a b : W32) (cin : Bool) : IvOut :=
  let (r, c, v) := addFlags a b cin
  ivRes s rd r (flagsAll s.iv.core r c v)

/-- Subtraction with Z, N, C and V. -/
def ivDiff (s : State) (rd : Nat) (a b : W32) (bin : Bool) : IvOut :=
  let (r, c, v) := subFlags a b bin
  ivRes s rd r (flagsAll s.iv.core r c v)

/-- A bitwise result with Z and N. -/
def ivLogic (s : State) (rd : Nat) (r : W32) : IvOut := ivRes s rd r (flagsZN s.iv.core r)

/-- AND, OR and XOR of two words. -/
def logicOp (op : AluOp) (a b : W32) : W32 :=
  match op with
  | .and => a &&& b | .or => a ||| b | _ => a ^^^ b

/-- Three-register operations (Table 17.6). -/
def ivAlu (s : State) (op : AluOp) (rd ra rb : Nat) : IvOut :=
  let a := ivReg s ra
  let b := ivReg s rb
  let c := csBit s.iv.core Cs.c
  match op with
  | .add => ivSum s rd a b false
  | .adc => ivSum s rd a b c
  | .sub => ivDiff s rd a b false
  | .sbc => ivDiff s rd a b (!c)
  | .and => ivLogic s rd (a &&& b)
  | .or => ivLogic s rd (a ||| b)
  | .xor => ivLogic s rd (a ^^^ b)

/-- One-register operations (Table 17.6). -/
def ivUn (s : State) (op : UnOp) (rd ra : Nat) : IvOut :=
  let a := ivReg s ra
  match op with
  | .mov => ivResPlain s rd a
  | .not => ivLogic s rd (~~~a)
  | .neg => ivDiff s rd 0#32 a false
  | .sxb => ivResPlain s rd (extWord true 8 a.toNat)
  | .sxh => ivResPlain s rd (extWord true 16 a.toNat)
  | .zxb => ivResPlain s rd (extWord false 8 a.toNat)
  | .zxh => ivResPlain s rd (extWord false 16 a.toNat)

/-- A comparison: the flags of a difference. -/
def ivCompare (s : State) (a b : W32) : IvOut :=
  let (r, c, v) := subFlags a b false
  .next (ivUpd s fun x => { x with core := flagsAll x.core r c v }) 1

/-- A shift by `n` with Z, N and C (R616). -/
def ivShiftBy (s : State) (op : ShOp) (rd : Nat) (a : W32) (n : Nat) : IvOut :=
  let (r, c) := shiftFlags op a n (csBit s.iv.core Cs.c)
  ivRes s rd r (csPut (flagsZN s.iv.core r) Cs.c c)

/-- The amount of a register shift: Rb[7:0], of a rotate Rb[4:0]. -/
def shiftAmount (op : ShOp) (b : W32) : Nat := if op = .ror then b.toNat % 32 else b.toNat % 256

-- Memory (Table 17.7) -------------------------------------------------------------------------------------------------------

/-- A load into a register; `after` is what else the instruction does when it completes. -/
def ivLoadAt (s : State) (a : W32) (size : Nat) (sgn : Bool) (rd : Nat) (after : Iv → Iv) : IvOut :=
  if a.toNat % size ≠ 0 then .trap 8 a
  else match ivGet s a.toNat size with
    | .fault => .trap 6 a
    | .val x s =>
      let (n, s) := ivCycles s (ivRegion a.toNat size)
      let s := ivUpd s after
      .next (ivUpd (ivSetReg s rd (extWord sgn (8 * size) x)) fun c => { c with ldReg := some rd }) (1 + n)
    | .late rng o s => .next (ivUpd s fun c => { after c with load := some ⟨rng, o, size, sgn, rd, none⟩ }) 1

/-- A store. -/
def ivStoreAt (s : State) (a : W32) (size x : Nat) (after : Iv → Iv) : IvOut :=
  if a.toNat % size ≠ 0 then .trap 8 a
  else match ivPut s a.toNat size x with
    | none => .trap 7 a
    | some s =>
      let r := ivRegion a.toNat size
      let (n, s) := if r = .keep then ivCycles s r else (0, s)
      .next (ivUpd s after) (1 + n)

/-- Ra + imm. -/
def ivAddr (s : State) (ra : Nat) (imm : Int) : W32 := ivReg s ra + BitVec.ofInt 32 imm

/-- A use of DSP: a DSP off a word boundary traps (R571). -/
def withDsp (s : State) (f : W32 → IvOut) : IvOut := if s.iv.dsp.toNat % 4 ≠ 0 then .trap 8 s.iv.dsp else f s.iv.dsp

/-- PUSH (R571). -/
def ivPush (s : State) (x : W32) : IvOut :=
  withDsp s fun d =>
    if d.toNat < s.iv.dslim.toNat + 4 then .trap 9 d
    else ivStoreAt s (d - 4#32) 4 x.toNat fun c => { c with dsp := d - 4#32 }

/-- POP (R571). -/
def ivPop (s : State) (rd : Nat) : IvOut :=
  withDsp s fun d => ivLoadAt s d 4 false rd fun c => { c with dsp := d + 4#32 }

-- Bits (Table 17.8) -----------------------------------------------------------------------------------------------------------

/-- The bit address of an X-format instruction (R619). -/
def bitAddr (s : State) (b : Nat) (x : Option Nat) : Nat :=
  match x with
  | none => b % 8192
  | some ra => (b + (ivReg s ra).toNat % 8192) % 8192

/-- Cycles of a bit instruction (Table 17.13). -/
def bitCycles (s : State) (b : Nat) (writes : Bool) : Nat × State :=
  if b < 0x1000 then (1, s)
  else if b < 0x1800 then (2, s)
  else if bitIsCore b then (if writes then 2 else 1, s)
  else
    let (n, s) := ivCycles s .window
    (1 + n, s)

/-- BA after the operation, and the bit written, if one is. -/
def bitResult (op : BitOp) (ba b : Bool) : Bool × Option Bool :=
  match op with
  | .ldbit => (b, none) | .ldbitn => (!b, none) | .andb => (ba && b, none) | .andbn => (ba && !b, none)
  | .orb => (ba || b, none) | .orbn => (ba || !b, none) | .xorb => (ba != b, none)
  | .stbit => (ba, some ba) | .stbitn => (ba, some (!ba)) | .setb => (ba, some true) | .clrb => (ba, some false)
  | .notb => (ba, some (!b)) | .tstset => (b, some true)

/-- A bit instruction (R619, R620). -/
def ivBit (s : State) (op : BitOp) (b : Nat) (x : Option Nat) : IvOut :=
  let a := bitAddr s b x
  let (n, s) := bitCycles s a op.writes
  let (ba, w) := bitResult op s.iv.ba (bitGet s a)
  let s := match w with
    | none => s
    | some v => bitPut s a v
  .next (ivUpd s fun c => { c with ba }) n

/-- BACC (Table 17.8). -/
def ivBacc (s : State) (n : Nat) : IvOut :=
  .next (ivUpd s fun c => { c with ba := if n = 0 then false else if n = 1 then true else !c.ba }) 1

-- Transfers (Table 17.9) --------------------------------------------------------------------------------------------------------

/-- The target of a PC-relative transfer. -/
def relTarget (pc : W32) (disp : Int) : W32 := pc + BitVec.ofInt 32 (2 * disp)

/-- A branch. -/
def ivBranch (s : State) (pc : W32) (cond : Nat) (disp : Int) : IvOut :=
  .jump s (if condHolds s.iv.core s.iv.ba cond then some (relTarget pc disp) else none) none false [] 1

/-- A jump. -/
def ivGoto (s : State) (target : W32) (cycles : Nat) : IvOut := .jump s (some target) none false [] cycles

/-- A call: the return address is pushed, and made good once the slot's length is known (R622). -/
def ivCallTo (s : State) (ret target : W32) (cycles : Nat) : IvOut :=
  match rsPush s ⟨ret, 0⟩ with
  | .trap c v => .trap c v
  | .ok _ s n => .jump s (some target) none true [] (cycles + n)

/-- RET (R575). -/
def ivReturn (s : State) : IvOut :=
  match rsFill s 1 with
  | .trap c v => .trap c v
  | .ok _ s n =>
    match s.iv.rs with
    | e :: es => if e.tag = 0 then .jump (ivUpd s fun c => { c with rs := es }) (some e.val) none false [e] (2 + n) else .trap 12 e.val
    | [] => .trap 11 s.iv.rsp

/-- TRET (R575, R595). -/
def ivTrapReturn (s : State) : IvOut :=
  match rsFill s 2 with
  | .trap c v => .trap c v
  | .ok _ s n =>
    match s.iv.rs with
    | t :: p :: es =>
      if t.tag = 2 ∧ p.tag = 1 then .jump (ivUpd s fun c => { c with rs := es }) (some p.val) (some t.val) false [t, p] (4 + n)
      else .trap 12 t.val
    | _ => .trap 11 s.iv.rsp

-- Multiply and character (Table 17.10) ---------------------------------------------------------------------------------------------

/-- The native multiply (R624). -/
def ivMul (s : State) (high sgn : Bool) (rd ra rb : Nat) : IvOut :=
  let (hi, lo) := mulWords sgn (ivReg s ra) (ivReg s rb)
  .next (ivUpd (ivSetReg s rd (if high then hi else lo)) fun c => { c with mulReg := c.mulReg ++ [(rd, 0)] }) 1

/-- The legacy multiply (R625): MDH and MDL follow at its fourth cycle. -/
def ivLmul (s : State) (sgn : Bool) (ra rb : Nat) : IvOut :=
  let (hi, lo) := mulWords sgn (ivReg s ra) (ivReg s rb)
  .next (ivUpd s fun c => { c with mul := c.mul ++ [(0, hi, lo)] }) 1

/-- A CRC step over `data` (R626). -/
def ivCrcStep (s : State) (rd size data : Nat) : W32 :=
  BitVec.ofNat 32 (crcStep s.iv.crw.toNat s.iv.crp.toNat (ivReg s rd).toNat data size)

/-- CRC from a register or from memory (R626, R627). -/
def ivCrc (s : State) (size rd ra : Nat) (mem : Bool) : IvOut :=
  let a := ivReg s ra
  if !mem then ivResPlain s rd (ivCrcStep s rd size a.toNat)
  else if a.toNat % size ≠ 0 then .trap 8 a
  else match ivGet s a.toNat size with
    | .fault => .trap 6 a
    | .val x s =>
      let (n, s) := ivCycles s (ivRegion a.toNat size)
      .next (ivSetReg (ivSetReg s rd (ivCrcStep s rd size x)) ra (a + BitVec.ofNat 32 size)) (1 + n)
    | .late rng o s => .next (ivUpd s fun c => { c with load := some ⟨rng, o, size, false, rd, some ra⟩ }) 1

-- System (Table 17.12) --------------------------------------------------------------------------------------------------------------

/-- RPT and RPTI: a count above the bound traps (R580); the caller gives the trap its encoding. -/
def ivRep (enc : Nat) (many : Bool) (n : Nat) : IvOut :=
  if (if many then 4096 else 64) < n then .trap 4 (BitVec.ofNat 32 enc) else .rep many n

/-- An instruction of encoding `enc` at `pc`, `len` bytes long, executes. -/
def ivRun (s : State) (enc : Nat) (pc : W32) (len : Nat) (i : IvIns) : IvOut :=
  let slotAt := pc + BitVec.ofNat 32 len
  match i with
  | .alu op rd ra rb => ivAlu s op rd ra rb
  | .un op rd ra => ivUn s op rd ra
  | .cmp ra rb => ivCompare s (ivReg s ra) (ivReg s rb)
  | .tst ra rb => .next (ivUpd s fun c => { c with core := flagsZN c.core (ivReg s ra &&& ivReg s rb) }) 1
  | .shift op rd ra rb => ivShiftBy s op rd (ivReg s ra) (shiftAmount op (ivReg s rb))
  | .shifti op rd ra n => ivShiftBy s op rd (ivReg s ra) n
  | .addi rd ra imm => ivSum s rd (ivReg s ra) (BitVec.ofInt 32 imm) false
  | .logi op rd ra imm => ivLogic s rd (logicOp op (ivReg s ra) (BitVec.ofNat 32 imm))
  | .cmpi ra imm => ivCompare s (ivReg s ra) (BitVec.ofInt 32 imm)
  | .lui rd imm => ivResPlain s rd (BitVec.ofNat 32 (imm * 4096))
  | .movi rd imm => ivResPlain s rd (BitVec.ofInt 32 imm)
  | .ld size sgn rd ra imm => ivLoadAt s (ivAddr s ra imm) size sgn rd id
  | .st size rd ra imm => ivStoreAt s (ivAddr s ra imm) size (ivReg s rd).toNat id
  | .ldd rd imm => withDsp s fun d => ivLoadAt s (d + BitVec.ofNat 32 imm) 4 false rd id
  | .std rd imm => withDsp s fun d => ivStoreAt s (d + BitVec.ofNat 32 imm) 4 (ivReg s rd).toNat id
  | .push ra => ivPush s (ivReg s ra)
  | .pop rd => ivPop s rd
  | .bit op b x => ivBit s op b x
  | .bacc n => ivBacc s n
  | .bcc cond d => ivBranch s pc cond d
  | .jmp d => ivGoto s (relTarget pc d) 1
  | .call d => ivCallTo s slotAt (relTarget pc d) 1
  | .jr ra => ivGoto s (ivReg s ra) 2
  | .callr ra => ivCallTo s slotAt (ivReg s ra) 2
  | .ret => ivReturn s
  | .tret => ivTrapReturn s
  | .mul h g rd ra rb => ivMul s h g rd ra rb
  | .lmul g ra rb => ivLmul s g ra rb
  | .crc size rd ra m => ivCrc s size rd ra m
  | .par ra => .next (ivUpd s fun c => { c with ba := parity (ivReg s ra) }) 1
  | .brev size rd ra => ivResPlain s rd (bitRev (ivReg s ra) (8 * size))
  | .mfs rd sr => ivResPlain s rd (srGet s.iv sr)
  | .mts sr ra => .next (ivUpd s fun c => srPut c sr (ivReg s ra)) (if sr = 0 then 2 else 1)
  | .rpt many n => ivRep enc many n
  | .rptr many ra => ivRep enc many (ivReg s ra).toNat
  | .sleep m => .next (sleepOp s m) 1
  | .brk _ => .trap 13 (BitVec.ofNat 32 enc)
  | .syscall _ => .trap 14 (BitVec.ofNat 32 enc)
  | .nop => .next s 1
  | .wait => .next (ivUpd s fun c => { c with waiting := true }) 1
  | .sync => .next s 1

end Sys2Proof.Machine
end

