-- ==== Sys2Proof/Machine/IvCore.lean ====
section
/-! DEFINITION. The Ivler core around its instructions (16_ivler_core.md): the decode checks in order (Table 17.1), the delay slot
(R576–R578), repeats (R580–R582), traps and the return from them (R587–R589, R595), interrupts (R590–R594), the watchdog
warning (R592), WAIT (R630), and the cycles that the legacy multiply counts (R625). -/

namespace Sys2Proof.Machine

-- Cycles -------------------------------------------------------------------------------------------------------------------

/-- `n` cycles pass: a legacy multiply that reaches its fourth writes MDH and MDL. -/
def ivAge (s : State) (n : Nat) : State :=
  ivUpd s fun c =>
    let aged := c.mul.map fun m => (m.1 + n, m.2)
    let c := (aged.filter fun m => decide (4 ≤ m.1)).foldl (fun c m => { c with mdh := m.2.1, mdl := m.2.2 }) c
    { c with mul := aged.filter fun m => decide (m.1 < 4)
             mulReg := (c.mulReg.map fun m => (m.1, m.2 + n)).filter fun m => decide (m.2 < 4) }

/-- Stall cycles before an instruction: the register loaded just before (R631), a native multiply's destination (R624). -/
def ivStall (s : State) (i : IvIns) : Nat :=
  let us := ivUses i
  let mul := s.iv.mulReg.foldl (fun n m => if us.contains m.1 then max n (4 - m.2) else n) 0
  max (if s.iv.ldReg.any us.contains then 1 else 0) mul

-- Interrupts (R590, R591) -----------------------------------------------------------------------------------------------------

/-- The level of an interrupt that stands: sources 0 to 127, queues 128 to 143. -/
def irqLevel (s : State) (n : Nat) : Nat :=
  if n < 128 then (if evPending s n then s.get (F.evSrc_level n) else 0)
  else if bitGet s (0x1860 + (n - 128)) then s.get (F.ivcQCfg_level (n - 128))
  else 0

/-- IPL. -/
def ivIpl (s : State) : Nat := wBits s.iv.core 7 5

/-- The interrupt with the highest level above IPL, the lowest number on a tie. -/
def irqBest (s : State) : Option (Nat × Nat) :=
  (List.range 144).foldl (fun b n =>
    let l := irqLevel s n
    if decide (ivIpl s < l) && b.all fun x => decide (x.2 < l) then some (n, l) else b) none

/-- An interrupt may be taken here: no slot is due, and a repeat stands between two iterations of RPTI (R579, R580). -/
def ivBoundary (s : State) : Bool :=
  s.iv.slot.isNone && (match s.iv.rep_ with
    | none => true
    | some r => r.rpti && r.begun)

/-- WAIT has ended without an interrupt: IE is 0 and a source above IPL is pending (R630). -/
def waitOver (s : State) : Bool := !csBit s.iv.core Cs.ie && (irqBest s).isSome

-- Entry (R588, R591, R592) -----------------------------------------------------------------------------------------------------

/-- A double fault resets the core (R589). -/
def ivDoubleFault (s : State) : State := raise (ivReset s 3) 125 2

/-- Push the return address and CORESTAT, set CORESTAT and fetch from the vector. An interrupted repeat leaves RPC, and REP
in the saved CORESTAT (R582). A push that traps is a double fault. -/
def ivEnter (s : State) (ret : W32) (left : Option Nat) (vec : W32) (f : W32 → W32) : State :=
  let s := match left with
    | some n => ivUpd s fun c => { c with rpc := BitVec.ofNat 32 n }
    | none => s
  let saved := match left with
    | some _ => csPut s.iv.core Cs.rep true
    | none => s.iv.core
  match rsPush s ⟨ret, 1⟩ with
  | .trap _ _ => ivDoubleFault s
  | .ok _ s n =>
    match rsPush s ⟨saved, 2⟩ with
    | .trap _ _ => ivDoubleFault s
    | .ok _ s m =>
      ivAge (ivUpd s fun c => { c with pc := vec, core := f c.core, slot := none, rep_ := none, waiting := false, ldReg := none }) (6 + n + m)

/-- The slot's transfer is undone (R578): what it pushed or popped, and its effect. -/
def slotUndo (s : State) : State :=
  match s.iv.slot with
  | none => s
  | some t => ivUpd s fun c => { c with slot := none, rs := t.popped ++ (if t.pushed then c.rs.drop 1 else c.rs) }

/-- A trap (R588). TVAL of causes 9 to 12 is a free value, for the spec names none. -/
def ivTrap (s : State) (cause : Nat) (tval ret : W32) (left : Option Nat) : State :=
  if csBit s.iv.core Cs.trap then ivDoubleFault s
  else
    let (v, s) := if 9 ≤ cause ∧ cause ≤ 12 then let (x, s) := s.draw; (BitVec.ofNat 32 x, s) else (tval, s)
    let s := ivUpd s fun c => { c with tcause := cause, tval := v }
    let s := (s.set F.ivcTrap_cause cause).set F.ivcTrappc_pc ret.toNat
    ivEnter s ret left (s.iv.vbase + BitVec.ofNat 32 (8 * cause)) fun w => csPut (csPut w Cs.ie false) Cs.trap true

/-- A trap of the instruction at PC: of a slot's, the transfer is undone and named (R578); of an iteration, the repeat is
(R582). `next` is the address of the following instruction where the trap names that one (causes 13 and 14). -/
def ivTrapHere (s : State) (cause : Nat) (tval : W32) (next : Option W32) : State :=
  match s.iv.slot, s.iv.rep_ with
  | some t, _ => ivTrap (slotUndo s) cause tval t.at_ none
  | none, some r =>
    let left := if next.isSome then r.left - 1 else r.left
    if left = 0 then ivTrap s cause tval (next.getD s.iv.pc) none else ivTrap s cause tval s.iv.pc (some left)
  | none, none => ivTrap s cause tval (next.getD s.iv.pc) none

/-- An interrupt is entered. -/
def irqEnter (s : State) (n level : Nat) : State :=
  ivEnter s s.iv.pc (s.iv.rep_.map fun r => r.left) (s.iv.vbase + BitVec.ofNat 32 (0x100 + 8 * n)) fun w => wPut w 7 5 level

/-- The watchdog warning is entered (R592). -/
def warnEnter (s : State) : State :=
  ivEnter (ivUpd s fun c => { c with warn := false }) s.iv.pc (s.iv.rep_.map fun r => r.left) (s.iv.vbase + 120#32)
    fun w => csPut (csPut w Cs.nmi true) Cs.ie false

/-- A warning that waits for a boundary is taken there, unless NMI is 1. -/
def warnTake (s : State) : State := if s.iv.warn && ivBoundary s && !csBit s.iv.core Cs.nmi then warnEnter s else s

-- The end of an instruction -------------------------------------------------------------------------------------------------------

/-- A transfer's slot has run (R576, R595): PC at its target, a call's return address behind the slot, a trap return's CORESTAT
restored and its repeat resumed. An odd target traps FETCH_FAULT. -/
def slotEnd (s : State) (t : IvSlot) (next : W32) : State :=
  let dest := t.target.getD next
  let s := ivUpd s fun c =>
    let rs := match t.pushed, c.rs with
      | true, e :: es => { e with val := next } :: es
      | _, l => l
    { c with rs, slot := none, pc := dest &&& ~~~1#32 }
  let s := match t.tst with
    | none => s
    | some w =>
      let s := ivSetCore s w
      if csBit w Cs.rep then
        ivUpd s fun c => { c with core := csPut c.core Cs.rep false, rep_ := some ⟨c.pc, 0, true, c.rpc.toNat, true⟩ }
      else s
  if dest.getLsbD 0 then ivTrap s 5 dest (dest &&& ~~~1#32) none else s

/-- An iteration has ended (R580): RPTI sets RPC, and PC moves on after the last. -/
def iterEnd (s : State) (r : IvRep) (next : W32) : State :=
  let left := r.left - 1
  ivUpd s fun c =>
    { c with rpc := if r.rpti then BitVec.ofNat 32 left else c.rpc
             rep_ := if left = 0 then none else some { r with left, begun := true }
             pc := if left = 0 then next else c.pc }

/-- An instruction has completed. -/
def ivDone (s : State) (len cycles : Nat) : State :=
  let next := s.iv.pc + BitVec.ofNat 32 len
  let s := match s.iv.slot, s.iv.rep_ with
    | some t, _ => slotEnd s t next
    | none, some r => iterEnd s r next
    | none, none => ivUpd s fun c => { c with pc := next }
  warnTake (ivAge s cycles)

-- The checks (Table 17.1) -------------------------------------------------------------------------------------------------------------

/-- A write of CORESTAT by MTS or through its bits (R577, R621). -/
def writesCore (s : State) : IvIns → Bool
  | .mts sr _ => sr == 0
  | .bit op b x => op.writes && bitIsCore (bitAddr s b x)
  | _ => false

/-- What may not stand in a slot (R577). -/
def slotBars (s : State) (i : IvIns) : Bool := ivTransfer i || ivRepeat i || ivSleeps i || writesCore s i

/-- What may not be repeated (R581). -/
def repBars (s : State) (i : IvIns) : Bool :=
  slotBars s i || (match i with
    | .mts sr _ => sr == 6
    | _ => false)

/-- Checks 1 to 5: the state after the trap, if one is raised. -/
def ivChecks (s : State) (enc : Nat) (short : Bool) (i : Option IvIns) : Option State :=
  let pc := s.iv.pc
  let w := BitVec.ofNat 32 enc
  if !ivFetchable pc.toNat then some (ivTrapHere s 5 pc none)
  else if !short && !ivFetchable (pc + 2#32).toNat then some (ivTrapHere s 5 (pc + 2#32) none)
  else if short && csBit s.iv.core Cs.wide then
    match s.iv.slot, s.iv.rep_ with
    | none, some r => some (if r.begun then ivTrapHere s 2 w none else ivTrap s 2 w r.at_ none)
    | _, _ => some (ivTrapHere s 2 w none)
  else match i with
    | none => some (ivTrapHere s 1 w none)
    | some i =>
      if ivIllegal i then some (ivTrapHere s 1 w none)
      else if s.iv.slot.isSome && slotBars s i then some (ivTrap (slotUndo s) 3 w pc none)
      else match s.iv.rep_ with
        | none => none
        | some r =>
          if !repBars s i then none
          else if r.begun then some (ivTrapHere s 4 w none)
          else some (ivTrap s 4 (BitVec.ofNat 32 r.enc) r.at_ none)

-- One instruction ---------------------------------------------------------------------------------------------------------------------

/-- Bytes of the form. -/
def ivLen (short : Bool) : Nat := if short then 2 else 4

/-- The code at PC lies in a page of the NV window that is being written (R384). -/
def fetchBusy (s : State) (len : Nat) : Bool :=
  ivRegion s.iv.pc.toNat len == .nv && nvPageBusy s (s.iv.pc.toNat - 0x30000000) len

/-- The core may take its next instruction: it runs, is not halted, is not entering SLEEP past its drain, waits neither for a
load nor in WAIT, and its code can be read. -/
def ivReady (s : State) (len : Nat) : Bool :=
  ivcRunning s && s.pm.entry != 1 && s.pm.entry != 2 && s.iv.load.isNone && (!s.iv.waiting || waitOver s) && !fetchBusy s len

/-- The return-stack fill of RET or TRET waits for an NV page (R384). -/
def fillBusy (s : State) : Option IvIns → Bool
  | some .ret => rsBusy s 1
  | some .tret => rsBusy s 2
  | _ => false

/-- Execute an instruction that passed its checks. -/
def ivExecute (s : State) (enc : Nat) (short : Bool) (i : IvIns) : State :=
  let pc := s.iv.pc
  let len := ivLen short
  let fetch := if ivRegion pc.toNat len = .nv then 13 else 0
  let s := ivUpd (ivAge s (fetch + ivStall s i)) fun c => { c with ldReg := none }
  let next := pc + BitVec.ofNat 32 len
  match ivRun s enc pc len i with
  | .next t cycles => if ivcRunning t && t.iv.fetched then ivDone t len cycles else t
  | .trap cause tval => ivTrapHere s cause tval (if cause = 13 ∨ cause = 14 then some next else none)
  | .jump t target tst pushed popped cycles =>
    warnTake (ivAge (ivUpd t fun c => { c with slot := some ⟨pc, target, tst, pushed, popped⟩, pc := next }) cycles)
  | .rep many n => ivAge (ivUpd s fun c => { c with rep_ := some ⟨pc, enc, many, n, false⟩, pc := next }) 1

/-- The core fetches an instruction of encoding `enc` in its 16-bit or 32-bit form, decoded as `i`, and executes it. `step` says
the debug port steps a halted core. -/
def ivStep (step : Bool) (s : State) (enc : Nat) (short : Bool) (i : Option IvIns) : State :=
  let len := ivLen short
  let s := loadSettle s
  if !ivReady s len || fillBusy s i || (s.iv.halted && !step) then s
  else
    let s := ivUpd (coreFetches s) fun c => { c with waiting := false }
    let skip := match s.iv.rep_ with
      | some r => r.left == 0
      | none => false
    if skip then warnTake (ivAge (ivUpd s fun c => { c with rep_ := none, pc := c.pc + BitVec.ofNat 32 len }) 1)
    else match ivChecks s enc short i with
      | some s => s
      | none => match i with
        | none => s
        | some i => ivExecute s enc short i

/-- An instruction of the program, in its 16-bit form where `short`. -/
def ivGo (short : Bool) (i : IvIns) (s : State) : Host.Outcome State Fault Refusal :=
  .next (ivStep false s (ivEnc short i) short (some (ivNorm short i)))

end Sys2Proof.Machine
end

