-- ==== Sys2Proof/Machine/IvDecode.lean ====
section
/-! DEFINITION. The decoder of the Ivler-2 core (17_ivler_instructions.md, Tables 17.2 to 17.12): total on every 32-bit and 16-bit
word; `none` is check 3 of Table 17.1 for unassigned codes and for fields that shall be 0. What depends on an operand is
`ivIllegal`. -/

namespace Sys2Proof.Machine

/-- Two registers and a code: the third register field and AMT 0. -/
def decAlu (rd ra rb fn amt : Nat) : Option IvIns :=
  let plain := fun (i : IvIns) => if amt = 0 then some i else none
  let alu := fun op => plain (.alu op rd ra rb)
  let un := fun op => if rb = 0 then plain (.un op rd ra) else none
  let sh := fun op => plain (.shift op rd ra rb)
  let shi := fun op => if rb = 0 ∧ amt < 32 then some (.shifti op rd ra amt) else none
  match fn with
  | 0 => un .mov | 1 => alu .add | 2 => alu .adc | 3 => alu .sub | 4 => alu .sbc | 5 => alu .and | 6 => alu .or | 7 => alu .xor
  | 8 => un .not | 9 => un .neg
  | 10 => if rd = 0 then plain (.cmp ra rb) else none
  | 11 => if rd = 0 then plain (.tst ra rb) else none
  | 12 => sh .shl | 13 => sh .shr | 14 => sh .sar | 15 => sh .ror
  | 16 => shi .shl | 17 => shi .shr | 18 => shi .sar | 19 => shi .ror
  | 20 => un .sxb | 21 => un .sxh | 22 => un .zxb | 23 => un .zxh
  | _ => none

/-- The 32-bit formats that use the R layout outside the ALU. -/
def decR (major rd ra rb fn amt : Nat) : Option IvIns :=
  if amt ≠ 0 then none
  else match major with
  | 0x10 =>
    if rb ≠ 0 then none
    else match fn with
      | 0 => if rd = 0 then some (.push ra) else none
      | 1 => if ra = 0 then some (.pop rd) else none
      | _ => none
  | 0x14 =>
    if rd ≠ 0 ∨ rb ≠ 0 then none
    else match fn with
      | 0 => some (.jr ra)
      | 1 => some (.callr ra)
      | 2 => if ra = 0 then some .ret else none
      | 3 => if ra = 0 then some .tret else none
      | _ => none
  | 0x16 =>
    match fn with
    | 0 => some (.mul false false rd ra rb)
    | 1 => some (.mul true true rd ra rb)
    | 2 => some (.mul true false rd ra rb)
    | 3 => if rd = 0 then some (.lmul true ra rb) else none
    | 4 => if rd = 0 then some (.lmul false ra rb) else none
    | _ => none
  | 0x17 =>
    if rb ≠ 0 then none
    else match fn with
      | 0 => some (.crc 1 rd ra false)
      | 1 => some (.crc 2 rd ra false)
      | 2 => some (.crc 4 rd ra false)
      | 3 => if rd = 0 then some (.par ra) else none
      | 4 => some (.brev 1 rd ra)
      | 5 => some (.brev 2 rd ra)
      | 6 => some (.brev 4 rd ra)
      | 0x20 => some (.crc 1 rd ra true)
      | 0x21 => some (.crc 2 rd ra true)
      | 0x22 => some (.crc 4 rd ra true)
      | _ => none
  | _ => none

/-- Bit operations by SUB (Table 17.8). -/
def decBitOp (sub : Nat) : Option BitOp :=
  match sub with
  | 0 => some .ldbit | 1 => some .ldbitn | 2 => some .andb | 3 => some .andbn | 4 => some .orb | 5 => some .orbn
  | 6 => some .xorb | 7 => some .stbit | 8 => some .stbitn | 9 => some .setb | 10 => some .clrb | 11 => some .notb
  | 12 => some .tstset | _ => none

/-- Format X. -/
def decX (sub ra lo : Nat) : Option IvIns :=
  let x := lo / 32768
  let b := lo % 8192
  if lo / 8192 % 4 ≠ 0 then none
  else if sub = 13 then (if x = 0 ∧ ra = 0 then some (.bacc b) else none)
  else if x = 0 ∧ ra ≠ 0 then none
  else (decBitOp sub).map fun op => .bit op b (if x = 1 then some ra else none)

/-- Format S (Table 17.12). -/
def decS (sub r lo : Nat) : Option IvIns :=
  match sub with
  | 0 => if lo < 32 then some (.mfs r lo) else none
  | 1 => if lo < 32 then some (.mts lo r) else none
  | 2 => if r = 0 ∧ lo < 4096 then some (.rpt false (lo + 1)) else none
  | 3 => if lo = 0 then some (.rptr false r) else none
  | 4 => if r = 0 ∧ lo < 4096 then some (.rpt true (lo + 1)) else none
  | 5 => if lo = 0 then some (.rptr true r) else none
  | 6 => if r = 0 ∧ lo < 8 then some (.sleep lo) else none
  | 7 => if r = 0 then some (.brk lo) else none
  | 8 => if r = 0 then some (.syscall lo) else none
  | 9 => if r = 0 ∧ lo = 0 then some .nop else none
  | 10 => if r = 0 ∧ lo = 0 then some .wait else none
  | 11 => if r = 0 ∧ lo = 0 then some .sync else none
  | _ => none

/-- A 32-bit word (R606, Table 17.3). -/
def ivDec32 (w : Nat) : Option IvIns :=
  let major := w / 2 ^ 24 % 32
  let rd := w / 2 ^ 20 % 16
  let ra := w / 2 ^ 16 % 16
  let lo := w % 65536
  let rb := lo / 4096
  let fn := lo / 64 % 64
  let amt := lo % 64
  let x20 := w % 2 ^ 20
  if w / 2 ^ 29 ≠ 7 then none
  else match major with
  | 0x00 => decAlu rd ra rb fn amt
  | 0x01 => some (.addi rd ra (signed 16 lo))
  | 0x02 => some (.logi .and rd ra lo)
  | 0x03 => some (.logi .or rd ra lo)
  | 0x04 => some (.logi .xor rd ra lo)
  | 0x05 => if rd = 0 then some (.cmpi ra (signed 16 lo)) else none
  | 0x06 => some (.lui rd x20)
  | 0x07 => some (.movi rd (signed 20 x20))
  | 0x08 => some (.ld 4 false rd ra (signed 16 lo))
  | 0x09 => some (.ld 2 true rd ra (signed 16 lo))
  | 0x0A => some (.ld 2 false rd ra (signed 16 lo))
  | 0x0B => some (.ld 1 true rd ra (signed 16 lo))
  | 0x0C => some (.ld 1 false rd ra (signed 16 lo))
  | 0x0D => some (.st 4 rd ra (signed 16 lo))
  | 0x0E => some (.st 2 rd ra (signed 16 lo))
  | 0x0F => some (.st 1 rd ra (signed 16 lo))
  | 0x11 => some (.bcc rd (signed 20 x20))
  | 0x12 => some (.jmp (signed 24 (w % 2 ^ 24)))
  | 0x13 => some (.call (signed 24 (w % 2 ^ 24)))
  | 0x15 => decX rd ra lo
  | 0x18 => decS rd ra lo
  | 0x19 => if ra = 0 then some (.ldd rd lo) else none
  | 0x1A => if ra = 0 then some (.std rd lo) else none
  | m => decR m rd ra rb fn amt

/-- ALU2 (Table 17.4). -/
def decA2 (op rd ra : Nat) : Option IvIns :=
  match op with
  | 0 => some (.un .mov rd ra) | 1 => some (.alu .add rd rd ra) | 2 => some (.alu .adc rd rd ra)
  | 3 => some (.alu .sub rd rd ra) | 4 => some (.alu .sbc rd rd ra) | 5 => some (.alu .and rd rd ra)
  | 6 => some (.alu .or rd rd ra) | 7 => some (.alu .xor rd rd ra) | 8 => some (.un .not rd ra) | 9 => some (.un .neg rd ra)
  | 10 => some (.cmp rd ra) | 11 => some (.tst rd ra)
  | 12 => some (.shift .shl rd rd ra) | 13 => some (.shift .shr rd rd ra) | 14 => some (.shift .sar rd rd ra)
  | 15 => some (.shift .ror rd rd ra)
  | 16 => some (.lmul true rd ra) | 17 => some (.lmul false rd ra)
  | 18 => some (.crc 1 rd ra false) | 19 => some (.crc 2 rd ra false) | 20 => some (.crc 4 rd ra false)
  | 21 => if rd = 0 then some (.par ra) else none
  | 22 => some (.brev 1 rd ra) | 23 => some (.brev 2 rd ra) | 24 => some (.brev 4 rd ra)
  | 25 => some (.un .sxb rd ra) | 26 => some (.un .sxh rd ra) | 27 => some (.un .zxb rd ra) | 28 => some (.un .zxh rd ra)
  | _ => none

/-- ALUI, with the shift of OP 3. -/
def decAI (op rd imm : Nat) : Option IvIns :=
  match op with
  | 0 => some (.movi rd (signed 7 imm))
  | 1 => some (.addi rd rd (signed 7 imm))
  | 2 => some (.cmpi rd (signed 7 imm))
  | _ =>
    let n := imm % 32
    match imm / 32 with
    | 0 => some (.shifti .shl rd rd n) | 1 => some (.shifti .shr rd rd n) | 2 => some (.shifti .sar rd rd n)
    | _ => some (.shifti .ror rd rd n)

/-- BIT. -/
def decB16 (sub b : Nat) : Option IvIns :=
  match sub with
  | 0 => some (.bit .ldbit b none) | 1 => some (.bit .andb b none) | 2 => some (.bit .orb b none) | 3 => some (.bit .xorb b none)
  | 4 => some (.bit .stbit b none) | 5 => some (.bit .setb b none) | 6 => some (.bit .clrb b none) | _ => some (.bit .notb b none)

/-- MISC. -/
def decMisc (sub arg : Nat) : Option IvIns :=
  let r := arg % 16
  let reg := fun (i : IvIns) => if arg < 16 then some i else none
  let none_ := fun (i : IvIns) => if arg = 0 then some i else none
  match sub with
  | 0x00 => none_ .nop | 0x01 => reg (.push r) | 0x02 => reg (.pop r) | 0x03 => reg (.jr r) | 0x04 => reg (.callr r)
  | 0x05 => none_ .ret | 0x06 => none_ .tret
  | 0x07 => if arg < 64 then some (.rpt false (arg + 1)) else none
  | 0x08 => reg (.rptr false r)
  | 0x09 => some (.mfs r (arg / 16)) | 0x0A => some (.mts (arg / 16) r)
  | 0x0B => some (.brk arg) | 0x0C => some (.syscall arg)
  | 0x0D => if arg < 8 then some (.sleep arg) else none
  | _ => none

/-- A 16-bit word (R606, Table 17.4). -/
def ivDec16 (w : Nat) : Option IvIns :=
  let rd := w / 128 % 16
  match w / 8192 with
  | 0 => decA2 (w / 256 % 32) (w / 16 % 16) (w % 16)
  | 1 => decAI (w / 2048 % 4) rd (w % 128)
  | 2 =>
    let ra := w / 8 % 16
    let off : Int := (w % 8 : Nat)
    match w / 2048 % 4 with
    | 0 => some (.ld 4 false rd ra (4 * off))
    | 1 => some (.st 4 rd ra (4 * off))
    | 2 => some (.ld 1 false rd ra off)
    | _ => some (.st 1 rd ra off)
  | 3 => decB16 (w / 1024 % 8) (w % 1024)
  | 4 => some (.bcc (w / 512 % 16) (signed 9 (w % 512)))
  | 5 => if w / 4096 % 2 = 0 then some (.jmp (signed 12 (w % 4096))) else some (.call (signed 12 (w % 4096)))
  | 6 => decMisc (w / 256 % 32) (w % 256)
  | _ => none

/-- The instruction of an encoding in its form. -/
def ivDec (short : Bool) (w : Nat) : Option IvIns := if short then ivDec16 w else ivDec32 w

end Sys2Proof.Machine
end

