-- ==== Sys2Proof/Machine/Debug.lean ====
section
/-! DEFINITION. The debug port (21_security_lifecycle.md R725–R727, Table 21.7). A command's reply, STATUS first where the
table has it, stands in `sec.dbg`. -/

namespace Sys2Proof.Machine

/-- The reply of a command. -/
def dbgReply (s : State) (bs : List Byte) : State := secUpd s fun x => { x with dbg := bs }
def dbgStatus (s : State) (status : Nat) : State := dbgReply s [byte status]

/-- The port answers: the device is awake with its configuration loaded. -/
def dbgUp (s : State) : Bool := regOpen s

/-- Carry out a command of a level, or refuse it (R726). -/
def dbgDo (s : State) (level : Nat) (f : State → State) : State :=
  if !dbgUp s then s
  else
    let s := rngUpd (secUpd s fun x => { x with dbgRd := none }) fun r => { r with waits := r.waits.filter fun w => !(w matches .debug _) }
    if dbgLevel s < level then dbgStatus s St.cfgReject else f s

-- The places it reaches (R727) -------------------------------------------------------------------------------------------------

/-- Debug reaches a word: none of keep RAM outside 0x600 to 0x9FF, nor SEC_AUTHSEQ. -/
def dbgReaches (a : Nat) : Bool :=
  match ivRegion a 4 with
  | .keep => decide (0x20000600 ≤ a) && decide (a + 4 ≤ 0x20000A00)
  | .window => a != 0x40000000 + W.secAuthseqLo && a != 0x40000000 + W.secAuthseqHi
  | .outside => false
  | _ => true

/-- A random number port at an address: whether it is the raw one. -/
def dbgRng (a : Nat) : Option Bool :=
  if a = 0x40000000 + W.rngData then some false else if a = 0x40000000 + W.rngRaw then some true else none

/-- Read one word as firmware reads it, but for the random number ports. -/
def dbgWord (s : State) (a : Nat) : Option (Nat × State) :=
  if !dbgReaches a || a % 4 ≠ 0 then none
  else match ivRegion a 4 with
    | .window => let (w, s) := regReadFx .debug s (a - 0x40000000); some (w.toNat, s)
    | _ => match ivGet s a 4 with
      | .val x s => some (x, s)
      | _ => none

/-- Read `n` words upwards after the bytes `got`: each waits for an NV page that is being written (R384) or for its random bits
(R354), which it draws as firmware does; a place that faults ends the read, which then has no answer here. -/
def dbgWords : Nat → State → Nat → List Byte → Option State
  | 0, s, _, got => some (dbgReply s (byte St.ok :: got))
  | n + 1, s, a, got =>
    let park := fun (s : State) => secUpd s fun x => { x with dbg := [], dbgRd := some (a, n + 1, got) }
    if ivRegion a 4 == .nv && nvPageBusy s (a - 0x30000000) 4 then some (park s)
    else match dbgRng a with
      | some raw => match rngWord s raw 4 with
        | some (b, s) => dbgWords n s (a + 4) (got ++ b)
        | none => some (rngUpd (park s) fun r => { r with waits := r.waits ++ [.debug raw] })
      | none => (dbgWord s a).bind fun (x, s) => dbgWords n s (a + 4) (got ++ leBytes 4 x)

/-- RD, or the rest of one. -/
def dbgRead (s : State) (a n : Nat) (got : List Byte) : State := (dbgWords n s a got).getD (dbgStatus s St.badDescriptor)

/-- A debug read that waited goes on, unless its random bits are still awaited. -/
def dbgResume (s : State) : State :=
  match s.sec.dbgRd with
  | none => s
  | some (a, n, got) =>
    if s.rng.waits.any fun w => w matches .debug _ then s
    else dbgRead (secUpd s fun x => { x with dbgRd := none }) a n got

/-- Write one word as firmware does, under R21. -/
def dbgPut (s : State) (a : Nat) (w : W32) : Option State :=
  if !dbgReaches a || a % 4 ≠ 0 then none
  else match ivRegion a 4 with
    | .window => some (regWrite .debug s (a - 0x40000000) w)
    | _ => ivPut s a 4 w.toNat

/-- Write words upwards; `false` when a place faulted and ended the write. -/
def dbgPuts : List W32 → State → Nat → Bool × State
  | [], s, _ => (true, s)
  | w :: ws, s, a => match dbgPut s a w with
    | some s => dbgPuts ws s (a + 4)
    | none => (false, s)

/-- WR: a register write that R21 or R525 refuses completes CFG_REJECT. -/
def dbgWrite (s : State) (a : Nat) (ws : List W32) : State :=
  let (ok, t) := dbgPuts ws s a
  dbgStatus t (if !ok then St.badDescriptor else if t.hst.rejNo ≠ s.hst.rejNo then St.cfgReject else St.ok)

-- The core -----------------------------------------------------------------------------------------------------------------------

/-- STATUS and PC. -/
def dbgPc (s : State) (status : Nat) : State := dbgReply s (byte status :: leBytes 4 s.iv.pc.toNat)

/-- The halfword at an address of code. -/
def codeHalf (s : State) (a : Nat) : Nat :=
  match ivRegion a 2 with
  | .rom => leNat (romBytes a 2)
  | .sram => leNat (memRead s.iv.sram (a - sramBase) 2)
  | .nv => leNat (memRead s.nv.cells (a - 0x30000000) 2)
  | _ => 0

/-- The instruction at PC: 16-bit unless bits 15:13 of its first halfword are all 1 (R606). -/
def codeAt (s : State) : Nat × Bool :=
  let pc := s.iv.pc.toNat
  let h := codeHalf s pc
  if h / 8192 = 7 then (65536 * h + codeHalf s (pc + 2), false) else (h, true)

/-- STEP: one instruction of a halted core. -/
def dbgStepOp (s : State) : State :=
  if !s.iv.halted || !ivcRunning s then dbgPc s St.cfgReject
  else
    let (w, short) := codeAt s
    dbgPc (ivStep true s w short (ivDec short w)) St.ok

-- The commands -------------------------------------------------------------------------------------------------------------------------

/-- ID: DEVICE_ID, LC, AUTHSEQ and the open level. -/
def execDbgId (s : State) : Host.Outcome State Fault Refusal :=
  .next <| dbgDo s 0 fun s =>
    dbgReply s (devIdentity s ++ [byte (s.get F.secStat_lc)] ++ leBytes 8 (get64 s W.secAuthseqLo W.secAuthseqHi) ++ [byte (dbgLevel s)])

/-- AUTH: an authorisation of 48 bytes, judged as AUTHORISE is (R715–R717). -/
def execDbgAuth (auth : List Byte) (s : State) : Host.Outcome State Fault Refusal :=
  .next <| dbgDo s 0 fun s => secArrive (dbgReply s []) none ([0x13#8] ++ zeros 15 ++ fit 48 auth)

/-- CLOSE ends an authorised level (R725). -/
def execDbgClose (s : State) : Host.Outcome State Fault Refusal :=
  .next <| dbgDo s 0 fun s => dbgStatus (s.set F.secStat_dbgLevel 0) St.ok

/-- RD (R727). -/
def execDbgRd (addr n : Nat) (s : State) : Host.Outcome State Fault Refusal :=
  .next <| dbgDo s 1 fun s => dbgRead s (addr % 2 ^ 32) (n % 65536) []

/-- WR (R727). -/
def execDbgWr (addr : Nat) (ws : List W32) (s : State) : Host.Outcome State Fault Refusal :=
  .next <| dbgDo s 2 fun s => dbgWrite s (addr % 2 ^ 32) ws

/-- HALT stops Ivler alone (R727). -/
def execDbgHalt (s : State) : Host.Outcome State Fault Refusal :=
  .next <| dbgDo s 2 fun s => dbgPc (ivUpd s fun c => { c with halted := true }) St.ok

/-- RUN resumes it. -/
def execDbgRun (s : State) : Host.Outcome State Fault Refusal :=
  .next <| dbgDo s 2 fun s => dbgPc (ivUpd s fun c => { c with halted := false }) St.ok

/-- STEP runs one instruction. -/
def execDbgStep (s : State) : Host.Outcome State Fault Refusal := .next <| dbgDo s 2 dbgStepOp

/-- RESET with KEY 0x3C is reset cause 7, refused while Saddle forbids it (R670). -/
def execDbgReset (key : Nat) (s : State) : Host.Outcome State Fault Refusal :=
  .next <| dbgDo s 2 fun s =>
    if key ≠ 0x3C then dbgStatus s St.badDescriptor
    else if sadBars s then dbgStatus (resetAsk s 7) St.cfgReject
    else dbgStatus (resetAsk s 7) St.ok

/-- TEST, at level 2 in BLANK only: WLOCK, which holds WIDE at 1 (R585, Table 16.2), and SEC_STAT.TEST until the next device
reset. -/
def execDbgTest (s : State) : Host.Outcome State Fault Refusal :=
  .next <| dbgDo s 2 fun s =>
    if s.get F.secStat_lc ≠ 0 then dbgStatus s St.cfgReject
    else
      let s := ivUpd s fun c => { c with core := csPut (csPut c.core Cs.wlock true) Cs.wide true }
      dbgStatus (s.set F.secStat_test 1) St.ok

end Sys2Proof.Machine
end

