-- ==== Sys2Proof/Machine/HostRows.lean ====
section
/-! DEFINITION. The commands of the host interface (14_host_interface.md): set-up and rings, doorbells, descriptors, MGMT frames
at P15 (R511), stopping and starting blocks (R22–R25, R523, R524), completion records, DMA failures, resets of the interface,
and QSPI transactions (R490–R492). -/

namespace Sys2Proof.Machine

-- Set-up, rings and doorbells -------------------------------------------------------------------------------------------------

/-- FEATURES (R496). -/
def execHostFeatures (s : State) : Host.Outcome State Fault Refusal := .next (featuresOp s)
/-- DRIVER_OK (R497). -/
def execHostDriverOk (s : State) : Host.Outcome State Fault Refusal := .next (driverOkOp s)
/-- DRVSTAT_RESET (R494); firmware writes to the ID block are ignored (R525). -/
def execHostDrvstatReset (src : Src) (s : State) : Host.Outcome State Fault Refusal :=
  .next (if srcIsHost src then hostSetup s else s)
/-- RING_ENABLE (R500): a write of HR_SQn_CFG (0), HR_CQn_CFG (1) or HR_EQ_CFG (2). -/
def execHostRingEnable (src : Src) (ring n : Nat) (v : W32) (s : State) : Host.Outcome State Fault Refusal :=
  .next <|
    if !srcIsHost src || (decide (16 ≤ n) && decide (ring < 2)) then s
    else fenceRun (if ring = 0 then sqCfgWrite s n v else if ring = 1 then cqCfgWrite s n v else if ring = 2 then eqCfgWrite s v else s)
/-- SQ_TAIL_DOORBELL (R501). -/
def execHostSqTailDoorbell (n idx : Nat) (s : State) : Host.Outcome State Fault Refusal := .next (sqDoorbell s n idx)
/-- CQ_HEAD_DOORBELL (R501, R517). -/
def execHostCqHeadDoorbell (n idx : Nat) (s : State) : Host.Outcome State Fault Refusal := .next (fenceRun (cqDoorbell s n idx))
/-- EVENT_HEAD_DOORBELL (R501, R520). -/
def execHostEventHeadDoorbell (idx : Nat) (s : State) : Host.Outcome State Fault Refusal := .next (eqDoorbell s idx)

-- Descriptors -------------------------------------------------------------------------------------------------------------------

/-- DESCRIPTOR_FETCH (R502): of any opcode. -/
def execHostDescriptorFetch (desc : List Byte) (input : Option (List Byte)) (s : State) : Host.Outcome State Fault Refusal :=
  .next (hostFetch s (fun _ => true) desc input)
/-- NOP (R509). -/
def execHostNop (desc : List Byte) (input : Option (List Byte)) (s : State) : Host.Outcome State Fault Refusal :=
  .next (hostFetch s (· == 0) desc input)
/-- FRAME (R509). -/
def execHostFrame (desc : List Byte) (input : Option (List Byte)) (s : State) : Host.Outcome State Fault Refusal :=
  .next (hostFetch s (· == 1) desc input)
/-- REG_READ (R509). -/
def execHostRegRead (desc : List Byte) (input : Option (List Byte)) (s : State) : Host.Outcome State Fault Refusal :=
  .next (hostFetch s (· == 2) desc input)
/-- REG_WRITE (R509). -/
def execHostRegWrite (desc : List Byte) (input : Option (List Byte)) (s : State) : Host.Outcome State Fault Refusal :=
  .next (hostFetch s (· == 3) desc input)
/-- CONFIG_STOP (R509, R523). -/
def execHostConfigStop (desc : List Byte) (input : Option (List Byte)) (s : State) : Host.Outcome State Fault Refusal :=
  .next (hostFetch s (· == 4) desc input)
/-- CONFIG_START (R509, R524). -/
def execHostConfigStart (desc : List Byte) (input : Option (List Byte)) (s : State) : Host.Outcome State Fault Refusal :=
  .next (hostFetch s (· == 5) desc input)
/-- RELEASE_REQ (R509). -/
def execHostReleaseReq (desc : List Byte) (input : Option (List Byte)) (s : State) : Host.Outcome State Fault Refusal :=
  .next (hostFetch s (· == 6) desc input)
/-- RELEASE_END (R509). -/
def execHostReleaseEnd (desc : List Byte) (input : Option (List Byte)) (s : State) : Host.Outcome State Fault Refusal :=
  .next (hostFetch s (· == 7) desc input)
/-- TOKEN (R509). -/
def execHostToken (desc : List Byte) (input : Option (List Byte)) (s : State) : Host.Outcome State Fault Refusal :=
  .next (hostFetch s (· == 8) desc input)
/-- LEDGER_REPORT (R509). -/
def execHostLedgerReport (desc : List Byte) (input : Option (List Byte)) (s : State) : Host.Outcome State Fault Refusal :=
  .next (hostFetch s (· == 9) desc input)
/-- FW_EXT (R509, R600). -/
def execHostFwExt (desc : List Byte) (input : Option (List Byte)) (s : State) : Host.Outcome State Fault Refusal :=
  .next (hostFetch s (fun op => decide (0x20 ≤ op) && decide (op ≤ 0x3F)) desc input)

/-- CONFIG_STOP_TIMEOUT (R523): the n-th waiting CONFIG_STOP; its block stays stopping. -/
def execHostConfigStopTimeout (n : Nat) (s : State) : Host.Outcome State Fault Refusal :=
  .next <| match s.stops.waits[n]? with
    | none => s
    | some w => fenceRun (stopWaitEnd { s with stops := { s.stops with waits := s.stops.waits.eraseIdx n } } St.timeout w)

-- MGMT frames (R511) ---------------------------------------------------------------------------------------------------------------

/-- Whose write a MGMT frame's is (R790). -/
def mgmtSrc (req : Req) : Src := if req.port = 12 then .mgmtFw else .mgmtHost

/-- The frame has the operation and layout of R511, comes from a port that may send it, and is of class C3. -/
def mgmtOk (req : Req) (sub op : Nat) (p : List Byte) : Bool :=
  p.length == 16 && leAt p 0 1 == op && slice p 1 3 == zeros 3 && slice p 14 2 == zeros 2 && p15Subs.contains sub
    && (req.port == 8 || req.port == 9 || req.port == 10 || req.port == 12) && req.cls == 3

/-- OFFSET lies in the block of the sub-port. -/
def mgmtOfsOk (sub ofs : Nat) : Bool := ofs % 4 == 0 && extentHolds sub ofs

/-- A MGMT frame that is not carried out. -/
def mgmtBad (s : State) (req : Req) (sub : Nat) (p : List Byte) : State :=
  mgmtDone s req sub (leAt p 0 1) St.badDescriptor (leAt p 4 4) 0#32

/-- MGMT_READ (R511); a read of a random number port may wait (R354). -/
def execHostMgmtRead (req : Req) (sub : Nat) (payload : List Byte) (s : State) : Host.Outcome State Fault Refusal :=
  .next <|
    let ofs := leAt payload 4 4
    if !mgmtOk req sub 1 payload || !mgmtOfsOk sub ofs then mgmtBad s req sub payload
    else if ofs = W.rngData ∨ ofs = W.rngRaw then rngAsk s (.mgmt req sub ofs (ofs == W.rngRaw))
    else
      let (w, s) := regReadFx (mgmtSrc req) s ofs
      mgmtDone s req sub 1 St.ok ofs w

/-- MGMT_WRITE (R511, R525): VALUE is the word as it stands after the write. -/
def execHostMgmtWrite (req : Req) (sub : Nat) (payload : List Byte) (s : State) : Host.Outcome State Fault Refusal :=
  .next <|
    let ofs := leAt payload 4 4
    if !mgmtOk req sub 2 payload || !mgmtOfsOk sub ofs then mgmtBad s req sub payload
    else
      let t := regWrite (mgmtSrc req) s ofs (BitVec.ofNat 32 (leAt payload 8 4))
      let status := if t.hst.rejNo == s.hst.rejNo then St.ok else St.cfgReject
      mgmtDone t req sub 2 status ofs (regRead (mgmtSrc req) t ofs)

/-- MGMT_STOP (R23, R523). -/
def execHostMgmtStop (req : Req) (sub : Nat) (payload : List Byte) (s : State) : Host.Outcome State Fault Refusal :=
  .next <|
    if !mgmtOk req sub 3 payload || !stoppable sub then mgmtBad s req sub payload
    else
      let ms := if leAt payload 12 2 = 0 then 1000 else leAt payload 12 2
      stopAsk s ⟨sub, some req, none, ms, s.now, leAt payload 4 4⟩

/-- What a block takes up again at CONFIG_START. -/
def blkResume (s : State) (blk : Nat) : State :=
  if blk = 14 then dirRetry (capRetry s)
  else if blk = 16 then coilRelease s
  else if blk = 18 then cldRelease s
  else if blk = 20 then rfStart s
  else if blk = 22 then prxRelease s
  else if blk = 24 then cphRelease s
  else if blk = 26 then rngRelease s
  else if blk = 28 then nvRetry s
  else if blk = 30 then ptRelease s
  else if blk = 32 then sadResume s
  else if blk = 34 then ledConfigStart s
  else if blk = 36 then plRetry s
  else s

/-- CONFIG_START of a block that is stopped or stopping; whether it is accepted. -/
def blkStart (s : State) (blk : Nat) : Bool × State :=
  if blk = 12 then swStartOp s else (true, blkResume (startBlock s blk) blk)

/-- MGMT_START (R23, R524): completes OK, then the CONFIG_STOP it ends completes CFG_REJECT. -/
def execHostMgmtStart (req : Req) (sub : Nat) (payload : List Byte) (s : State) : Host.Outcome State Fault Refusal :=
  .next <|
    let ofs := leAt payload 4 4
    if !mgmtOk req sub 4 payload || !stoppable sub then mgmtBad s req sub payload
    else if !noNewWork s sub then mgmtDone s req sub 4 St.ok ofs 0#32
    else match blkStart s sub with
      | (true, s) => fenceRun (stopWaitsEnd (mgmtDone s req sub 4 St.ok ofs 0#32) sub St.cfgReject)
      | (false, s) => mgmtDone s req sub 4 St.cfgReject ofs 0#32

/-- A block's units are idle (R23): what each chapter lets go on while it is stopped does not count. -/
def blkIdle (s : State) (blk : Nat) : Bool :=
  let jobs := s.nv.cust ++ s.nv.ord
  if blk = 12 then swIdle s
  else if blk = 14 then
    !s.on F.bsnStat_applying && s.dir.misses.isEmpty && (!s.dir.cmdPend || s.dir.waits.any fun w => w.req.isNone) && !jobs.any fun j => match j.cont with
      | .dir (some _) _ => true
      | _ => false
  else if blk = 16 then
    s.coil.running.isEmpty && (s.coil.mapFull.all fun m => !m.saving && !pmAwake s) && s.coil.progJob.isNone && !s.coil.progWait && !jobs.any fun j => match j.cont with
      | .coilMap _ valid => valid
      | _ => false
  else if blk = 18 then s.cld.txns.isEmpty
  else if blk = 20 then s.rf.run.isNone && s.prx.cur.isNone && s.prx.stalled.isNone
  else if blk = 22 then s.prx.cur.isNone && s.prx.stalled.isNone
  else if blk = 24 then s.cph.cores.all fun c => c.run.isNone && c.held.isNone
  else if blk = 28 then s.nv.waitRead.isEmpty && jobs.all fun j => j.own || !j.started
  else if blk = 30 then (s.pt.run.all fun t => t.who == 2) && (s.pt.queue.all fun t => t.who == 2)
  else if blk = 34 then !s.on F.ledStat_ckptBusy && s.led.tokNow.isEmpty && s.led.tokNext.isEmpty && s.led.stalled.isEmpty
  else true

/-- BLOCK_STOPPED (R23, R523). -/
def execBlockStopped (blk : Nat) (s : State) : Host.Outcome State Fault Refusal :=
  .next <|
    if !isStopping s blk || !blkIdle s blk then s
    else
      let s := { s with stops := { s.stops with
        stopping := s.stops.stopping.filter (· != blk), stopped := s.stops.stopped ++ [blk] } }
      let s := if blk = 34 then ledStopped s else s
      fenceRun (stopWaitsEnd s blk St.ok)

-- Records, failures, resets ---------------------------------------------------------------------------------------------------------

/-- COMPLETION_RECORD (R506, R513–R518). -/
def execHostCompletionRecord (sub : Nat) (f : Frame) (s : State) : Host.Outcome State Fault Refusal :=
  .next (fenceRun (recordArrive s sub f))

/-- DMA_FAIL (R526): of a descriptor read on SQ `ring`, or of a write for CQ `ring`. -/
def execHostDmaFail (write : Bool) (ring : Nat) (s : State) : Host.Outcome State Fault Refusal :=
  .next <|
    if s.hst.qspi || decide (16 ≤ ring) then s
    else if write then
      if s.on (F.hrCqCfg_en ring) then ringErr (cqOff s ring) 3 ring else s
    else if s.on (F.hrSqCfg_en ring) then ringErr (s.set (F.hrSqStat_err ring) 1) 2 ring
    else s

/-- HOST_IF_RESET (R494, R527): 0 PERST_N falls, 1 the link goes down, 2 D3hot. -/
def execHostIfReset (cause : Nat) (s : State) : Host.Outcome State Fault Refusal :=
  .next <|
    if s.hst.qspi || decide (3 ≤ cause) then s
    else
      let s := hostSetup s
      if cause = 2 then s
      else hstUpd s fun h => { h with pcieUp := false, perstN := if cause = 0 then false else h.perstN }

/-- PCIE_LINK_UP (R442). -/
def execHostPcieLinkUp (s : State) : Host.Outcome State Fault Refusal :=
  .next (if s.hst.qspi || !s.hst.perstN then s else p8Up (hstUpd s fun h => { h with pcieUp := true }))

-- QSPI (R490–R492, R672) --------------------------------------------------------------------------------------------------------------

/-- The word at a QSPI address (R491), with the read's effect. -/
def qspiGet (s : State) (a : Nat) : W32 × State :=
  if a < 0x10000 then regReadFx .host s a
  else if 0x20000 ≤ a ∧ a < 0x30000 then (BitVec.ofNat 32 (leNat (memRead s.hst.mem (a - 0x20000) 4)), s)
  else (0#32, s)

/-- `n` words from an address. -/
def qspiGets : Nat → State → Nat → List W32 × State
  | 0, s, _ => ([], s)
  | n + 1, s, a =>
    let (w, s) := qspiGet s a
    let (ws, s) := qspiGets n s ((a + 4) % 2 ^ 24)
    (w :: ws, s)

/-- A doorbell by its offset in BAR2. -/
def doorbell (s : State) (o : Nat) (v : W32) : State :=
  if o = 0x100 then eqDoorbell s v.toNat
  else if o < 0x80 then (if o % 8 = 0 then sqDoorbell s (o / 8) v.toNat else fenceRun (cqDoorbell s (o / 8) v.toNat))
  else s

/-- A written word. -/
def qspiPut (s : State) (a : Nat) (v : W32) : State :=
  if a < 0x10000 then regWrite .host s a v
  else if a < 0x10104 then doorbell s (a - 0x10000) v
  else if 0x20000 ≤ a ∧ a < 0x30000 then hostWrite s (a - 0x20000) (leBytes 4 v.toNat)
  else s

/-- Words written in address order. -/
def qspiPuts : State → Nat → List W32 → State
  | s, _, [] => s
  | s, a, w :: ws => qspiPuts (qspiPut s a w) ((a + 4) % 2 ^ 24) ws

def rdsrErr (s : State) : State := hstUpd s fun h => { h with rdsrErr := true }

/-- A transaction is taken: in QSPI mode, after CFG_DONE (R672), in a mode whose host interface runs. -/
def qspiTake (s : State) (addr : Nat) (f : State → State) : State :=
  if !s.hst.qspi then s
  else if !s.on F.clkStat_cfgDone then rdsrErr s
  else if !regOpen s then s
  else if addr % 4 ≠ 0 then rdsrErr s
  else f s

/-- Words shifted out; without the gap of R781 the first word of a set-up read is undefined. -/
def qspiRead (s : State) (addr n : Nat) (gap : Bool) : State :=
  qspiTake s addr fun s =>
    let a := addr % 2 ^ 24
    let (ws, s) := qspiGets n s a
    if gap || decide (0x10000 ≤ a) then hstUpd s fun h => { h with qsOut := ws }
    else
      let (x, s) := s.draw
      hstUpd s fun h => { h with qsOut := BitVec.ofNat 32 x :: ws.drop 1 }

/-- Words shifted in; `cut` says the transaction ended inside a further word. -/
def qspiWrite (s : State) (addr : Nat) (ws : List W32) (cut : Bool) : State :=
  qspiTake s addr fun s =>
    let s := qspiPuts s (addr % 2 ^ 24) ws
    if cut then rdsrErr s else s

/-- QSPI_READ (R490). -/
def execHostQspiRead (addr n : Nat) (gap : Bool) (s : State) : Host.Outcome State Fault Refusal := .next (qspiRead s addr n gap)
/-- QREAD (R490). -/
def execHostQread (addr n : Nat) (gap : Bool) (s : State) : Host.Outcome State Fault Refusal := .next (qspiRead s addr n gap)
/-- QSPI_WRITE (R492). -/
def execHostQspiWrite (addr : Nat) (ws : List W32) (cut : Bool) (s : State) : Host.Outcome State Fault Refusal :=
  .next (qspiWrite s addr ws cut)
/-- QWRITE (R492). -/
def execHostQwrite (addr : Nat) (ws : List W32) (cut : Bool) (s : State) : Host.Outcome State Fault Refusal :=
  .next (qspiWrite s addr ws cut)

/-- QS_IRQ_N is driven low (R493). -/
def qsIrq (s : State) : Bool := (s.hst.cqRecs.any fun l => l.any id) || s.hst.eqRecs.any id

/-- RDSR (R492, R672): the status byte, after which ERR reads 0. -/
def execHostRdsr (s : State) : Host.Outcome State Fault Refusal :=
  .next <|
    if !s.hst.qspi then s
    else
      let b := b2n (!s.on F.clkStat_cfgDone) + 2 * b2n (qsIrq s) + 4 * b2n s.hst.rdsrErr
      hstUpd s fun h => { h with qsOut := [BitVec.ofNat 32 b], rdsrErr := false }

end Sys2Proof.Machine
end

