-- ==== Sys2Proof/Machine/IvAlu.lean ====
section
/-! DEFINITION. Commands: the ALU instructions (Table 17.6), each in its 32-bit form or, where `short`, its 16-bit one. -/

namespace Sys2Proof.Machine

/-- MOV (Table 17.6). -/
def execIvMov (rd ra : Nat) (short : Bool) (s : State) : Host.Outcome State Fault Refusal := ivGo short (.un .mov rd ra) s
/-- ADD (Table 17.6). -/
def execIvAdd (rd ra rb : Nat) (short : Bool) (s : State) : Host.Outcome State Fault Refusal := ivGo short (.alu .add rd ra rb) s
/-- ADC (Table 17.6). -/
def execIvAdc (rd ra rb : Nat) (short : Bool) (s : State) : Host.Outcome State Fault Refusal := ivGo short (.alu .adc rd ra rb) s
/-- SUB (Table 17.6). -/
def execIvSub (rd ra rb : Nat) (short : Bool) (s : State) : Host.Outcome State Fault Refusal := ivGo short (.alu .sub rd ra rb) s
/-- SBC (Table 17.6). -/
def execIvSbc (rd ra rb : Nat) (short : Bool) (s : State) : Host.Outcome State Fault Refusal := ivGo short (.alu .sbc rd ra rb) s
/-- AND (Table 17.6). -/
def execIvAnd (rd ra rb : Nat) (short : Bool) (s : State) : Host.Outcome State Fault Refusal := ivGo short (.alu .and rd ra rb) s
/-- OR (Table 17.6). -/
def execIvOr (rd ra rb : Nat) (short : Bool) (s : State) : Host.Outcome State Fault Refusal := ivGo short (.alu .or rd ra rb) s
/-- XOR (Table 17.6). -/
def execIvXor (rd ra rb : Nat) (short : Bool) (s : State) : Host.Outcome State Fault Refusal := ivGo short (.alu .xor rd ra rb) s
/-- NOT (Table 17.6). -/
def execIvNot (rd ra : Nat) (short : Bool) (s : State) : Host.Outcome State Fault Refusal := ivGo short (.un .not rd ra) s
/-- NEG (Table 17.6). -/
def execIvNeg (rd ra : Nat) (short : Bool) (s : State) : Host.Outcome State Fault Refusal := ivGo short (.un .neg rd ra) s
/-- CMP (Table 17.6). -/
def execIvCmp (ra rb : Nat) (short : Bool) (s : State) : Host.Outcome State Fault Refusal := ivGo short (.cmp ra rb) s
/-- TST (Table 17.6). -/
def execIvTst (ra rb : Nat) (short : Bool) (s : State) : Host.Outcome State Fault Refusal := ivGo short (.tst ra rb) s
/-- SHL (R616). -/
def execIvShl (rd ra rb : Nat) (short : Bool) (s : State) : Host.Outcome State Fault Refusal := ivGo short (.shift .shl rd ra rb) s
/-- SHR (R616). -/
def execIvShr (rd ra rb : Nat) (short : Bool) (s : State) : Host.Outcome State Fault Refusal := ivGo short (.shift .shr rd ra rb) s
/-- SAR (R616). -/
def execIvSar (rd ra rb : Nat) (short : Bool) (s : State) : Host.Outcome State Fault Refusal := ivGo short (.shift .sar rd ra rb) s
/-- ROR (R616). -/
def execIvRor (rd ra rb : Nat) (short : Bool) (s : State) : Host.Outcome State Fault Refusal := ivGo short (.shift .ror rd ra rb) s
/-- SHLI (R616). -/
def execIvShli (rd ra n : Nat) (short : Bool) (s : State) : Host.Outcome State Fault Refusal := ivGo short (.shifti .shl rd ra n) s
/-- SHRI (R616). -/
def execIvShri (rd ra n : Nat) (short : Bool) (s : State) : Host.Outcome State Fault Refusal := ivGo short (.shifti .shr rd ra n) s
/-- SARI (R616). -/
def execIvSari (rd ra n : Nat) (short : Bool) (s : State) : Host.Outcome State Fault Refusal := ivGo short (.shifti .sar rd ra n) s
/-- RORI (R616). -/
def execIvRori (rd ra n : Nat) (short : Bool) (s : State) : Host.Outcome State Fault Refusal := ivGo short (.shifti .ror rd ra n) s
/-- SXB (Table 17.6). -/
def execIvSxb (rd ra : Nat) (short : Bool) (s : State) : Host.Outcome State Fault Refusal := ivGo short (.un .sxb rd ra) s
/-- SXH (Table 17.6). -/
def execIvSxh (rd ra : Nat) (short : Bool) (s : State) : Host.Outcome State Fault Refusal := ivGo short (.un .sxh rd ra) s
/-- ZXB (Table 17.6). -/
def execIvZxb (rd ra : Nat) (short : Bool) (s : State) : Host.Outcome State Fault Refusal := ivGo short (.un .zxb rd ra) s
/-- ZXH (Table 17.6). -/
def execIvZxh (rd ra : Nat) (short : Bool) (s : State) : Host.Outcome State Fault Refusal := ivGo short (.un .zxh rd ra) s
/-- ADDI (Table 17.6). -/
def execIvAddi (rd ra : Nat) (imm : Int) (short : Bool) (s : State) : Host.Outcome State Fault Refusal := ivGo short (.addi rd ra imm) s
/-- ANDI (Table 17.6). -/
def execIvAndi (rd ra imm : Nat) (s : State) : Host.Outcome State Fault Refusal := ivGo false (.logi .and rd ra imm) s
/-- ORI (Table 17.6). -/
def execIvOri (rd ra imm : Nat) (s : State) : Host.Outcome State Fault Refusal := ivGo false (.logi .or rd ra imm) s
/-- XORI (Table 17.6). -/
def execIvXori (rd ra imm : Nat) (s : State) : Host.Outcome State Fault Refusal := ivGo false (.logi .xor rd ra imm) s
/-- CMPI (Table 17.6). -/
def execIvCmpi (ra : Nat) (imm : Int) (short : Bool) (s : State) : Host.Outcome State Fault Refusal := ivGo short (.cmpi ra imm) s
/-- LUI (Table 17.6). -/
def execIvLui (rd imm : Nat) (s : State) : Host.Outcome State Fault Refusal := ivGo false (.lui rd imm) s
/-- MOVI (Table 17.6). -/
def execIvMovi (rd : Nat) (imm : Int) (short : Bool) (s : State) : Host.Outcome State Fault Refusal := ivGo short (.movi rd imm) s

end Sys2Proof.Machine
end

