-- ==== Sys2Proof/Machine/IvBits.lean ====
section
/-! DEFINITION. Commands: the bit instructions (Table 17.8), each in its 32-bit form or, where `short`, its 16-bit one. -/

namespace Sys2Proof.Machine

/-- LDBIT (Table 17.8). -/
def execIvLdbit (baddr : Nat) (x : Option Nat) (short : Bool) (s : State) : Host.Outcome State Fault Refusal := ivGo short (.bit .ldbit baddr x) s
/-- LDBITN (Table 17.8). -/
def execIvLdbitn (baddr : Nat) (x : Option Nat) (s : State) : Host.Outcome State Fault Refusal := ivGo false (.bit .ldbitn baddr x) s
/-- ANDB (Table 17.8). -/
def execIvAndb (baddr : Nat) (x : Option Nat) (short : Bool) (s : State) : Host.Outcome State Fault Refusal := ivGo short (.bit .andb baddr x) s
/-- ANDBN (Table 17.8). -/
def execIvAndbn (baddr : Nat) (x : Option Nat) (s : State) : Host.Outcome State Fault Refusal := ivGo false (.bit .andbn baddr x) s
/-- ORB (Table 17.8). -/
def execIvOrb (baddr : Nat) (x : Option Nat) (short : Bool) (s : State) : Host.Outcome State Fault Refusal := ivGo short (.bit .orb baddr x) s
/-- ORBN (Table 17.8). -/
def execIvOrbn (baddr : Nat) (x : Option Nat) (s : State) : Host.Outcome State Fault Refusal := ivGo false (.bit .orbn baddr x) s
/-- XORB (Table 17.8). -/
def execIvXorb (baddr : Nat) (x : Option Nat) (short : Bool) (s : State) : Host.Outcome State Fault Refusal := ivGo short (.bit .xorb baddr x) s
/-- STBIT (Table 17.8). -/
def execIvStbit (baddr : Nat) (x : Option Nat) (short : Bool) (s : State) : Host.Outcome State Fault Refusal := ivGo short (.bit .stbit baddr x) s
/-- STBITN (Table 17.8). -/
def execIvStbitn (baddr : Nat) (x : Option Nat) (s : State) : Host.Outcome State Fault Refusal := ivGo false (.bit .stbitn baddr x) s
/-- SETB (Table 17.8). -/
def execIvSetb (baddr : Nat) (x : Option Nat) (short : Bool) (s : State) : Host.Outcome State Fault Refusal := ivGo short (.bit .setb baddr x) s
/-- CLRB (Table 17.8). -/
def execIvClrb (baddr : Nat) (x : Option Nat) (short : Bool) (s : State) : Host.Outcome State Fault Refusal := ivGo short (.bit .clrb baddr x) s
/-- NOTB (Table 17.8). -/
def execIvNotb (baddr : Nat) (x : Option Nat) (short : Bool) (s : State) : Host.Outcome State Fault Refusal := ivGo short (.bit .notb baddr x) s
/-- TSTSET (Table 17.8). -/
def execIvTstset (baddr : Nat) (x : Option Nat) (s : State) : Host.Outcome State Fault Refusal := ivGo false (.bit .tstset baddr x) s
/-- BACC (Table 17.8). -/
def execIvBacc (n : Nat) (s : State) : Host.Outcome State Fault Refusal := ivGo false (.bacc n) s

end Sys2Proof.Machine
end

