-- ==== Sys2Proof/Machine/IvControl.lean ====
section
/-! DEFINITION. Commands: the control transfers (Table 17.9), each in its 32-bit form or, where `short`, its 16-bit one. -/

namespace Sys2Proof.Machine

/-- Bcc (Table 17.9). -/
def execIvBcc (cond : Nat) (disp : Int) (short : Bool) (s : State) : Host.Outcome State Fault Refusal := ivGo short (.bcc cond disp) s
/-- JMP (Table 17.9). -/
def execIvJmp (disp : Int) (short : Bool) (s : State) : Host.Outcome State Fault Refusal := ivGo short (.jmp disp) s
/-- CALL (Table 17.9). -/
def execIvCall (disp : Int) (short : Bool) (s : State) : Host.Outcome State Fault Refusal := ivGo short (.call disp) s
/-- JR (Table 17.9). -/
def execIvJr (ra : Nat) (short : Bool) (s : State) : Host.Outcome State Fault Refusal := ivGo short (.jr ra) s
/-- CALLR (Table 17.9). -/
def execIvCallr (ra : Nat) (short : Bool) (s : State) : Host.Outcome State Fault Refusal := ivGo short (.callr ra) s
/-- RET (R575). -/
def execIvRet (short : Bool) (s : State) : Host.Outcome State Fault Refusal := ivGo short (.ret) s
/-- TRET (R595). -/
def execIvTret (short : Bool) (s : State) : Host.Outcome State Fault Refusal := ivGo short (.tret) s

end Sys2Proof.Machine
end

