-- ==== Sys2Proof/Machine/IvMemory.lean ====
section
/-! DEFINITION. Commands: the memory and stack instructions (Table 17.7), each in its 32-bit form or, where `short`, its 16-bit one. -/

namespace Sys2Proof.Machine

/-- LDW (Table 17.7). -/
def execIvLdw (rd ra : Nat) (imm : Int) (short : Bool) (s : State) : Host.Outcome State Fault Refusal := ivGo short (.ld 4 false rd ra imm) s
/-- LDH (Table 17.7). -/
def execIvLdh (rd ra : Nat) (imm : Int) (s : State) : Host.Outcome State Fault Refusal := ivGo false (.ld 2 true rd ra imm) s
/-- LDHU (Table 17.7). -/
def execIvLdhu (rd ra : Nat) (imm : Int) (s : State) : Host.Outcome State Fault Refusal := ivGo false (.ld 2 false rd ra imm) s
/-- LDB (Table 17.7). -/
def execIvLdb (rd ra : Nat) (imm : Int) (s : State) : Host.Outcome State Fault Refusal := ivGo false (.ld 1 true rd ra imm) s
/-- LDBU (Table 17.7). -/
def execIvLdbu (rd ra : Nat) (imm : Int) (short : Bool) (s : State) : Host.Outcome State Fault Refusal := ivGo short (.ld 1 false rd ra imm) s
/-- STW (Table 17.7). -/
def execIvStw (rd ra : Nat) (imm : Int) (short : Bool) (s : State) : Host.Outcome State Fault Refusal := ivGo short (.st 4 rd ra imm) s
/-- STH (Table 17.7). -/
def execIvSth (rd ra : Nat) (imm : Int) (s : State) : Host.Outcome State Fault Refusal := ivGo false (.st 2 rd ra imm) s
/-- STB (Table 17.7). -/
def execIvStb (rd ra : Nat) (imm : Int) (short : Bool) (s : State) : Host.Outcome State Fault Refusal := ivGo short (.st 1 rd ra imm) s
/-- LDD (Table 17.7). -/
def execIvLdd (rd imm : Nat) (s : State) : Host.Outcome State Fault Refusal := ivGo false (.ldd rd imm) s
/-- STD (Table 17.7). -/
def execIvStd (rd imm : Nat) (s : State) : Host.Outcome State Fault Refusal := ivGo false (.std rd imm) s
/-- PUSH (R571). -/
def execIvPush (ra : Nat) (short : Bool) (s : State) : Host.Outcome State Fault Refusal := ivGo short (.push ra) s
/-- POP (R571). -/
def execIvPop (rd : Nat) (short : Bool) (s : State) : Host.Outcome State Fault Refusal := ivGo short (.pop rd) s

end Sys2Proof.Machine
end

