-- ==== Sys2Proof/Machine/IvMultiply.lean ====
section
/-! DEFINITION. Commands: the multiply and character instructions (Table 17.10), each in its 32-bit form or, where `short`, its 16-bit one. -/

namespace Sys2Proof.Machine

/-- MUL (Table 17.10). -/
def execIvMul (rd ra rb : Nat) (s : State) : Host.Outcome State Fault Refusal := ivGo false (.mul false false rd ra rb) s
/-- MULHS (Table 17.10). -/
def execIvMulhs (rd ra rb : Nat) (s : State) : Host.Outcome State Fault Refusal := ivGo false (.mul true true rd ra rb) s
/-- MULHU (Table 17.10). -/
def execIvMulhu (rd ra rb : Nat) (s : State) : Host.Outcome State Fault Refusal := ivGo false (.mul true false rd ra rb) s
/-- MLS (R625). -/
def execIvMls (ra rb : Nat) (short : Bool) (s : State) : Host.Outcome State Fault Refusal := ivGo short (.lmul true ra rb) s
/-- MLU (R625). -/
def execIvMlu (ra rb : Nat) (short : Bool) (s : State) : Host.Outcome State Fault Refusal := ivGo short (.lmul false ra rb) s
/-- CRCB (R626). -/
def execIvCrcb (rd ra : Nat) (mem short : Bool) (s : State) : Host.Outcome State Fault Refusal := ivGo (short && !mem) (.crc 1 rd ra mem) s
/-- CRCH (R626). -/
def execIvCrch (rd ra : Nat) (mem short : Bool) (s : State) : Host.Outcome State Fault Refusal := ivGo (short && !mem) (.crc 2 rd ra mem) s
/-- CRCW (R626). -/
def execIvCrcw (rd ra : Nat) (mem short : Bool) (s : State) : Host.Outcome State Fault Refusal := ivGo (short && !mem) (.crc 4 rd ra mem) s
/-- PAR (Table 17.10). -/
def execIvPar (ra : Nat) (short : Bool) (s : State) : Host.Outcome State Fault Refusal := ivGo short (.par ra) s
/-- BREV.B (Table 17.10). -/
def execIvBrevB (rd ra : Nat) (short : Bool) (s : State) : Host.Outcome State Fault Refusal := ivGo short (.brev 1 rd ra) s
/-- BREV.H (Table 17.10). -/
def execIvBrevH (rd ra : Nat) (short : Bool) (s : State) : Host.Outcome State Fault Refusal := ivGo short (.brev 2 rd ra) s
/-- BREV.W (Table 17.10). -/
def execIvBrevW (rd ra : Nat) (short : Bool) (s : State) : Host.Outcome State Fault Refusal := ivGo short (.brev 4 rd ra) s

end Sys2Proof.Machine
end

