-- ==== Sys2Proof/Machine/IvSystem.lean ====
section
/-! DEFINITION. Commands: the system instructions (Table 17.12), each in its 32-bit form or, where `short`, its 16-bit one. -/

namespace Sys2Proof.Machine

/-- MFS (Table 17.12). -/
def execIvMfs (rd sr : Nat) (short : Bool) (s : State) : Host.Outcome State Fault Refusal := ivGo short (.mfs rd sr) s
/-- MTS (R629). -/
def execIvMts (sr ra : Nat) (short : Bool) (s : State) : Host.Outcome State Fault Refusal := ivGo short (.mts sr ra) s
/-- RPT #n, or with `reg` RPT Wn (R580). -/
def execIvRpt (n : Nat) (reg short : Bool) (s : State) : Host.Outcome State Fault Refusal := ivGo short (if reg then .rptr false n else .rpt false n) s
/-- RPTI #n, or with `reg` RPTI Wn (R580). -/
def execIvRpti (n : Nat) (reg : Bool) (s : State) : Host.Outcome State Fault Refusal := ivGo false (if reg then .rptr true n else .rpt true n) s
/-- SLEEP (R628, R639). -/
def execIvSleep (mode : Nat) (short : Bool) (s : State) : Host.Outcome State Fault Refusal := ivGo short (.sleep mode) s
/-- BREAK (R628). -/
def execIvBreak (imm : Nat) (short : Bool) (s : State) : Host.Outcome State Fault Refusal := ivGo short (.brk imm) s
/-- SYSCALL (R628). -/
def execIvSyscall (imm : Nat) (short : Bool) (s : State) : Host.Outcome State Fault Refusal := ivGo short (.syscall imm) s
/-- NOP (Table 17.12). -/
def execIvNop (short : Bool) (s : State) : Host.Outcome State Fault Refusal := ivGo short (.nop) s
/-- WAIT (R630). -/
def execIvWait (s : State) : Host.Outcome State Fault Refusal := ivGo false (.wait) s
/-- SYNC (R618). -/
def execIvSync (s : State) : Host.Outcome State Fault Refusal := ivGo false (.sync) s

end Sys2Proof.Machine
end

