-- ==== Sys2Proof/Machine/Ivc.lean ====
section
/-! DEFINITION. Commands of the core's control block (16_ivler_core.md): the receive rings, the transmit engine, the watchdog,
IVC_CTRL, and interrupts. -/

namespace Sys2Proof.Machine

/-- FW_QUEUE_FRAME (R597): a frame for P12 sub-port n. -/
def execIvcFwQueueFrame (n : Nat) (f : Frame) (s : State) : Host.Outcome State Fault Refusal :=
  .next (if 16 ≤ n ∨ portDown s 12 then s else qArrive s n f)

/-- TX_GO (R599): IVC_TXCTL written with GO. -/
def execIvcTxGo (len queue : Nat) (s : State) : Host.Outcome State Fault Refusal := .next (txGo s (len % 65536) (queue % 16))

/-- TRANSMIT_ENGINE_DONE (R599). -/
def execIvcTransmitEngineDone (s : State) : Host.Outcome State Fault Refusal := .next (txDone s)

/-- WDKICK (R601). -/
def execIvcWdkick (key : Nat) (s : State) : Host.Outcome State Fault Refusal := .next (wdKick s (key % 256))

/-- The watchdog counts: TIMEOUT is not 0, the core runs and is not halted (R601). -/
def wdtRuns (s : State) : Bool := s.get F.ivcWdt_timeout != 0 && ivcRunning s && !s.iv.halted

/-- WDT_WARN (R592, R601): half of TIMEOUT has passed. The warning is taken here or at the next boundary, unless NMI is 1. -/
def execIvcWdtWarn (s : State) : Host.Outcome State Fault Refusal :=
  .next <|
    if !wdtRuns s then s
    else
      let s := raise s 125 0
      if csBit s.iv.core Cs.nmi then s else warnTake (ivUpd s fun c => { c with warn := true })

/-- WDT_RESET (R601): TIMEOUT has passed. -/
def execIvcWdtReset (s : State) : Host.Outcome State Fault Refusal :=
  .next (if wdtRuns s then raise (ivReset s 2) 125 1 else s)

/-- IVC_RUN (R602, R603): IVC_CTRL.RUN written; firmware's writes are ignored. -/
def execIvcRun (src : Src) (run : Bool) (s : State) : Host.Outcome State Fault Refusal :=
  .next (if srcIsHost src then ivRunOp s run else s)

/-- The interrupt due at this boundary (R591). -/
def irqDue (s : State) : Option (Nat × Nat) :=
  if ivcRunning s && !s.iv.halted && s.pm.entry != 1 && s.pm.entry != 2 && s.iv.load.isNone && ivBoundary s
      && csBit s.iv.core Cs.ie && !csBit s.iv.core Cs.trap then irqBest s else none

/-- INTERRUPT_ENTRY (R590, R591). -/
def execIvcInterruptEntry (s : State) : Host.Outcome State Fault Refusal :=
  .next <|
    let s := loadSettle s
    match irqDue s with
    | none => s
    | some (n, level) => irqEnter s n level

end Sys2Proof.Machine
end

