-- ==== Sys2Proof/Machine/RngRows.lean ====
section
/-! DEFINITION. The rows of the random number unit that let other blocks go on (10_random_numbers.md): a tested block (R349),
a reseed's end (R364), and a wait of 2 ms (R360, R362). -/

namespace Sys2Proof.Machine

/-- Draws that waited try again: of the cipher engine (R301), the ledger (R81), the Cloade engine (R173), a sweep (R276), the
vehicle interface (R734) and the security block; the root key's generation takes its seed (R706), and a debug read goes on. -/
def rngResume (s : State) : State :=
  dbgResume (secGo (canResume (prxResume (cldResume (ledResume (cphRun (if s.on F.clkStat_cfgDone then rootGenerate s else s)))))))

/-- BLOCK_TESTED (R349): the 128 bytes of a block from Jasper, from Opal, or from both in one cycle. -/
def execRngBlockTested (jasper opal : Option (List Byte)) (s : State) : Host.Outcome State Fault Refusal :=
  .next (rngResume (rngBlocks s jasper opal))

/-- RESEED_DONE (R364): instance i. -/
def execRngReseedDone (i : Nat) (s : State) : Host.Outcome State Fault Refusal :=
  .next (if i < 8 then rngResume (rngReseed s i) else s)

/-- A waiting reader's 2 ms end: a register read returns 0 with its STALL_TO bit, a frame request completes TIMEOUT (R362,
R368). -/
def rngReaderStall (s : State) (n : Nat) : State :=
  match s.rng.waits[n]? with
  | none => s
  | some w =>
    let s := rngUpd s fun r => { r with waits := r.waits.eraseIdx n }
    match w with
    | .read host raw => rngStall (rngRet s host raw (zeros 4)) host
    | .mgmt req sub ofs _ => rngStall (rngMgmtRet s req sub ofs (zeros 4)) (req.port != 12)
    | .debug _ => dbgResume (rngStall (rngDebugRet s (zeros 4)) false)
    | .frame req _ _ _ => complete (raise s 81 0) 15 26 req 0x06 (rngPayload St.timeout [])

/-- The n-th cipher request that waits for its masks has waited 2 ms (R301). -/
def cphMaskStall (s : State) (n : Nat) : State :=
  match (s.cph.queue.filter fun r => r.rngWait)[n]? with
  | none => s
  | some r =>
    let s := match corePick s r.req.cls with
      | some (i, _) => raise s (70 + i) 2
      | none => s
    cphRun (cphFailReq ((cphDrop s r.id).bump F.cphCnt1_rngfail 1) r St.timeout)

/-- Somebody's draw waits, so that its 2 ms can end. -/
def stallWaits (s : State) : StallWho → Bool
  | .reader n => decide (n < s.rng.waits.length)
  | .cipher n => decide (n < (s.cph.queue.filter fun r => r.rngWait).length)
  | .token n => decide (n < s.led.stalled.length)
  | .cloade ch => s.cld.txns.any fun t => t.ch == ch && t.stall != 0 && decide (t.stall < 5)
  | .sweep => s.prx.stalled.isSome
  | .can n => decide (n < s.vio.waits.length)
  | .sec n => n == 0 && !s.sec.busy && !secReads s && !s.sec.queue.isEmpty

/-- The client's outcome (R362). -/
def stallEnd (s : State) : StallWho → State
  | .reader n => rngReaderStall s n
  | .cipher n => cphMaskStall s n
  | .token n => ledStall s n
  | .cloade ch => cldStall s ch
  | .sweep => prxStall s
  | .can n => canStall s n
  | .sec _ => secStall s

/-- RNG_STALL_TIMEOUT (R360): the STALL_TO event of an internal draw is raised here, a reader's with its completion. -/
def execRngStallTimeout (who : StallWho) (s : State) : Host.Outcome State Fault Refusal :=
  .next <|
    if !stallWaits s who then s
    else match who with
      | .reader n => rngReaderStall s n
      | w => stallEnd (raise s 81 0) w

end Sys2Proof.Machine
end

