-- ==== Sys2Proof/Machine/NvDone.lean ====
section
/-! DEFINITION. The end of a page write (R377, R378) and of the request it belongs to: what follows in the block that asked
for it, the reads that waited for the page (R384), and the next page (R382). -/

namespace Sys2Proof.Machine

/-- The SEQ a record read would select now, and whether from copy B. -/
def recSeqNow (s : State) (d : RecDesc) : Nat × Bool :=
  match recSelect s d with
  | some x => (x.seq, x.copyB)
  | none => (0, false)

/-- A register write or record write has ended (R405). -/
def regCmdDone (s : State) (isRec : Bool) (desc status : Nat) : State :=
  let s := if isRec then s.setW W.nvRecseq (BitVec.ofNat 32 (recSeqNow s (userDesc s desc)).1) else s
  nvRegEnd s status

/-- A frame's write has ended (R407). -/
def frameWriteDone (s : State) (req : Req) (op len desc status : Nat) : State :=
  let seq := if op = 4 then (recSeqNow s (userDesc s desc)).1 else 0
  nvFrameAnswer s req status 0 0 seq len []

/-- The pages of R204: 2, 3 and 16 to 21 with the report of TYPE 0x81 and NONCE zero; with no domain key its MAC is a free
value. -/
def ledgerPages (s : State) : List (Nat × List Byte) × State :=
  let b := ledReportBody s 0x81 []
  match lessorKey s "LRPT" with
  | some k => (ptStatusPages s ++ pages16 16 (b ++ cmac k b), maskTake 2 s)
  | none =>
    let (m, s) := s.drawBytes 16
    (ptStatusPages s ++ pages16 16 (b ++ m), s)

/-- The passport pages follow a checkpoint that asks for them, or the first that ends 2 h or more after the last rewrite
(R204). -/
def pagesAfterCkpt (s : State) (asked : Bool) : State :=
  if asked || decide (s.led.pageAt + 7200 ≤ s.rtcSec) then
    let (ps, s) := ledgerPages s
    ptLedgerTxn (ledUpd s fun l => { l with pageAt := s.rtcSec }) ps
  else s

/-- A checkpoint has ended (R84, R88, R204, R327, R640, R710). -/
def checkpointDone (s : State) (status : Nat) : State :=
  let asked := s.led.pageNow
  let s := pagesAfterCkpt (ckptDone (ledUpd s fun l => { l with pageNow := false }) status) asked
  ledRelease (cphRun (secGo (secCkptDone (pmCkptDone s))))

/-- The keeper's save has ended (R386, R653). -/
def keeperDone (s : State) (status : Nat) : State :=
  let s := { s with nv := { s.nv with keeper := false } }
  if status ≠ St.ok then s
  else
    let s := s.set F.pmHoldinfo_saved 1
    if s.led.touched then s else s.set F.pmStat_keepDirty 0

/-- The other copy of the restored pair is written, and the ledger takes pulses (R89). -/
def keepCopyDone (s : State) : State := ledApply (ledUpd s fun l => { l with copyB := false })

/-- The outcome of copy A: OK whenever copy B was begun (R315, R392). `left` counts the pages not written. -/
def copyAStatus (status left : Nat) : Nat := if status = St.ok ∨ left ≤ 1 then St.ok else status

/-- A closing statement has been saved: it goes to its passport pages (R204). -/
def statementPages (s : State) (k : NvKind) : State :=
  match k with
  | .record d p => if 0x10 ≤ d.id ∧ d.id ≤ 0x13 then ptLedgerTxn s (pages16 (22 + 6 * (d.id - 0x10)) (fit 96 p)) else s
  | _ => s

/-- What follows the end of a request with its status; `left` counts its pages still to write when it ended. -/
def nvAfterJob (s : State) (j : NvJob) (status left : Nat) : State :=
  match j.cont with
  | .none => s
  | .regCmd isRec desc => regCmdDone s isRec desc status
  | .frame req op len desc => frameWriteDone s req op len desc status
  | .saveCfg => (nvSubmit s (.record recSystem (recSysBytes s)) false false j.src .none).2
  | .scrub => scrubAdvance 8192 s
  | .checkpoint => checkpointDone s status
  | .policy => policyDone s
  | .closing => secGo (secCkptDone (ledClosed (statementPages s j.kind)))
  | .keepCopy => keepCopyDone s
  | .keeper => keeperDone s status
  | .coilMap full valid => mapSaved s full valid (status == St.ok)
  | .pt id => secGo (secCkptDone (ptPageDone s id status))
  | .regLock => regLocked s j.kind (status == St.ok)
  | .domain req sec core epoch key =>
    let copyA := copyAStatus status left
    if sec then secDomainDone s status copyA epoch key else cphRun (domainDone s req core epoch key status copyA)
  | .dir req payload => dirAnswer s req (overlay payload 0 [byte status])
  | .sec step st => secNvDone s step st status

/-- A page write ends, the reads that waited for it are served, its request goes on or ends, and the next page begins. -/
def pageDone (s : State) (found : Option (List Byte)) : State :=
  if s.nv.cur.isNone then s
  else
    let (ended, s) := nvPageEnd s found
    let ws := s.nv.waitRead
    let s := nvServe (nvUpd s fun n => { n with waitRead := [] }) ws
    let s := secGo (dbgResume (loadSettle s))
    let s := match ended with
      | some (j, status) => nvAfterJob s j status j.pages.length
      | none => s
    nvKick s

/-- PAGE_WRITE_DONE (R377, R378): `found` is the page as the second read-back found it where that did not match. -/
def execNvPageWriteDone (found : Option (List Byte)) (s : State) : Host.Outcome State Fault Refusal := .next (pageDone s found)

end Sys2Proof.Machine
end

