-- ==== Sys2Proof/Machine/Dispatch.lean ====
section
/-! DEFINITION. One arm per command: its meaning, or a rejection by name while it has none. -/

namespace Sys2Proof.Machine

def exec (i : Instr) (s : State) : Host.Outcome State Fault Refusal :=
  match i with
  | .registerWrite src off be v => Sys2Proof.Machine.execRegisterWrite src off be v s
  | .blockStopped blk => Sys2Proof.Machine.execBlockStopped blk s
  | .sadEvaluationCycle => Sys2Proof.Machine.execSadEvaluationCycle s
  | .sadTermResult r => Sys2Proof.Machine.execSadTermResult r s
  | .sadArmTimeout => Sys2Proof.Machine.execSadArmTimeout s
  | .sadParkDwell => Sys2Proof.Machine.execSadParkDwell s
  | .sadVehStale => Sys2Proof.Machine.execSadVehStale s
  | .sadTermMaxage term => Sys2Proof.Machine.execSadTermMaxage term s
  | .sadFbWindowExpiry => Sys2Proof.Machine.execSadFbWindowExpiry s
  | .sadRelFbChange level => Sys2Proof.Machine.execSadRelFbChange level s
  | .sadRequest src => Sys2Proof.Machine.execSadRequest src s
  | .sadEnd => Sys2Proof.Machine.execSadEnd s
  | .sadForceClear => Sys2Proof.Machine.execSadForceClear s
  | .sadSavePolicy src => Sys2Proof.Machine.execSadSavePolicy src s
  | .sadRecheck => Sys2Proof.Machine.execSadRecheck s
  | .sadVehicleStatus req parked ctx => Sys2Proof.Machine.execSadVehicleStatus req parked ctx s
  | .sadVehicleStart req => Sys2Proof.Machine.execSadVehicleStart req s
  | .sadVehicleStop req => Sys2Proof.Machine.execSadVehicleStop req s
  | .saddleReqRelease req payload => Sys2Proof.Machine.execSaddleReqRelease req payload s
  | .saddleReqEnd req payload => Sys2Proof.Machine.execSaddleReqEnd req payload s
  | .saddleReqReport req payload => Sys2Proof.Machine.execSaddleReqReport req payload s
  | .ledPulseApply => Sys2Proof.Machine.execLedPulseApply s
  | .ledCheckpointDue => Sys2Proof.Machine.execLedCheckpointDue s
  | .ledCheckpoint => Sys2Proof.Machine.execLedCheckpoint s
  | .ledTokenFrame req token => Sys2Proof.Machine.execLedTokenFrame req token s
  | .coilProgramEntry => Sys2Proof.Machine.execCoilProgramEntry s
  | .coilProgWait => Sys2Proof.Machine.execCoilProgWait s
  | .coilJobCensus req port sub payload => Sys2Proof.Machine.execCoilJobCensus req port sub payload s
  | .coilJobAuth req port sub payload => Sys2Proof.Machine.execCoilJobAuth req port sub payload s
  | .coilJobCensusAuth req port sub payload => Sys2Proof.Machine.execCoilJobCensusAuth req port sub payload s
  | .coilJobSweep req port sub payload => Sys2Proof.Machine.execCoilJobSweep req port sub payload s
  | .coilJobMapRow req port sub payload => Sys2Proof.Machine.execCoilJobMapRow req port sub payload s
  | .coilAdmissionPass => Sys2Proof.Machine.execCoilAdmissionPass s
  | .coilTaskPreempt ch => Sys2Proof.Machine.execCoilTaskPreempt ch s
  | .coilFieldStable ch ok => Sys2Proof.Machine.execCoilFieldStable ch ok s
  | .coilFollowUpdate us targets => Sys2Proof.Machine.execCoilFollowUpdate us targets s
  | .coilTaskComplete ch => Sys2Proof.Machine.execCoilTaskComplete ch s
  | .coilTaskTimeout ch => Sys2Proof.Machine.execCoilTaskTimeout ch s
  | .coilSweepDone ch fres q rs => Sys2Proof.Machine.execCoilSweepDone ch fres q rs s
  | .coilMapRowDone ch cur volts => Sys2Proof.Machine.execCoilMapRowDone ch cur volts s
  | .coilMapRefresh => Sys2Proof.Machine.execCoilMapRefresh s
  | .coilMapSaveDue => Sys2Proof.Machine.execCoilMapSaveDue s
  | .coilChannelFault ch code => Sys2Proof.Machine.execCoilChannelFault ch code s
  | .coilGroupDown group uv ov hot vdrv => Sys2Proof.Machine.execCoilGroupDown group uv ov hot vdrv s
  | .coilGroupUp group vdrv => Sys2Proof.Machine.execCoilGroupUp group vdrv s
  | .coilAutoretry ch => Sys2Proof.Machine.execCoilAutoretry ch s
  | .coilMapFull src => Sys2Proof.Machine.execCoilMapFull src s
  | .coilMapSave src => Sys2Proof.Machine.execCoilMapSave src s
  | .coilProgStart => Sys2Proof.Machine.execCoilProgStart s
  | .coilProgHalt => Sys2Proof.Machine.execCoilProgHalt s
  | .coilProgSave src => Sys2Proof.Machine.execCoilProgSave src s
  | .coilSweep src ch => Sys2Proof.Machine.execCoilSweep src ch s
  | .coilRetry src ch => Sys2Proof.Machine.execCoilRetry src ch s
  | .coilMapRow src ch => Sys2Proof.Machine.execCoilMapRow src ch s
  | .cldTporElapsed ch => Sys2Proof.Machine.execCldTporElapsed ch s
  | .cldDownlinkSent ch => Sys2Proof.Machine.execCldDownlinkSent ch s
  | .cldSlotReply ch reply => Sys2Proof.Machine.execCldSlotReply ch reply s
  | .cldTagResponse ch resp collided => Sys2Proof.Machine.execCldTagResponse ch resp collided s
  | .cldTnorespExpiry ch => Sys2Proof.Machine.execCldTnorespExpiry ch s
  | .cldTagAccess req data => Sys2Proof.Machine.execCldTagAccess req data s
  | .cldTagAccessTimeout n => Sys2Proof.Machine.execCldTagAccessTimeout n s
  | .ptFieldOn => Sys2Proof.Machine.execPtFieldOn s
  | .ptFieldOff => Sys2Proof.Machine.execPtFieldOff s
  | .ptHvThreshold above => Sys2Proof.Machine.execPtHvThreshold above s
  | .ptWake => Sys2Proof.Machine.execPtWake s
  | .ptFieldCensus flags => Sys2Proof.Machine.execPtFieldCensus flags s
  | .ptMark => Sys2Proof.Machine.execPtMark s
  | .ptMarkAck => Sys2Proof.Machine.execPtMarkAck s
  | .ptFieldDrop frame => Sys2Proof.Machine.execPtFieldDrop frame s
  | .ptFieldRead frame => Sys2Proof.Machine.execPtFieldRead frame s
  | .ptFieldWrite frame vwr => Sys2Proof.Machine.execPtFieldWrite frame vwr s
  | .ptFieldKeyLoad frame => Sys2Proof.Machine.execPtFieldKeyLoad frame s
  | .ptFieldAuthA frame => Sys2Proof.Machine.execPtFieldAuthA frame s
  | .ptFieldAuthB frame => Sys2Proof.Machine.execPtFieldAuthB frame s
  | .ptFieldReportCmd frame => Sys2Proof.Machine.execPtFieldReportCmd frame s
  | .ptKeyLoad => Sys2Proof.Machine.execPtKeyLoad s
  | .ptCmdRead src page => Sys2Proof.Machine.execPtCmdRead src page s
  | .ptCmdWrite src page => Sys2Proof.Machine.execPtCmdWrite src page s
  | .ptSaveCfg src => Sys2Proof.Machine.execPtSaveCfg src s
  | .rfRadioTx req payload => Sys2Proof.Machine.execRfRadioTx req payload s
  | .rfRadioRx req payload => Sys2Proof.Machine.execRfRadioRx req payload s
  | .rfRadioCw req payload => Sys2Proof.Machine.execRfRadioCw req payload s
  | .rfCalLocked vco us => Sys2Proof.Machine.execRfCalLocked vco us s
  | .rfCalAttemptTimeout us => Sys2Proof.Machine.execRfCalAttemptTimeout us s
  | .rfRxSettled temp => Sys2Proof.Machine.execRfRxSettled temp s
  | .rfRxPacket body crc => Sys2Proof.Machine.execRfRxPacket body crc s
  | .rfRxWindowExpiry => Sys2Proof.Machine.execRfRxWindowExpiry s
  | .rfTxrampDone => Sys2Proof.Machine.execRfTxrampDone s
  | .rfTxDone => Sys2Proof.Machine.execRfTxDone s
  | .rfTxrampdownDone => Sys2Proof.Machine.execRfTxrampdownDone s
  | .rfLockLoss => Sys2Proof.Machine.execRfLockLoss s
  | .rfDutyHeldTimeout n => Sys2Proof.Machine.execRfDutyHeldTimeout n s
  | .rfRtcMinute => Sys2Proof.Machine.execRfRtcMinute s
  | .rfRegSave src => Sys2Proof.Machine.execRfRegSave src s
  | .rfRegLock src key => Sys2Proof.Machine.execRfRegLock src key s
  | .rfDcFlush => Sys2Proof.Machine.execRfDcFlush s
  | .rfClrCnt => Sys2Proof.Machine.execRfClrCnt s
  | .prxSweepRequest req payload => Sys2Proof.Machine.execPrxSweepRequest req payload s
  | .prxSweepTakeUp temp => Sys2Proof.Machine.execPrxSweepTakeUp temp s
  | .prxHop locked lost reply => Sys2Proof.Machine.execPrxHop locked lost reply s
  | .prxConfirmReceived frame => Sys2Proof.Machine.execPrxConfirmReceived frame s
  | .prxConfirmTimeout => Sys2Proof.Machine.execPrxConfirmTimeout s
  | .prxSave src => Sys2Proof.Machine.execPrxSave src s
  | .prxClrCnt => Sys2Proof.Machine.execPrxClrCnt s
  | .cphGcm req sub data => Sys2Proof.Machine.execCphGcm req sub data s
  | .cphCcm req sub data => Sys2Proof.Machine.execCphCcm req sub data s
  | .cphCmac req sub data => Sys2Proof.Machine.execCphCmac req sub data s
  | .cphCtr req sub data => Sys2Proof.Machine.execCphCtr req sub data s
  | .cphEcb req sub data => Sys2Proof.Machine.execCphEcb req sub data s
  | .cphEcbKey req sub data => Sys2Proof.Machine.execCphEcbKey req sub data s
  | .cphDerive req sub data => Sys2Proof.Machine.execCphDerive req sub data s
  | .cphLoadKey req sub data => Sys2Proof.Machine.execCphLoadKey req sub data s
  | .cphFreeKey req sub data => Sys2Proof.Machine.execCphFreeKey req sub data s
  | .cphWrap req sub data => Sys2Proof.Machine.execCphWrap req sub data s
  | .cphUnwrap req sub data => Sys2Proof.Machine.execCphUnwrap req sub data s
  | .cphNonceAlloc req sub data => Sys2Proof.Machine.execCphNonceAlloc req sub data s
  | .cphNonceFree req sub data => Sys2Proof.Machine.execCphNonceFree req sub data s
  | .cphSaveCtx req sub data => Sys2Proof.Machine.execCphSaveCtx req sub data s
  | .cphRestoreCtx req sub data => Sys2Proof.Machine.execCphRestoreCtx req sub data s
  | .cphDomainInstall req sub data => Sys2Proof.Machine.execCphDomainInstall req sub data s
  | .cphDomainClear req sub data => Sys2Proof.Machine.execCphDomainClear req sub data s
  | .cphCipherOpDone core => Sys2Proof.Machine.execCphCipherOpDone core s
  | .cphCipherWaitTimeout n => Sys2Proof.Machine.execCphCipherWaitTimeout n s
  | .cphCoreFault core => Sys2Proof.Machine.execCphCoreFault core s
  | .cphClrCnt => Sys2Proof.Machine.execCphClrCnt s
  | .rngBlockTested jasper opal => Sys2Proof.Machine.execRngBlockTested jasper opal s
  | .rngStallTimeout who => Sys2Proof.Machine.execRngStallTimeout who s
  | .rngData host => Sys2Proof.Machine.execRngData host s
  | .rngRaw host => Sys2Proof.Machine.execRngRaw host s
  | .rngFrame req payload => Sys2Proof.Machine.execRngFrame req payload s
  | .rngClrStall => Sys2Proof.Machine.execRngClrStall s
  | .rngRestart => Sys2Proof.Machine.execRngRestart s
  | .rngClrCnt => Sys2Proof.Machine.execRngClrCnt s
  | .nvRead src => Sys2Proof.Machine.execNvRead src s
  | .nvWrite src => Sys2Proof.Machine.execNvWrite src s
  | .nvRecRead src => Sys2Proof.Machine.execNvRecRead src s
  | .nvRecWrite src => Sys2Proof.Machine.execNvRecWrite src s
  | .nvScrubNow => Sys2Proof.Machine.execNvScrubNow s
  | .nvClrCnt => Sys2Proof.Machine.execNvClrCnt s
  | .nvSaveCfg src => Sys2Proof.Machine.execNvSaveCfg src s
  | .nvFrameRead req data => Sys2Proof.Machine.execNvFrameRead req data s
  | .nvFrameWrite req data => Sys2Proof.Machine.execNvFrameWrite req data s
  | .nvFrameRecRead req data => Sys2Proof.Machine.execNvFrameRecRead req data s
  | .nvFrameRecWrite req data => Sys2Proof.Machine.execNvFrameRecWrite req data s
  | .nvProtWrite src bp => Sys2Proof.Machine.execNvProtWrite src bp s
  | .nvPageWriteDone found => Sys2Proof.Machine.execNvPageWriteDone found s
  | .nvScrubDue => Sys2Proof.Machine.execNvScrubDue s
  | .nvScrubPage weak => Sys2Proof.Machine.execNvScrubPage weak s
  | .swFrameIngress port sub origin bytes => Sys2Proof.Machine.execSwFrameIngress port sub origin bytes s
  | .swCellSlot => Sys2Proof.Machine.execSwCellSlot s
  | .swEgressStart port => Sys2Proof.Machine.execSwEgressStart port s
  | .swFrameDelivered port => Sys2Proof.Machine.execSwFrameDelivered port s
  | .swSeqGap id => Sys2Proof.Machine.execSwSeqGap id s
  | .swPortDown port sub => Sys2Proof.Machine.execSwPortDown port sub s
  | .swPortUp port sub => Sys2Proof.Machine.execSwPortUp port sub s
  | .swStop => Sys2Proof.Machine.execSwStop s
  | .swStart src => Sys2Proof.Machine.execSwStart src s
  | .swSave src => Sys2Proof.Machine.execSwSave src s
  | .swClrCnt => Sys2Proof.Machine.execSwClrCnt s
  | .swMgRead group => Sys2Proof.Machine.execSwMgRead group s
  | .swMgWrite src group revoke => Sys2Proof.Machine.execSwMgWrite src group revoke s
  | .bsnApply src => Sys2Proof.Machine.execBsnApply src s
  | .bsnApplyDone => Sys2Proof.Machine.execBsnApplyDone s
  | .bsnSave src => Sys2Proof.Machine.execBsnSave src s
  | .bsnCapFlush => Sys2Proof.Machine.execBsnCapFlush s
  | .bsnClrCnt => Sys2Proof.Machine.execBsnClrCnt s
  | .bsnStore req payload => Sys2Proof.Machine.execBsnStore req payload s
  | .bsnCaptureRead req payload => Sys2Proof.Machine.execBsnCaptureRead req payload s
  | .bsnCaptureFlush req payload => Sys2Proof.Machine.execBsnCaptureFlush req payload s
  | .dirLookup req data => Sys2Proof.Machine.execDirLookup req data s
  | .dirCacheFill => Sys2Proof.Machine.execDirCacheFill s
  | .dirRead req data => Sys2Proof.Machine.execDirRead req data s
  | .dirNext req data => Sys2Proof.Machine.execDirNext req data s
  | .dirAdd req data => Sys2Proof.Machine.execDirAdd req data s
  | .dirModify req data => Sys2Proof.Machine.execDirModify req data s
  | .dirDelete req data => Sys2Proof.Machine.execDirDelete req data s
  | .dirWriteThrough page => Sys2Proof.Machine.execDirWriteThrough page s
  | .dirLoad => Sys2Proof.Machine.execDirLoad s
  | .hostFeatures => Sys2Proof.Machine.execHostFeatures s
  | .hostDriverOk => Sys2Proof.Machine.execHostDriverOk s
  | .hostDrvstatReset src => Sys2Proof.Machine.execHostDrvstatReset src s
  | .hostRingEnable src ring n v => Sys2Proof.Machine.execHostRingEnable src ring n v s
  | .hostSqTailDoorbell n idx => Sys2Proof.Machine.execHostSqTailDoorbell n idx s
  | .hostCqHeadDoorbell n idx => Sys2Proof.Machine.execHostCqHeadDoorbell n idx s
  | .hostEventHeadDoorbell idx => Sys2Proof.Machine.execHostEventHeadDoorbell idx s
  | .hostNop desc input => Sys2Proof.Machine.execHostNop desc input s
  | .hostFrame desc input => Sys2Proof.Machine.execHostFrame desc input s
  | .hostRegRead desc input => Sys2Proof.Machine.execHostRegRead desc input s
  | .hostRegWrite desc input => Sys2Proof.Machine.execHostRegWrite desc input s
  | .hostConfigStop desc input => Sys2Proof.Machine.execHostConfigStop desc input s
  | .hostConfigStopTimeout n => Sys2Proof.Machine.execHostConfigStopTimeout n s
  | .hostConfigStart desc input => Sys2Proof.Machine.execHostConfigStart desc input s
  | .hostReleaseReq desc input => Sys2Proof.Machine.execHostReleaseReq desc input s
  | .hostReleaseEnd desc input => Sys2Proof.Machine.execHostReleaseEnd desc input s
  | .hostToken desc input => Sys2Proof.Machine.execHostToken desc input s
  | .hostLedgerReport desc input => Sys2Proof.Machine.execHostLedgerReport desc input s
  | .hostFwExt desc input => Sys2Proof.Machine.execHostFwExt desc input s
  | .hostMgmtRead req sub payload => Sys2Proof.Machine.execHostMgmtRead req sub payload s
  | .hostMgmtWrite req sub payload => Sys2Proof.Machine.execHostMgmtWrite req sub payload s
  | .hostMgmtStop req sub payload => Sys2Proof.Machine.execHostMgmtStop req sub payload s
  | .hostMgmtStart req sub payload => Sys2Proof.Machine.execHostMgmtStart req sub payload s
  | .hostCompletionRecord sub f => Sys2Proof.Machine.execHostCompletionRecord sub f s
  | .hostDmaFail write ring => Sys2Proof.Machine.execHostDmaFail write ring s
  | .hostIfReset cause => Sys2Proof.Machine.execHostIfReset cause s
  | .hostQspiRead addr n gap => Sys2Proof.Machine.execHostQspiRead addr n gap s
  | .hostQread addr n gap => Sys2Proof.Machine.execHostQread addr n gap s
  | .hostQspiWrite addr ws cut => Sys2Proof.Machine.execHostQspiWrite addr ws cut s
  | .hostQwrite addr ws cut => Sys2Proof.Machine.execHostQwrite addr ws cut s
  | .hostRdsr => Sys2Proof.Machine.execHostRdsr s
  | .plLinkUp link role id => Sys2Proof.Machine.execPlLinkUp link role id s
  | .plLinkDown link => Sys2Proof.Machine.execPlLinkDown link s
  | .plCellReceived link hdr data crc stomped => Sys2Proof.Machine.execPlCellReceived link hdr data crc stomped s
  | .plAck link lseq => Sys2Proof.Machine.execPlAck link lseq s
  | .plNak link lseq => Sys2Proof.Machine.execPlNak link lseq s
  | .plCred link cls count => Sys2Proof.Machine.execPlCred link cls count s
  | .plReplayTimeout link => Sys2Proof.Machine.execPlReplayTimeout link s
  | .plLstat link lk up => Sys2Proof.Machine.execPlLstat link lk up s
  | .plEnum link id dir endd ndev => Sys2Proof.Machine.execPlEnum link id dir endd ndev s
  | .plEnumTimeout => Sys2Proof.Machine.execPlEnumTimeout s
  | .plSlotRelease slot => Sys2Proof.Machine.execPlSlotRelease slot s
  | .plEventFwd req payload => Sys2Proof.Machine.execPlEventFwd req payload s
  | .plEnumCmd => Sys2Proof.Machine.execPlEnumCmd s
  | .plReroute => Sys2Proof.Machine.execPlReroute s
  | .plClrCnt => Sys2Proof.Machine.execPlClrCnt s
  | .ivcFwQueueFrame n f => Sys2Proof.Machine.execIvcFwQueueFrame n f s
  | .ivcTxGo len queue => Sys2Proof.Machine.execIvcTxGo len queue s
  | .ivcWdkick key => Sys2Proof.Machine.execIvcWdkick key s
  | .ivcWdtWarn => Sys2Proof.Machine.execIvcWdtWarn s
  | .ivcWdtReset => Sys2Proof.Machine.execIvcWdtReset s
  | .ivcRun src run => Sys2Proof.Machine.execIvcRun src run s
  | .ivcInterruptEntry => Sys2Proof.Machine.execIvcInterruptEntry s
  | .ivMov rd ra short => Sys2Proof.Machine.execIvMov rd ra short s
  | .ivAdc rd ra rb short => Sys2Proof.Machine.execIvAdc rd ra rb short s
  | .ivSub rd ra rb short => Sys2Proof.Machine.execIvSub rd ra rb short s
  | .ivSbc rd ra rb short => Sys2Proof.Machine.execIvSbc rd ra rb short s
  | .ivAnd rd ra rb short => Sys2Proof.Machine.execIvAnd rd ra rb short s
  | .ivOr rd ra rb short => Sys2Proof.Machine.execIvOr rd ra rb short s
  | .ivXor rd ra rb short => Sys2Proof.Machine.execIvXor rd ra rb short s
  | .ivNot rd ra short => Sys2Proof.Machine.execIvNot rd ra short s
  | .ivNeg rd ra short => Sys2Proof.Machine.execIvNeg rd ra short s
  | .ivCmp ra rb short => Sys2Proof.Machine.execIvCmp ra rb short s
  | .ivTst ra rb short => Sys2Proof.Machine.execIvTst ra rb short s
  | .ivShl rd ra rb short => Sys2Proof.Machine.execIvShl rd ra rb short s
  | .ivShr rd ra rb short => Sys2Proof.Machine.execIvShr rd ra rb short s
  | .ivSar rd ra rb short => Sys2Proof.Machine.execIvSar rd ra rb short s
  | .ivRor rd ra rb short => Sys2Proof.Machine.execIvRor rd ra rb short s
  | .ivShli rd ra n short => Sys2Proof.Machine.execIvShli rd ra n short s
  | .ivShri rd ra n short => Sys2Proof.Machine.execIvShri rd ra n short s
  | .ivSari rd ra n short => Sys2Proof.Machine.execIvSari rd ra n short s
  | .ivRori rd ra n short => Sys2Proof.Machine.execIvRori rd ra n short s
  | .ivSxb rd ra short => Sys2Proof.Machine.execIvSxb rd ra short s
  | .ivSxh rd ra short => Sys2Proof.Machine.execIvSxh rd ra short s
  | .ivZxb rd ra short => Sys2Proof.Machine.execIvZxb rd ra short s
  | .ivZxh rd ra short => Sys2Proof.Machine.execIvZxh rd ra short s
  | .ivAddi rd ra imm short => Sys2Proof.Machine.execIvAddi rd ra imm short s
  | .ivAndi rd ra imm => Sys2Proof.Machine.execIvAndi rd ra imm s
  | .ivOri rd ra imm => Sys2Proof.Machine.execIvOri rd ra imm s
  | .ivXori rd ra imm => Sys2Proof.Machine.execIvXori rd ra imm s
  | .ivCmpi ra imm short => Sys2Proof.Machine.execIvCmpi ra imm short s
  | .ivLui rd imm => Sys2Proof.Machine.execIvLui rd imm s
  | .ivMovi rd imm short => Sys2Proof.Machine.execIvMovi rd imm short s
  | .ivLdw rd ra imm short => Sys2Proof.Machine.execIvLdw rd ra imm short s
  | .ivLdh rd ra imm => Sys2Proof.Machine.execIvLdh rd ra imm s
  | .ivLdhu rd ra imm => Sys2Proof.Machine.execIvLdhu rd ra imm s
  | .ivLdb rd ra imm => Sys2Proof.Machine.execIvLdb rd ra imm s
  | .ivLdbu rd ra imm short => Sys2Proof.Machine.execIvLdbu rd ra imm short s
  | .ivStw rd ra imm short => Sys2Proof.Machine.execIvStw rd ra imm short s
  | .ivSth rd ra imm => Sys2Proof.Machine.execIvSth rd ra imm s
  | .ivStb rd ra imm short => Sys2Proof.Machine.execIvStb rd ra imm short s
  | .ivLdd rd imm => Sys2Proof.Machine.execIvLdd rd imm s
  | .ivStd rd imm => Sys2Proof.Machine.execIvStd rd imm s
  | .ivPush ra short => Sys2Proof.Machine.execIvPush ra short s
  | .ivPop rd short => Sys2Proof.Machine.execIvPop rd short s
  | .ivLdbit baddr x short => Sys2Proof.Machine.execIvLdbit baddr x short s
  | .ivLdbitn baddr x => Sys2Proof.Machine.execIvLdbitn baddr x s
  | .ivAndb baddr x short => Sys2Proof.Machine.execIvAndb baddr x short s
  | .ivAndbn baddr x => Sys2Proof.Machine.execIvAndbn baddr x s
  | .ivOrb baddr x short => Sys2Proof.Machine.execIvOrb baddr x short s
  | .ivOrbn baddr x => Sys2Proof.Machine.execIvOrbn baddr x s
  | .ivXorb baddr x short => Sys2Proof.Machine.execIvXorb baddr x short s
  | .ivStbit baddr x short => Sys2Proof.Machine.execIvStbit baddr x short s
  | .ivStbitn baddr x => Sys2Proof.Machine.execIvStbitn baddr x s
  | .ivSetb baddr x short => Sys2Proof.Machine.execIvSetb baddr x short s
  | .ivClrb baddr x short => Sys2Proof.Machine.execIvClrb baddr x short s
  | .ivNotb baddr x short => Sys2Proof.Machine.execIvNotb baddr x short s
  | .ivTstset baddr x => Sys2Proof.Machine.execIvTstset baddr x s
  | .ivBacc n => Sys2Proof.Machine.execIvBacc n s
  | .ivBcc cond disp short => Sys2Proof.Machine.execIvBcc cond disp short s
  | .ivJmp disp short => Sys2Proof.Machine.execIvJmp disp short s
  | .ivCall disp short => Sys2Proof.Machine.execIvCall disp short s
  | .ivJr ra short => Sys2Proof.Machine.execIvJr ra short s
  | .ivCallr ra short => Sys2Proof.Machine.execIvCallr ra short s
  | .ivRet short => Sys2Proof.Machine.execIvRet short s
  | .ivTret short => Sys2Proof.Machine.execIvTret short s
  | .ivMul rd ra rb => Sys2Proof.Machine.execIvMul rd ra rb s
  | .ivMulhs rd ra rb => Sys2Proof.Machine.execIvMulhs rd ra rb s
  | .ivMulhu rd ra rb => Sys2Proof.Machine.execIvMulhu rd ra rb s
  | .ivMls ra rb short => Sys2Proof.Machine.execIvMls ra rb short s
  | .ivMlu ra rb short => Sys2Proof.Machine.execIvMlu ra rb short s
  | .ivCrcb rd ra mem short => Sys2Proof.Machine.execIvCrcb rd ra mem short s
  | .ivCrch rd ra mem short => Sys2Proof.Machine.execIvCrch rd ra mem short s
  | .ivCrcw rd ra mem short => Sys2Proof.Machine.execIvCrcw rd ra mem short s
  | .ivPar ra short => Sys2Proof.Machine.execIvPar ra short s
  | .ivBrevB rd ra short => Sys2Proof.Machine.execIvBrevB rd ra short s
  | .ivBrevH rd ra short => Sys2Proof.Machine.execIvBrevH rd ra short s
  | .ivBrevW rd ra short => Sys2Proof.Machine.execIvBrevW rd ra short s
  | .ivMfs rd sr short => Sys2Proof.Machine.execIvMfs rd sr short s
  | .ivMts sr ra short => Sys2Proof.Machine.execIvMts sr ra short s
  | .ivRpt n reg short => Sys2Proof.Machine.execIvRpt n reg short s
  | .ivRpti n reg => Sys2Proof.Machine.execIvRpti n reg s
  | .ivSleep mode short => Sys2Proof.Machine.execIvSleep mode short s
  | .ivBreak imm short => Sys2Proof.Machine.execIvBreak imm short s
  | .ivSyscall imm short => Sys2Proof.Machine.execIvSyscall imm short s
  | .ivNop short => Sys2Proof.Machine.execIvNop short s
  | .ivWait => Sys2Proof.Machine.execIvWait s
  | .ivSync => Sys2Proof.Machine.execIvSync s
  | .pmTargetWrite v => Sys2Proof.Machine.execPmTargetWrite v s
  | .pmSleepDrainDone => Sys2Proof.Machine.execPmSleepDrainDone s
  | .pmDrainTimeout => Sys2Proof.Machine.execPmDrainTimeout s
  | .pmEntryComplete => Sys2Proof.Machine.execPmEntryComplete s
  | .pmWakeEvent w => Sys2Proof.Machine.execPmWakeEvent w s
  | .pmSniffRound currents => Sys2Proof.Machine.execPmSniffRound currents s
  | .pmSniffRfSync temp => Sys2Proof.Machine.execPmSniffRfSync temp s
  | .pmHoldupEntry cause => Sys2Proof.Machine.execPmHoldupEntry cause s
  | .pmHoldupExit us vend vbat clear => Sys2Proof.Machine.execPmHoldupExit us vend vbat clear s
  | .pmKeeperCut => Sys2Proof.Machine.execPmKeeperCut s
  | .pmHoldReadyChange vhold => Sys2Proof.Machine.execPmHoldReadyChange vhold s
  | .pmCaptest cap test => Sys2Proof.Machine.execPmCaptest cap test s
  | .pmAlarmWrite v => Sys2Proof.Machine.execPmAlarmWrite v s
  | .pmRtcAlarm => Sys2Proof.Machine.execPmRtcAlarm s
  | .clkSyspllEn => Sys2Proof.Machine.execClkSyspllEn s
  | .clkPllLock => Sys2Proof.Machine.execClkPllLock s
  | .clkSel => Sys2Proof.Machine.execClkSel s
  | .clkBasinReady => Sys2Proof.Machine.execClkBasinReady s
  | .clkXtalFail => Sys2Proof.Machine.execClkXtalFail s
  | .clkXtalOk => Sys2Proof.Machine.execClkXtalOk s
  | .clkRtcCrystalStop => Sys2Proof.Machine.execClkRtcCrystalStop s
  | .clkLfrcCalibration ppm => Sys2Proof.Machine.execClkLfrcCalibration ppm s
  | .clkDevrst key => Sys2Proof.Machine.execClkDevrst key s
  | .clkDeviceReset cause => Sys2Proof.Machine.execClkDeviceReset cause s
  | .clkDeviceStart hostsel xtalOk unfed => Sys2Proof.Machine.execClkDeviceStart hostsel xtalOk unfed s
  | .evSave src => Sys2Proof.Machine.execEvSave src s
  | .evOccClr => Sys2Proof.Machine.execEvOccClr s
  | .evTmrWrite v => Sys2Proof.Machine.execEvTmrWrite v s
  | .evTimerExpiry n => Sys2Proof.Machine.execEvTimerExpiry n s
  | .evSnpTrig => Sys2Proof.Machine.execEvSnpTrig s
  | .evSnapIn => Sys2Proof.Machine.execEvSnapIn s
  | .evSnpArm => Sys2Proof.Machine.execEvSnpArm s
  | .evSnpStatRead => Sys2Proof.Machine.execEvSnpStatRead s
  | .evSnpClrCnt => Sys2Proof.Machine.execEvSnpClrCnt s
  | .evBudgetWrite sys v => Sys2Proof.Machine.execEvBudgetWrite sys v s
  | .evArbClr => Sys2Proof.Machine.execEvArbClr s
  | .secProvision req payload => Sys2Proof.Machine.execSecProvision req payload s
  | .secKeyInstall req payload => Sys2Proof.Machine.execSecKeyInstall req payload s
  | .secDeploy req payload => Sys2Proof.Machine.execSecDeploy req payload s
  | .secAuthTransfer req payload => Sys2Proof.Machine.execSecAuthTransfer req payload s
  | .secAuthRetire req payload => Sys2Proof.Machine.execSecAuthRetire req payload s
  | .secAuthTamperClear req payload => Sys2Proof.Machine.execSecAuthTamperClear req payload s
  | .secAuthDebug req payload => Sys2Proof.Machine.execSecAuthDebug req payload s
  | .secFwBegin req payload => Sys2Proof.Machine.execSecFwBegin req payload s
  | .secFwWrite req payload => Sys2Proof.Machine.execSecFwWrite req payload s
  | .secFwCommit req payload => Sys2Proof.Machine.execSecFwCommit req payload s
  | .secFwReseal req payload => Sys2Proof.Machine.execSecFwReseal req payload s
  | .secTamperDetect n => Sys2Proof.Machine.execSecTamperDetect n s
  | .secTamperInactive n => Sys2Proof.Machine.execSecTamperInactive n s
  | .secTamperClearWrite src => Sys2Proof.Machine.execSecTamperClearWrite src s
  | .dbgId => Sys2Proof.Machine.execDbgId s
  | .dbgAuth auth => Sys2Proof.Machine.execDbgAuth auth s
  | .dbgClose => Sys2Proof.Machine.execDbgClose s
  | .dbgRd addr n => Sys2Proof.Machine.execDbgRd addr n s
  | .dbgWr addr ws => Sys2Proof.Machine.execDbgWr addr ws s
  | .dbgHalt => Sys2Proof.Machine.execDbgHalt s
  | .dbgRun => Sys2Proof.Machine.execDbgRun s
  | .dbgStep => Sys2Proof.Machine.execDbgStep s
  | .dbgReset key => Sys2Proof.Machine.execDbgReset key s
  | .dbgTest => Sys2Proof.Machine.execDbgTest s
  | .vioCanFrame n ide id fd data => Sys2Proof.Machine.execVioCanFrame n ide id fd data s
  | .vioBusoff n tec rxc => Sys2Proof.Machine.execVioBusoff n tec rxc s
  | .vioBusoffRecovery n => Sys2Proof.Machine.execVioBusoffRecovery n s
  | .vioMeterEdge c active => Sys2Proof.Machine.execVioMeterEdge c active s
  | .vioMeterPulse c => Sys2Proof.Machine.execVioMeterPulse c s
  | .vioRelFault b => Sys2Proof.Machine.execVioRelFault b s
  | .vioClrCnt => Sys2Proof.Machine.execVioClrCnt s
  | .cldClrCnt => Sys2Proof.Machine.execCldClrCnt s
  | .ivAdd rd ra rb short => Sys2Proof.Machine.execIvAdd rd ra rb short s
  | .rfSyncDetected rssi ferr => Sys2Proof.Machine.execRfSyncDetected rssi ferr s
  | .cldUplinkHeader ch => Sys2Proof.Machine.execCldUplinkHeader ch s
  | .plSocReceived link hdr head => Sys2Proof.Machine.execPlSocReceived link hdr head s
  | .ivcTransmitEngineDone => Sys2Proof.Machine.execIvcTransmitEngineDone s
  | .rngReseedDone inst => Sys2Proof.Machine.execRngReseedDone inst s
  | .hostDescriptorFetch desc input => Sys2Proof.Machine.execHostDescriptorFetch desc input s
  | .hostPcieLinkUp => Sys2Proof.Machine.execHostPcieLinkUp s
  | .pmPerstNRise => Sys2Proof.Machine.execPmPerstNRise s
  | .vioErrorPassive n tec rxc => Sys2Proof.Machine.execVioErrorPassive n tec rxc s
  | .clkRtcCrystalRunning => Sys2Proof.Machine.execClkRtcCrystalRunning s
  | .dirLoadEnd => Sys2Proof.Machine.execDirLoadEnd s
  | .sadTermRefreshTimeout term => Sys2Proof.Machine.execSadTermRefreshTimeout term s

end Sys2Proof.Machine
end

