-- ==== Sys2Proof/Safety.lean ====
section
/-! DEFINITION. The terms claims are stated in: what it is for a command to complete, and what an Ivler-2 instruction leaves
when the core takes it in the plain course, outside a slot and a repeat. -/

namespace Sys2Proof.Machine

/-- The command completes, and the state it leaves satisfies `P`. -/
def Runs (c : Instr) (s : State) (P : State → Prop) : Prop := ∃ t, exec c s = .next t ∧ P t

/-- The core may take its next instruction of a form: it runs and has fetched before, is not halted, waits for nothing, has no
warning to take (R592), may fetch the halfwords of the form (R564, R565), and admits the form (R584). -/
structure IvMay (s : State) (short : Bool) : Prop where
  running : ivcRunning s = true
  fetched : s.iv.fetched = true
  entry   : s.pm.entry = 0
  halted  : s.iv.halted = false
  waiting : s.iv.waiting = false
  load    : s.iv.load = none
  warn    : s.iv.warn = false
  first   : ivFetchable s.iv.pc.toNat = true
  second  : short = false → ivFetchable (s.iv.pc + 2#32).toNat = true
  busy    : fetchBusy s (ivLen short) = false
  width   : short = true → csBit s.iv.core Cs.wide = false

/-- The core takes its next instruction in the plain course: it may, and stands neither in a slot nor in a repeat. -/
structure IvPlain (s : State) (short : Bool) : Prop extends IvMay s short where
  slot : s.iv.slot = none
  rep  : s.iv.rep_ = none

/-- The core `a` with the running quantities of `b`: PC, the multiplies in flight and the register just loaded. -/
def ivRunning (a b : Iv) : Iv :=
  { a with pc := b.pc, mul := b.mul, mulReg := b.mulReg, ldReg := b.ldReg, mdh := b.mdh, mdl := b.mdl }

/-- The instruction leaves `s` with its core at `iv` and PC at `pc`; MDH and MDL are `iv`'s where no legacy multiply is in
flight. -/
def IvLeaves (s t : State) (pc : W32) (iv : Iv) : Prop :=
  t = { s with iv := ivRunning iv t.iv } ∧ t.iv.pc = pc ∧ (s.iv.mul = [] → t.iv.mdh = iv.mdh ∧ t.iv.mdl = iv.mdl)

/-- The address of the next instruction. -/
def ivNext (s : State) (short : Bool) : W32 := s.iv.pc + BitVec.ofNat 32 (ivLen short)

/-- Z, N, C and V of a CORESTAT word, the other bits as in `old`. -/
def CoreFlags (old new : W32) (z n c v : Bool) : Prop :=
  csBit new Cs.z = z ∧ csBit new Cs.n = n ∧ csBit new Cs.c = c ∧ csBit new Cs.v = v ∧ ∀ i, 4 ≤ i → csBit new i = csBit old i

/-- The core with register `rd` and CORESTAT replaced. -/
def ivWith (s : State) (rd : Nat) (r core : W32) : Iv := { s.iv with w := wSet s.iv.w rd r, core }

/-- The instruction answers `r` in register `rd` with the flags given, and nothing else. -/
def IvAnswers (s t : State) (short : Bool) (rd : Nat) (r : W32) (z n c v : Bool) : Prop :=
  ∃ core, CoreFlags s.iv.core core z n c v ∧ IvLeaves s t (ivNext s short) (ivWith s rd r core)

/-- The first operand's register: Rd in a two-operand 16-bit form (R611). -/
def ivFirst (short : Bool) (rd ra : Nat) : Nat := if short then rd else ra

/-- An integer that 32-bit two's complement does not hold. -/
def overflows (x : Int) : Bool := decide (x < -2 ^ 31) || decide (2 ^ 31 ≤ x)

/-- The instruction answers `a + b + c` in `rd`, with the flags of an addition (R613). -/
def IvSums (s t : State) (short : Bool) (rd : Nat) (a b : W32) (c : Nat) : Prop :=
  IvAnswers s t short rd (BitVec.ofNat 32 (a.toNat + b.toNat + c)) (decide ((a.toNat + b.toNat + c) % 2 ^ 32 = 0))
    (decide (2 ^ 31 ≤ (a.toNat + b.toNat + c) % 2 ^ 32)) (decide (2 ^ 32 ≤ a.toNat + b.toNat + c))
    (overflows (a.toInt + b.toInt + c))

/-- `core` is CORESTAT with the flags of the subtraction `a - b - c` (R613). -/
def DiffFlags (s : State) (a b : W32) (c : Nat) (core : W32) : Prop :=
  CoreFlags s.iv.core core (decide (((a.toNat : Int) - b.toNat - c) % 2 ^ 32 = 0))
    (decide (2 ^ 31 ≤ ((a.toNat : Int) - b.toNat - c) % 2 ^ 32)) (decide (b.toNat + c ≤ a.toNat))
    (overflows (a.toInt - b.toInt - c))

/-- The instruction answers `a - b - c` in `rd`, with the flags of a subtraction (R613). -/
def IvDiffers (s t : State) (short : Bool) (rd : Nat) (a b : W32) (c : Nat) : Prop :=
  ∃ core, DiffFlags s a b c core ∧
    IvLeaves s t (ivNext s short) (ivWith s rd (BitVec.ofInt 32 ((a.toNat : Int) - b.toNat - c)) core)

/-- The instruction compares `a` with `b`: the flags of `a - b`, no register. -/
def IvCompares (s t : State) (short : Bool) (a b : W32) : Prop :=
  ∃ core, DiffFlags s a b 0 core ∧ IvLeaves s t (ivNext s short) { s.iv with core }

/-- The instruction answers `r` in `rd` with Z and N of it; C, V and every other bit of CORESTAT stay. -/
def IvZN (s t : State) (short : Bool) (rd : Nat) (r : W32) : Prop :=
  IvAnswers s t short rd r (decide (r = 0#32)) (decide (2 ^ 31 ≤ r.toNat)) (csBit s.iv.core Cs.c) (csBit s.iv.core Cs.v)

/-- The instruction puts `r` into `rd` and changes nothing else. -/
def IvPuts (s t : State) (short : Bool) (rd : Nat) (r : W32) : Prop := IvLeaves s t (ivNext s short) (ivWith s rd r s.iv.core)

/-- The address of a load or a store: Ra plus the sign-extended immediate, or in a 16-bit form plus the scaled offset (R617). -/
def ivEff (s : State) (short : Bool) (size ra : Nat) (imm : Int) : W32 :=
  ivReg s ra + BitVec.ofInt 32 (if short then (size : Int) * (imm / size % 8) else cutI 16 imm)

/-- `n` bytes of SRAM at an address of the core, little-endian. -/
def sramAt (s : State) (a : W32) (n : Nat) : Nat := leNat (memRead s.iv.sram (a.toNat - 0x10000000) n)

/-- `n` naturally aligned bytes that lie in SRAM (R564, R565). -/
def SramWord (a : W32) (n : Nat) : Prop := a.toNat % n = 0 ∧ 0x10000000 ≤ a.toNat ∧ a.toNat + n ≤ 0x10080000

/-- The instruction stores the low `n` bytes of `x` at `a`, little-endian, leaves every other byte of SRAM and the core
otherwise at `iv`. -/
def IvStores (s t : State) (short : Bool) (a : W32) (n : Nat) (x : W32) (iv : Iv) : Prop :=
  IvLeaves s t (ivNext s short) { iv with sram := t.iv.sram } ∧
  (∀ k, k < n → memGet t.iv.sram (a.toNat - 0x10000000 + k) = byte (x.toNat / 256 ^ k)) ∧
  ∀ o, o < a.toNat - 0x10000000 ∨ a.toNat - 0x10000000 + n ≤ o → memGet t.iv.sram o = memGet s.iv.sram o

/-- The instruction leaves BA at `ba` and changes nothing else. -/
def IvBool (s t : State) (short : Bool) (ba : Bool) : Prop := IvLeaves s t (ivNext s short) { s.iv with ba }

/-- The instruction leaves bit `b` of bit RAM at `v` and BA at `ba`; every other bit of bit RAM and all else stay. -/
def IvWritesBit (s t : State) (short : Bool) (b : Nat) (v ba : Bool) : Prop :=
  IvLeaves s t (ivNext s short) { s.iv with ba, bits := t.iv.bits } ∧
  ∀ k, k < 0x1000 → bitGet t k = if k = b then v else bitGet s k

/-- A transfer has executed: its slot is due at the next address, `target` follows the slot (none: the instruction behind the
slot does), and the return stack is `rs`. -/
def IvTransfers (s t : State) (short : Bool) (target tst : Option W32) (pushed : Bool) (popped rs : List RsEntry) : Prop :=
  IvLeaves s t (ivNext s short) { s.iv with slot := some ⟨s.iv.pc, target, tst, pushed, popped⟩, rs }

/-- The address a displacement names: the transfer's own plus twice it (R622). -/
def ivAhead (s : State) (width : Nat) (disp : Int) : W32 := s.iv.pc + BitVec.ofInt 32 (2 * cutI width disp)

/-- A trap has been entered (R588): the return address and CORESTAT pushed under their tags, TCAUSE and TVAL written, IE cleared
and TRAP set, IVC_TRAP and IVC_TRAPPC showing it, and PC at the vector. -/
def IvTraps (s t : State) (cause : Nat) (tval ret : W32) : Prop :=
  t = { (s.set F.ivcTrap_cause cause).set F.ivcTrappc_pc ret.toNat with
        iv := ivRunning { s.iv with tcause := cause, tval, rs := ⟨s.iv.core, 2⟩ :: ⟨ret, 1⟩ :: s.iv.rs, core := t.iv.core } t.iv } ∧
  t.iv.pc = s.iv.vbase + BitVec.ofNat 32 (8 * cause) ∧
  csBit t.iv.core Cs.ie = false ∧ csBit t.iv.core Cs.trap = true ∧
  ∀ i, i ≠ Cs.ie → i ≠ Cs.trap → csBit t.iv.core i = csBit s.iv.core i

/-- A trap can be entered without a spill and without a double fault. -/
def TrapReady (s : State) : Prop := csBit s.iv.core Cs.trap = false ∧ s.iv.rs.length ≤ 62

/-- The instruction exists in the form (Tables 17.3 to 17.12). -/
def ivHasForm (short : Bool) : IvIns → Bool
  | .logi op _ _ _ => !short && (op == .and || op == .or || op == .xor)
  | .lui _ _ => !short
  | .ld size sgn _ _ _ => (size == 4 && !sgn) || (size == 1 && (!short || !sgn)) || (size == 2 && !short)
  | .st size _ _ _ => size == 4 || size == 1 || (size == 2 && !short)
  | .ldd _ _ => !short
  | .std _ _ => !short
  | .bit op _ _ => !short || decide (op.code16 < 8)
  | .bacc _ => !short
  | .mul h g _ _ _ => !short && (h || !g)
  | .crc n _ _ m => (n == 1 || n == 2 || n == 4) && (!short || !m)
  | .brev n _ _ => n == 1 || n == 2 || n == 4
  | .rpt m _ => !short || !m
  | .rptr m _ => !short || !m
  | .wait => !short
  | .sync => !short
  | _ => true

/-- Every memory of the block stands in its canonical form. -/
def MemoriesCanonical (s : State) : Prop :=
  ∀ m ∈ [s.hst.mem, s.nv.cells, s.coil.prog, s.rf.image, s.rf.block, s.bsn.mem, s.iv.sram, s.iv.bits, s.keep], Memory.wf m = true

/-- A write request as the NV store queues it, not started. -/
def nvJob (k : NvKind) (custody own : Bool) (src : Nat) (cont : NvCont) : NvJob := ⟨k, [], false, custody, own, src, cont⟩

/-- The NV store takes a write request of a kind behind a page write in progress: not protected (R397), not in HOLDUP (R385). -/
def NvTakes (s : State) (own : Bool) (k : NvKind) : Prop :=
  nvProtected s own k = false ∧ nvHoldup s = false ∧ s.nv.cur.isSome = true

/-- The state with requests appended to the ordinary queue of the NV store, and to the custody queue. -/
def withOrd (s : State) (l : List NvJob) : State := { s with nv := { s.nv with ord := s.nv.ord ++ l } }
def withCust (s : State) (l : List NvJob) : State := { s with nv := { s.nv with cust := s.nv.cust ++ l } }

end Sys2Proof.Machine
end

