-- ==== Sys2Proof/Certificates/Slice0/Obligations.lean ====
section
/-! DEFINITION. The statements of this package. -/

open Sys2Proof Sys2Proof.Machine

/-- In the plain course each of ADD, ADC, SUB, SBC, NEG, ADDI, CMP and CMPI, in either form, answers a next state in
which Rd holds the sum or difference of the operands modulo 2^32 (CMP and CMPI write no register), Z, N, C and V are
those of R613, the other bits of CORESTAT and everything else but PC and the multiplies in flight are unchanged, and PC
is the next instruction. (R613, R615, 17_ivler_instructions.md Table 17.6) -/
def Obligations.IvlerAddSubtract : Prop :=
  ∀ (s : State) (rd ra rb : Nat) (imm : Int) (short : Bool), IvPlain s short →
    let a := ivReg s (ivFirst short rd ra)
    let b := ivReg s rb
    let c := b2n (csBit s.iv.core Cs.c)
    let x := BitVec.ofInt 32 (cutI (if short then 7 else 16) imm)
    Runs (.ivAdd rd ra rb short) s (fun t => IvSums s t short rd a b 0) ∧
    Runs (.ivAdc rd ra rb short) s (fun t => IvSums s t short rd a b c) ∧
    Runs (.ivAddi rd ra imm short) s (fun t => IvSums s t short rd a x 0) ∧
    Runs (.ivSub rd ra rb short) s (fun t => IvDiffers s t short rd a b 0) ∧
    Runs (.ivSbc rd ra rb short) s (fun t => IvDiffers s t short rd a b (1 - c)) ∧
    Runs (.ivNeg rd ra short) s (fun t => IvDiffers s t short rd 0#32 (ivReg s ra) 0) ∧
    Runs (.ivCmp ra rb short) s (fun t => IvCompares s t short (ivReg s ra) b) ∧
    Runs (.ivCmpi ra imm short) s (fun t => IvCompares s t short (ivReg s ra) x)

/-- In the plain course AND, OR, XOR, ANDI, ORI, XORI and NOT put their bitwise result into Rd and write Z and N only,
TST writes Z and N only, and MOV, LUI, MOVI, SXB, SXH, ZXB and ZXH put their result into Rd and write no flag; nothing
else changes but PC and the multiplies in flight. (R613, R615, 17_ivler_instructions.md Table 17.6) -/
def Obligations.IvlerLogicAndMoves : Prop :=
  ∀ (s : State) (rd ra rb imm : Nat) (n : Int) (short : Bool), IvPlain s short →
    let a := ivReg s (ivFirst short rd ra)
    let b := ivReg s rb
    let u := ivReg s ra
    let z := BitVec.ofNat 32 (imm % 65536)
    Runs (.ivAnd rd ra rb short) s (fun t => IvZN s t short rd (a &&& b)) ∧
    Runs (.ivOr rd ra rb short) s (fun t => IvZN s t short rd (a ||| b)) ∧
    Runs (.ivXor rd ra rb short) s (fun t => IvZN s t short rd (a ^^^ b)) ∧
    Runs (.ivNot rd ra short) s (fun t => IvZN s t short rd (~~~u)) ∧
    Runs (.ivTst ra rb short) s (fun t => ∃ core, CoreFlags s.iv.core core (decide (u &&& b = 0#32))
      (decide (2 ^ 31 ≤ (u &&& b).toNat)) (csBit s.iv.core Cs.c) (csBit s.iv.core Cs.v) ∧
      IvLeaves s t (ivNext s short) { s.iv with core }) ∧
    Runs (.ivMov rd ra short) s (fun t => IvPuts s t short rd u) ∧
    Runs (.ivMovi rd n short) s (fun t => IvPuts s t short rd (BitVec.ofInt 32 (cutI (if short then 7 else 20) n))) ∧
    Runs (.ivSxb rd ra short) s (fun t => IvPuts s t short rd ((u.truncate 8).signExtend 32)) ∧
    Runs (.ivSxh rd ra short) s (fun t => IvPuts s t short rd ((u.truncate 16).signExtend 32)) ∧
    Runs (.ivZxb rd ra short) s (fun t => IvPuts s t short rd ((u.truncate 8).zeroExtend 32)) ∧
    Runs (.ivZxh rd ra short) s (fun t => IvPuts s t short rd ((u.truncate 16).zeroExtend 32)) ∧
    (short = false →
      Runs (.ivAndi rd ra imm) s (fun t => IvZN s t false rd (u &&& z)) ∧
      Runs (.ivOri rd ra imm) s (fun t => IvZN s t false rd (u ||| z)) ∧
      Runs (.ivXori rd ra imm) s (fun t => IvZN s t false rd (u ^^^ z)) ∧
      Runs (.ivLui rd imm) s (fun t => IvPuts s t false rd (BitVec.ofNat 32 (imm % 2 ^ 20 * 4096))))

/-- In the plain course the eight shift and rotate instructions take their amount from Rb[7:0] (ROR from Rb[4:0]) or
from AMT, answer the shifted word with Z and N of it and V unchanged, and C as R616 says for amount 0, 1 to 31, 32 and
above 32; a rotate by a nonzero amount sets C to the new bit 31. (R616) -/
def Obligations.IvlerShifts : Prop :=
  ∀ (s : State) (rd ra rb n : Nat) (short : Bool), IvPlain s short →
    let a := ivReg s (ivFirst short rd ra)
    let b := (ivReg s rb).toNat
    let zn := fun (t : State) (r : W32) (c : Bool) =>
      IvAnswers s t short rd r (decide (r = 0#32)) (decide (2 ^ 31 ≤ r.toNat)) c (csBit s.iv.core Cs.v)
    let keep := csBit s.iv.core Cs.c
    let shl := fun (k : Nat) (t : State) =>
      zn t (if 32 ≤ k then 0#32 else a <<< k)
        (if k = 0 then keep else if k < 32 then a.getLsbD (32 - k) else if k = 32 then a.getLsbD 0 else false)
    let shr := fun (k : Nat) (t : State) =>
      zn t (if 32 ≤ k then 0#32 else a >>> k)
        (if k = 0 then keep else if k < 32 then a.getLsbD (k - 1) else if k = 32 then a.getLsbD 31 else false)
    let sar := fun (k : Nat) (t : State) =>
      zn t (if 32 ≤ k then (if a.getLsbD 31 then BitVec.allOnes 32 else 0#32) else a.sshiftRight k)
        (if k = 0 then keep else if k < 32 then a.getLsbD (k - 1) else a.getLsbD 31)
    let ror := fun (k : Nat) (t : State) =>
      zn t (a.rotateRight k) (if k = 0 then keep else (a.rotateRight k).getLsbD 31)
    Runs (.ivShl rd ra rb short) s (shl (b % 256)) ∧ Runs (.ivShli rd ra n short) s (shl (n % 32)) ∧
    Runs (.ivShr rd ra rb short) s (shr (b % 256)) ∧ Runs (.ivShri rd ra n short) s (shr (n % 32)) ∧
    Runs (.ivSar rd ra rb short) s (sar (b % 256)) ∧ Runs (.ivSari rd ra n short) s (sar (n % 32)) ∧
    Runs (.ivRor rd ra rb short) s (ror (b % 32)) ∧ Runs (.ivRori rd ra n short) s (ror (n % 32))

/-- In the plain course LDW, LDH, LDHU, LDB, LDBU and LDD from a naturally aligned address in SRAM put the bytes there,
little-endian and extended as the instruction says, into Rd, and POP puts the word at DSP into Rd and adds 4 to DSP;
every flag, every other register and all of memory stay. (R617, R565, R571, 17_ivler_instructions.md Table 17.7) -/
def Obligations.IvlerLoads : Prop :=
  ∀ (s : State) (rd ra : Nat) (imm : Int) (off : Nat) (short : Bool), IvPlain s short →
    let lw := ivEff s short 4 ra imm
    let lb := ivEff s short 1 ra imm
    let l2 := ivEff s false 2 ra imm
    let l1 := ivEff s false 1 ra imm
    let d := s.iv.dsp + BitVec.ofNat 32 (off % 65536)
    (SramWord lw 4 → Runs (.ivLdw rd ra imm short) s (fun t => IvPuts s t short rd (BitVec.ofNat 32 (sramAt s lw 4)))) ∧
    (SramWord lb 1 → Runs (.ivLdbu rd ra imm short) s (fun t => IvPuts s t short rd (BitVec.ofNat 32 (sramAt s lb 1)))) ∧
    (SramWord s.iv.dsp 4 → Runs (.ivPop rd short) s (fun t => IvLeaves s t (ivNext s short)
      { ivWith s rd (BitVec.ofNat 32 (sramAt s s.iv.dsp 4)) s.iv.core with dsp := s.iv.dsp + 4#32 })) ∧
    (short = false →
      (SramWord l2 2 → Runs (.ivLdh rd ra imm) s (fun t => IvPuts s t false rd (BitVec.ofInt 32 (signed 16 (sramAt s l2 2)))) ∧
        Runs (.ivLdhu rd ra imm) s (fun t => IvPuts s t false rd (BitVec.ofNat 32 (sramAt s l2 2)))) ∧
      (SramWord l1 1 → Runs (.ivLdb rd ra imm) s (fun t => IvPuts s t false rd (BitVec.ofInt 32 (signed 8 (sramAt s l1 1))))) ∧
      (s.iv.dsp.toNat % 4 = 0 → SramWord d 4 →
        Runs (.ivLdd rd off) s (fun t => IvPuts s t false rd (BitVec.ofNat 32 (sramAt s d 4)))))

/-- In the plain course STW, STH, STB and STD to a naturally aligned address in SRAM store the low bytes of Rd there,
little-endian, and PUSH lowers DSP by 4 and stores Ra at it where that stays at or above DSLIM; every byte outside the
stored ones reads as before, and no register but DSP of PUSH and no flag changes. (R617, R565, R571,
17_ivler_instructions.md Table 17.7) -/
def Obligations.IvlerStores : Prop :=
  ∀ (s : State) (rd ra : Nat) (imm : Int) (off : Nat) (short : Bool), IvPlain s short →
    let sw := ivEff s short 4 ra imm
    let sb := ivEff s short 1 ra imm
    let s2 := ivEff s false 2 ra imm
    let d := s.iv.dsp + BitVec.ofNat 32 (off % 65536)
    let x := ivReg s rd
    (SramWord sw 4 → Runs (.ivStw rd ra imm short) s (fun t => IvStores s t short sw 4 x s.iv)) ∧
    (SramWord sb 1 → Runs (.ivStb rd ra imm short) s (fun t => IvStores s t short sb 1 x s.iv)) ∧
    (s.iv.dsp.toNat % 4 = 0 → s.iv.dslim.toNat + 4 ≤ s.iv.dsp.toNat → SramWord (s.iv.dsp - 4#32) 4 →
      Runs (.ivPush ra short) s (fun t =>
        IvStores s t short (s.iv.dsp - 4#32) 4 (ivReg s ra) { s.iv with dsp := s.iv.dsp - 4#32 })) ∧
    (short = false →
      (SramWord s2 2 → Runs (.ivSth rd ra imm) s (fun t => IvStores s t false s2 2 x s.iv)) ∧
      (s.iv.dsp.toNat % 4 = 0 → SramWord d 4 → Runs (.ivStd rd off) s (fun t => IvStores s t false d 4 x s.iv)))

/-- In the plain course LDBIT, LDBITN, ANDB, ANDBN, ORB, ORBN and XORB leave BA at the combination of BA with the bit at
(BADDR, plus Ra[12:0] with X set) mod 8,192, BACC clears, sets or inverts BA, and PAR leaves BA at the parity of Ra;
nothing else changes. An address beyond CORESTAT is read with no multiply in flight. In the plain course STBIT, STBITN,
SETB, CLRB, NOTB and TSTSET on a bit of bit RAM write that bit as Table 17.8 says and no other, TSTSET first taking it
into BA; on an event flag SETB and TSTSET change no flag, and CLRB clears that flag and changes no other register field.
(R619, R623, 17_ivler_instructions.md Table 17.8, R620, R569) -/
def Obligations.IvlerBits : Prop :=
  (
    ∀ (s : State) (b ra n : Nat) (x : Option Nat) (short : Bool), IvPlain s short →
      let a := if short then b % 1024 else (b + (x.map fun r => (ivReg s r).toNat).getD 0) % 8192
      let v := bitGet s a
      let ba := s.iv.ba
      (a ≤ 0x180C ∨ (s.iv.mul = [] ∧ s.iv.mulReg = []) →
        Runs (.ivLdbit b x short) s (fun t => IvBool s t short v) ∧
        Runs (.ivAndb b x short) s (fun t => IvBool s t short (ba && v)) ∧
        Runs (.ivOrb b x short) s (fun t => IvBool s t short (ba || v)) ∧
        Runs (.ivXorb b x short) s (fun t => IvBool s t short (ba != v)) ∧
        (short = false →
          Runs (.ivLdbitn b x) s (fun t => IvBool s t false (!v)) ∧
          Runs (.ivAndbn b x) s (fun t => IvBool s t false (ba && !v)) ∧
          Runs (.ivOrbn b x) s (fun t => IvBool s t false (ba || !v)))) ∧
      Runs (.ivPar ra short) s (fun t => IvBool s t short (decide (popCount (ivReg s ra).toNat 32 % 2 = 1))) ∧
      (short = false → n < 3 → Runs (.ivBacc n) s (fun t => IvBool s t false (if n = 0 then false else if n = 1 then true else !ba)))) ∧
  (
    ∀ (s : State) (b e k : Nat) (x : Option Nat) (short : Bool), IvPlain s short →
      let a := if short then b % 1024 else (b + (x.map fun r => (ivReg s r).toNat).getD 0) % 8192
      let v := bitGet s a
      let ba := s.iv.ba
      (a < 0x1000 →
        Runs (.ivStbit b x short) s (fun t => IvWritesBit s t short a ba ba) ∧
        Runs (.ivSetb b x short) s (fun t => IvWritesBit s t short a true ba) ∧
        Runs (.ivClrb b x short) s (fun t => IvWritesBit s t short a false ba) ∧
        Runs (.ivNotb b x short) s (fun t => IvWritesBit s t short a (!v) ba) ∧
        (short = false →
          Runs (.ivStbitn b x) s (fun t => IvWritesBit s t false a (!ba) ba) ∧
          Runs (.ivTstset b x) s (fun t => IvWritesBit s t false a true v))) ∧
      (short = false → e < 128 → k < evBits e → a = 0x1000 + 16 * e + k →
        Runs (.ivSetb b x false) s (fun t => IvLeaves s t (ivNext s false) s.iv) ∧
        Runs (.ivTstset b x) s (fun t => IvBool s t false v) ∧
        Runs (.ivClrb b x false) s (fun t => t.get (evField e k) = 0 ∧
          IvLeaves (s.set (evField e k) 0) t (ivNext s false) s.iv)))

/-- In the plain course Bcc, JMP, CALL, JR, CALLR, RET and TRET leave PC at the slot with the transfer pending: Bcc has
a target only where its condition holds, PC-relative targets are the own address plus twice the displacement, JR and
CALLR take Ra, CALL and CALLR push an entry tagged CALL, RET pops an entry tagged CALL as its target, and TRET pops TST
and TPC as the CORESTAT to restore and its target. In a slot NOP completes and PC is the even target (the instruction
behind the slot where the branch was not taken), the slot is done, and the entry a call pushed holds the address behind
the slot. A JMP in a slot traps ILLEGAL_SLOT with its encoding in TVAL and names itself as the return address, and a
BREAK there traps BREAK and names the transfer; both undo the call. (R576, R622, R575, R572, R577, R578) -/
def Obligations.IvlerTransfersAndSlots : Prop :=
  (
    ∀ (s : State) (ra cond : Nat) (disp : Int) (short : Bool), IvPlain s short →
      let jump := ivAhead s (if short then 12 else 24) disp
      let rs := s.iv.rs
      let call := (⟨ivNext s short, 0⟩ : RsEntry) :: rs
      Runs (.ivBcc cond disp short) s (fun t =>
        IvTransfers s t short (if condHolds s.iv.core s.iv.ba (cond % 16) then some (ivAhead s (if short then 9 else 20) disp) else none)
          none false [] rs) ∧
      Runs (.ivJmp disp short) s (fun t => IvTransfers s t short (some jump) none false [] rs) ∧
      Runs (.ivJr ra short) s (fun t => IvTransfers s t short (some (ivReg s ra)) none false [] rs) ∧
      (rs.length < 64 →
        Runs (.ivCall disp short) s (fun t => IvTransfers s t short (some jump) none true [] call) ∧
        Runs (.ivCallr ra short) s (fun t => IvTransfers s t short (some (ivReg s ra)) none true [] call)) ∧
      (∀ e es, rs = e :: es → e.tag = 0 → Runs (.ivRet short) s (fun t => IvTransfers s t short (some e.val) none false [e] es)) ∧
      (∀ c p es, rs = c :: p :: es → c.tag = 2 → p.tag = 1 →
        Runs (.ivTret short) s (fun t => IvTransfers s t short (some p.val) (some c.val) false [c, p] es))) ∧
  (
    ∀ (s : State) (x : IvSlot) (short : Bool) (disp : Int) (n : Nat), IvMay s short → s.iv.slot = some x → s.iv.rep_ = none → x.tst = none →
      x.popped = [] →
      let dest := x.target.getD (ivNext s short)
      let made := match s.iv.rs with
        | e :: es => { e with val := ivNext s short } :: es
        | [] => []
      (dest.getLsbD 0 = false →
        Runs (.ivNop short) s (fun t => IvLeaves s t dest { s.iv with slot := none, rs := if x.pushed then made else s.iv.rs })) ∧
      let undone : State := { s with iv := { s.iv with slot := none, rs := if x.pushed then s.iv.rs.drop 1 else s.iv.rs } }
      (TrapReady s →
        Runs (.ivJmp disp short) s (fun t => IvTraps undone t 3 (BitVec.ofNat 32 (ivEnc short (.jmp disp))) s.iv.pc) ∧
        Runs (.ivBreak n short) s (fun t => IvTraps undone t 13 (BitVec.ofNat 32 (ivEnc short (.brk n))) x.at_)))

/-- In the plain course MUL, MULHS and MULHU put the low or high word of the product into Rd and write no flag. MLS and
MLU, issued with no multiply in flight, leave MDH and MDL as they are with the product in flight, and once such a
product has aged three more one-cycle instructions it stands in MDH and MDL; nothing else changes. In the plain course
CRCB, CRCH and CRCW leave Rd at the CRC step of R626 over 1, 2 or 4 bytes of Ra, their memory forms over the bytes in
SRAM at Ra with Ra advanced past them, where Rd and Ra differ, and BREV.B, BREV.H and BREV.W leave Rd at the low 8, 16
or 32 bits of Ra reversed with the higher bits 0; no flag changes. CRC with Rd equal to Ra in memory form traps ILLEGAL.
(R623, R624, R625, 17_ivler_instructions.md Table 17.10, R626, R627) -/
def Obligations.IvlerMultipliesAndCharacter : Prop :=
  (
    ∀ (s : State) (rd ra rb : Nat) (short : Bool), IvPlain s short →
      let a := ivReg s ra
      let b := ivReg s rb
      let u := a.toNat * b.toNat
      let i := (a.toInt * b.toInt) % 2 ^ 64
      (short = false →
        Runs (.ivMul rd ra rb) s (fun t => IvPuts s t false rd (BitVec.ofNat 32 u)) ∧
        Runs (.ivMulhu rd ra rb) s (fun t => IvPuts s t false rd (BitVec.ofNat 32 (u / 2 ^ 32))) ∧
        Runs (.ivMulhs rd ra rb) s (fun t => IvPuts s t false rd (BitVec.ofInt 32 (i / 2 ^ 32)))) ∧
      (s.iv.mul = [] →
        Runs (.ivMls ra rb short) s (fun t => t.iv.mul = [(1, BitVec.ofInt 32 (i / 2 ^ 32), BitVec.ofInt 32 i)] ∧
          t.iv.mdh = s.iv.mdh ∧ t.iv.mdl = s.iv.mdl ∧ IvLeaves s t (ivNext s short) { s.iv with mdh := t.iv.mdh }) ∧
        Runs (.ivMlu ra rb short) s (fun t => t.iv.mul = [(1, BitVec.ofNat 32 (u / 2 ^ 32), BitVec.ofNat 32 u)] ∧
          t.iv.mdh = s.iv.mdh ∧ t.iv.mdl = s.iv.mdl ∧ IvLeaves s t (ivNext s short) { s.iv with mdh := t.iv.mdh })) ∧
      (∀ age hi lo, s.iv.mul = [(age, hi, lo)] → inSram s.iv.pc.toNat (ivLen short) = true →
        Runs (.ivNop short) s (fun t =>
          (age + 1 < 4 → t.iv.mul = [(age + 1, hi, lo)] ∧ t.iv.mdh = s.iv.mdh ∧ t.iv.mdl = s.iv.mdl) ∧
          (4 ≤ age + 1 → t.iv.mul = [] ∧ t.iv.mdh = hi ∧ t.iv.mdl = lo)))) ∧
  (
    ∀ (s : State) (rd ra : Nat) (short : Bool), IvPlain s short →
      let a := ivReg s ra
      let step := fun (n data : Nat) => BitVec.ofNat 32 (crcStep s.iv.crw.toNat s.iv.crp.toNat (ivReg s rd).toNat data n)
      let mem := fun (n : Nat) (t : State) => IvLeaves s t (ivNext s false)
        { s.iv with w := wSet (wSet s.iv.w rd (step n (sramAt s a n))) ra (a + BitVec.ofNat 32 n) }
      let rev := fun (n : Nat) (t : State) => ∃ r : W32, IvPuts s t short rd r ∧
        ∀ i, r.getLsbD i = (decide (i < n) && a.getLsbD (n - 1 - i))
      Runs (.ivCrcb rd ra false short) s (fun t => IvPuts s t short rd (step 1 a.toNat)) ∧
      Runs (.ivCrch rd ra false short) s (fun t => IvPuts s t short rd (step 2 a.toNat)) ∧
      Runs (.ivCrcw rd ra false short) s (fun t => IvPuts s t short rd (step 4 a.toNat)) ∧
      Runs (.ivBrevB rd ra short) s (rev 8) ∧ Runs (.ivBrevH rd ra short) s (rev 16) ∧ Runs (.ivBrevW rd ra short) s (rev 32) ∧
      (short = false → rd % 16 ≠ ra % 16 →
        (SramWord a 1 → Runs (.ivCrcb rd ra true false) s (mem 1)) ∧
        (SramWord a 2 → Runs (.ivCrch rd ra true false) s (mem 2)) ∧
        (SramWord a 4 → Runs (.ivCrcw rd ra true false) s (mem 4))) ∧
      (short = false → rd % 16 = ra % 16 → TrapReady s →
        Runs (.ivCrcw rd ra true false) s (fun t => IvTraps s t 1 (BitVec.ofNat 32 (ivEnc false (.crc 4 rd ra true))) s.iv.pc)))

/-- In the plain course MFS puts special register sr into Rd; MTS to DSP, RSP, RSBASE, RSLIM, DSLIM, RPC, CRP, MDH (with
no multiply in flight), BA or a read-only register writes Ra there (BA its bit 0, VBASE with bits 10:0 at 0) or nothing,
MTS to CORESTAT writes bits 12:0 except WLOCK and keeps WIDE at 1 under WLOCK, and a special-register number from 20 to
31 traps ILLEGAL. (R562, R629, R585, 16_ivler_core.md Table 16.1) -/
def Obligations.IvlerSpecialRegisters : Prop :=
  ∀ (s : State) (rd ra sr : Nat) (short : Bool), IvPlain s short →
    let n := sr % (if short then 16 else 32)
    let x := ivReg s ra
    let mts := fun (iv : Iv) => Runs (.ivMts sr ra short) s (fun t => IvLeaves s t (ivNext s short) iv)
    (n < 20 → Runs (.ivMfs rd sr short) s (fun t => IvPuts s t short rd (srGet s.iv n))) ∧
    (n = 0 → Runs (.ivMts sr ra short) s (fun t => ∃ core, IvLeaves s t (ivNext s short) { s.iv with core } ∧
      ∀ i, csBit core i = if i = Cs.wlock then csBit s.iv.core i
        else if i = Cs.wide then (csBit x i || csBit s.iv.core Cs.wlock) else if i < 13 then csBit x i else false)) ∧
    (n = 1 → mts { s.iv with dsp := x }) ∧ (n = 2 → mts { s.iv with rsp := x }) ∧ (n = 3 → mts { s.iv with rsbase := x }) ∧
    (n = 4 → mts { s.iv with rslim := x }) ∧ (n = 5 → mts { s.iv with dslim := x }) ∧ (n = 6 → mts { s.iv with rpc := x }) ∧
    (n = 7 → mts { s.iv with ba := x.getLsbD 0 }) ∧ (n = 8 → mts { s.iv with crp := x }) ∧
    (n = 10 → s.iv.mul = [] → mts { s.iv with mdh := x }) ∧ (n = 11 → s.iv.mul = [] → mts { s.iv with mdl := x }) ∧
    (n = 14 → mts { s.iv with vbase := BitVec.ofNat 32 (x.toNat / 2048 * 2048) }) ∧
    (n = 12 ∨ n = 13 ∨ n = 15 ∨ (16 ≤ n ∧ n < 20) → mts s.iv) ∧
    (20 ≤ n → TrapReady s → Runs (.ivMts sr ra short) s (fun t =>
      IvTraps s t 1 (BitVec.ofNat 32 (ivEnc short (.mts sr ra))) s.iv.pc))

/-- In the plain course RPT and RPTI, with a count from the immediate or from a register within their bounds, leave PC
at the next instruction with that many iterations to run; an iteration of NOP under the repeat counts one down, RPTI
writing RPC, PC moving on after the last; a count of 0 skips the instruction; a count above the bound traps
ILLEGAL_REPEAT. (R580, R582, 17_ivler_instructions.md Table 17.12) -/
def Obligations.IvlerRepeats : Prop :=
  ∀ (s : State) (n : Nat) (short : Bool),
    (IvPlain s short →
      let arms := fun (sh : Bool) (i : IvIns) (many : Bool) (k : Nat) (t : State) =>
        IvLeaves s t (ivNext s sh) { s.iv with rep_ := some ⟨s.iv.pc, ivEnc sh i, many, k, false⟩ }
      (0 < n → n ≤ 64 → Runs (.ivRpt n false short) s (arms short (.rpt false n) false n)) ∧
      ((ivReg s n).toNat ≤ 64 → Runs (.ivRpt n true short) s (arms short (.rptr false n) false (ivReg s n).toNat)) ∧
      (64 < (ivReg s n).toNat → TrapReady s → Runs (.ivRpt n true short) s (fun t =>
        IvTraps s t 4 (BitVec.ofNat 32 (ivEnc short (.rptr false n))) s.iv.pc)) ∧
      (short = false →
        (0 < n → n ≤ 4096 → Runs (.ivRpti n false) s (arms false (.rpt true n) true n)) ∧
        ((ivReg s n).toNat ≤ 4096 → Runs (.ivRpti n true) s (arms false (.rptr true n) true (ivReg s n).toNat)))) ∧
    (∀ r, IvMay s short → s.iv.slot = none → s.iv.rep_ = some r →
      (r.left = 0 → Runs (.ivNop short) s (fun t => IvLeaves s t (ivNext s short) { s.iv with rep_ := none })) ∧
      (r.left = 1 → Runs (.ivNop short) s (fun t => IvLeaves s t (ivNext s short)
        { s.iv with rep_ := none, rpc := if r.rpti then 0#32 else s.iv.rpc })) ∧
      (1 < r.left → Runs (.ivNop short) s (fun t => IvLeaves s t s.iv.pc
        { s.iv with rep_ := some { r with left := r.left - 1, begun := true }
                    rpc := if r.rpti then BitVec.ofNat 32 (r.left - 1) else s.iv.rpc })))

/-- In the plain course NOP and SYNC change nothing but PC, WAIT leaves the core waiting, and SLEEP of mode 1, 2 or 3
while the device runs with no entry under way completes with PC moved on; SLEEP of another mode traps ILLEGAL. (R618,
R630, R628, R629) -/
def Obligations.IvlerSystem : Prop :=
  ∀ (s : State) (m : Nat) (short : Bool), IvPlain s short →
    Runs (.ivNop short) s (fun t => IvLeaves s t (ivNext s short) s.iv) ∧
    (short = false → Runs .ivSync s (fun t => IvLeaves s t (ivNext s false) s.iv) ∧
      Runs .ivWait s (fun t => IvLeaves s t (ivNext s false) { s.iv with waiting := true })) ∧
    (m % 8 = 0 ∨ 3 < m % 8 → TrapReady s → Runs (.ivSleep m short) s (fun t =>
      IvTraps s t 1 (BitVec.ofNat 32 (ivEnc short (.sleep m))) s.iv.pc))

/-- With TRAP 0 and room on the return stack, BREAK and SYSCALL enter their trap with their encoding in TVAL and the
next instruction as return address, a misaligned word access enters ALIGN and an access outside the regions LOAD_FAULT
or STORE_FAULT with the address in TVAL and the instruction itself as return address, and a 16-bit form under WIDE
enters ILLEGAL_WIDTH: return address and CORESTAT are pushed under their tags, TCAUSE and TVAL written, IE cleared, TRAP
set, and PC is VBASE plus 8 times the cause. (R588, R607, R565, R564, 16_ivler_core.md Table 16.5) -/
def Obligations.IvlerTraps : Prop :=
  ∀ (s : State) (rd ra imm : Nat) (disp : Int) (short : Bool), TrapReady s →
    (IvPlain s short →
      let a := ivEff s short 4 ra disp
      Runs (.ivBreak imm short) s (fun t => IvTraps s t 13 (BitVec.ofNat 32 (ivEnc short (.brk imm))) (ivNext s short)) ∧
      Runs (.ivSyscall imm short) s (fun t => IvTraps s t 14 (BitVec.ofNat 32 (ivEnc short (.syscall imm))) (ivNext s short)) ∧
      (a.toNat % 4 ≠ 0 → Runs (.ivLdw rd ra disp short) s (fun t => IvTraps s t 8 a s.iv.pc) ∧
        Runs (.ivStw rd ra disp short) s (fun t => IvTraps s t 8 a s.iv.pc)) ∧
      (a.toNat % 4 = 0 → ivRegion a.toNat 4 = .outside → Runs (.ivLdw rd ra disp short) s (fun t => IvTraps s t 6 a s.iv.pc) ∧
        Runs (.ivStw rd ra disp short) s (fun t => IvTraps s t 7 a s.iv.pc))) ∧
    (IvMay s false → ivFetchable s.iv.pc.toNat = true → fetchBusy s 2 = false → s.iv.slot = none → s.iv.rep_ = none →
      csBit s.iv.core Cs.wide = true →
      Runs (.ivNop true) s (fun t => IvTraps s t 2 (BitVec.ofNat 32 (ivEnc true .nop)) s.iv.pc))

/-- For every Ivler-2 instruction and each form it exists in, at every value of its operands, decoding its encoding in
that form gives the instruction with the operands that the form brings. (R606, R608, R609, R610, R611,
17_ivler_instructions.md Tables 17.2 to 17.12) -/
def Obligations.IvlerDecodesItsEncodings : Prop :=
  ∀ (short : Bool) (i : IvIns), ivHasForm short i = true →
    ivDec short (ivEnc short (ivNorm short i)) = some (ivNorm short i)

/-- A unicast frame for this device that passes checks 1 to 5 of Table 12.4, of class C1 to C3, is queued to its port
and sub-port with its source, FH_CM, FH_DIR, epoch and FH_SEQ rewritten and nothing else changed but the stream
counters; a frame whose header fails check 1 is counted and flagged and enters no queue; one for a port that is down
answers as the switch completes PORT_DOWN, but for an EVENT_FWD frame to P8, which then disappears. (R413, R414, R427, R555, 12_frame_switch.md Table 12.4) -/
def Obligations.SwitchIngress : Prop :=
  ∀ (s : State) (port sub origin : Nat) (bytes : List Byte),
    let f := frameOf bytes
    let o := if port = 9 ∨ port = 10 then origin else thisDev s
    let good := hdrOk bytes = true ∧ hdrRsvOk bytes = true ∧ typeReserved f.typ = false ∧ (f.cls = 3 ↔ baseType f.typ = 0x10) ∧
      (f.dir = true ∨ f.dev = thisDev s) ∧ f.mc = false ∧ subListed f.dport f.dsub = true
    let out : Frame := { f with sport := port, ssub := sub, cm := false, dir := true, dev := o
                                revChk := f.revChk && !(port == 8 || port == 9 || port == 10 || port == 12), epoch := 0
                                seq := seqOf s ⟨o, port, sub, f.cls, f.dport⟩ }
    (good → subDown s f.dport f.dsub = false → f.cls ≠ 0 →
      Runs (.swFrameIngress port sub origin bytes) s (fun t => ∃ x : SwCopy, x.frame = out ∧ x.inPort = port ∧ x.origin = o ∧
        x.outPort = f.dport ∧ x.outSub = f.dsub ∧ x.admitted = false ∧ x.left = frameCells f ∧
        t = { s with sw := { s.sw with frames := s.sw.frames ++ [x], nextId := s.sw.nextId + 1, seqs := t.sw.seqs } } ∧
        seqOf t ⟨o, port, sub, f.cls, f.dport⟩ = (seqOf s ⟨o, port, sub, f.cls, f.dport⟩ + 1) % 65536)) ∧
    (good → subDown s f.dport f.dsub = true → f.typ < 0x80 → fwdLost s f.dport f = false →
      Runs (.swFrameIngress port sub origin bytes) s (fun t =>
        t = swComplete s ⟨port, sub, o, f.cls, f.optag, false⟩ f.typ f.dport f.dsub St.portDown 0 0 0)) ∧
    (good → f.typ = 0x40 → f.dport = 8 → portDown s 8 = true → Runs (.swFrameIngress port sub origin bytes) s (fun t => t = s)) ∧
    (hdrOk bytes = false → Runs (.swFrameIngress port sub origin bytes) s (fun t => t.sw = s.sw ∧
      t = raise (s.bump F.swCnt0_hcrc 1) (54 + port) 8))

/-- With the switch unparked and one admitted unicast frame in it, a cell slot moves one of its cells; once its cells
are across and its destination takes it, its port starts its egress unless its epoch is stale; when it is delivered to a
port of this device its cells are free and nothing else changes, but that P11 answers a VEHICLE frame BAD_DESCRIPTOR; a sequence gap counts and flags the lost frame and
removes it. (R421, R419, R420, R432, R430, R730) -/
def Obligations.SwitchMovesAFrame : Prop :=
  ∀ (s : State) (x : SwCopy), s.sw.frames = [x] → x.group = none → x.inPort < 16 → x.outPort < 16 → x.frame.cls < 4 →
    s.on F.swStat_parked = false →
    let only := fun (t : State) (l : List SwCopy) => t.sw.frames = l
    (x.admitted = true → 0 < x.left → s.ev.fwd = [] →
      Runs .swCellSlot s (fun t => only t [{ x with left := x.left - 1 }] ∧ t = { s with regs := t.regs, sw := t.sw })) ∧
    (x.admitted = true → x.left = 0 → x.egress = false → dstTakes s x = true → x.outSub < 256 → swStale s x = false →
      Runs (.swEgressStart x.outPort) s (fun t => only t [{ x with egress := true }] ∧
        t = { s with sw := { s.sw with frames := t.sw.frames, egPtr := t.sw.egPtr } })) ∧
    (x.admitted = true → x.left = 0 → x.egress = false → dstTakes s x = true → x.outSub < 256 → swStale s x = true →
      0x80 ≤ x.frame.typ → Runs (.swEgressStart x.outPort) s (fun t => only t [] ∧
        t.get (F.swPCnt0_stale x.outPort) = min (2 ^ 16 - 1) (s.get (F.swPCnt0_stale x.outPort) + 1))) ∧
    (x.egress = true → x.left = 0 → x.outPort ≠ 9 → x.outPort ≠ 10 → (x.outPort = 11 → x.frame.typ ≠ 0x08) →
      Runs (.swFrameDelivered x.outPort) s (fun t => t = { s with sw := { s.sw with frames := [] } })) ∧
    (x.egress = true → x.left = 0 → x.outPort = 11 → x.frame.typ = 0x08 → x.frame.mc = false →
      x.frame.cls ≠ 0 → x.frame.cls ≠ 3 → x.frame.dev = thisDev s → x.frame.sport < 16 → subListed x.frame.sport x.frame.ssub = true →
      subDown s x.frame.sport x.frame.ssub = false →
      Runs (.swFrameDelivered 11) s (fun t => ∃ y : SwCopy, only t [y] ∧ y.outPort = x.frame.sport ∧ y.outSub = x.frame.ssub ∧
        y.frame.typ = 0x88 ∧ y.frame.optag = x.frame.optag ∧ y.frame.payload.head? = some (byte St.badDescriptor))) ∧
    Runs (.swSeqGap x.id) s (fun t => only t [] ∧ t.get F.swCnt1_gap = min (2 ^ 16 - 1) (s.get F.swCnt1_gap + 1) ∧
      t.get (evField (54 + x.outPort) 5) = 1)

/-- A port or sub-port that goes down reads down, raises its flag, and the one frame queued to it leaves the switch,
completed PORT_DOWN to a sub-port of this device that is up; a port or sub-port that comes up reads up; STOP closes
ingress until START, which is refused with QUOTA_ERR while the quotas exceed the pool and otherwise clears it and opens
the switch. CLR_CNT leaves every switch counter 0 and touches no other register; READ puts the 24 bytes of a group entry
into SW_MGBUF; WRITE of a good entry makes it the group with EPOCH one higher, REVOKE_AT following only when asked, and
of a bad entry raises CFG_REJECT and changes no group; SAVE asks the NV store for the record of the settings and then
for that of the groups. (R442, R445, R446, R447, 12_frame_switch.md Table 12.8, R435, R450, R451, 12_frame_switch.md
Table 12.5) -/
def Obligations.SwitchPortsStopAndSettings : Prop :=
  (
    ∀ (s : State) (p k : Nat) (src : Src), p < 16 → p ≠ 8 → k < 32 →
      (∀ x, s.sw.frames = [x] → x.outPort = p → x.outSub = k → x.group = none → x.frame.typ < 0x80 → x.frame.dev = thisDev s →
        x.frame.cls ≠ 0 → x.frame.sport ≠ p → x.frame.sport < 16 → subDown s x.frame.sport x.frame.ssub = false →
        let back := fun (t : State) => ∃ y : SwCopy, t.sw.frames = [y] ∧ y.outPort = x.frame.sport ∧ y.outSub = x.frame.ssub ∧
          y.frame.typ = 0xFF ∧ y.frame.optag = x.frame.optag ∧ y.frame.payload.take 2 = [byte St.portDown, byte x.frame.typ]
        (portDown s p = false → Runs (.swPortDown p none) s (fun t => t.get (F.swPStat_down p) = 1 ∧ back t)) ∧
        (bitOf (s.get (F.swPSdown_sub p)) k = false →
          Runs (.swPortDown p (some k)) s (fun t => bitOf (t.get (F.swPSdown_sub p)) k = true ∧ back t))) ∧
      (portDown s p = true → s.on (F.swPCtrl_en p) = true → Runs (.swPortUp p none) s (fun t =>
        t.get (F.swPStat_down p) = 0 ∧ t.get (evField (54 + p) 1) = 1 ∧ t.sw = s.sw)) ∧
      (bitOf (s.get (F.swPSdown_sub p)) k = true → Runs (.swPortUp p (some k)) s (fun t =>
        bitOf (t.get (F.swPSdown_sub p)) k = false ∧ t.get (evField (54 + p) 1) = 1 ∧ t.sw = s.sw)) ∧
      (Runs .swStop s (fun t => noNewWork t 12 = true ∧ t = { s with stops := t.stops })) ∧
      (noNewWork s 12 = true → s.stops.waits = [] → s.hst.fenced = [] →
        (quotaSum s ≤ poolCells s → Runs (.swStart src) s (fun t => noNewWork t 12 = false ∧ t.get F.swStat_quotaErr = 0 ∧ t.sw = s.sw)) ∧
        (poolCells s < quotaSum s → Runs (.swStart src) s (fun t =>
          noNewWork t 12 = true ∧ t.get F.swStat_quotaErr = 1 ∧ t.get (evField 105 0) = 1)))) ∧
  (
    ∀ (s : State) (g p off : Nat) (src : Src) (revoke : Bool),
      let buf := wordsBytes s ((List.range 6).map W.swMgbuf)
      let old := groupOf s g
      (Runs .swClrCnt s (fun t =>
        t.getW W.swCnt0 = 0#32 ∧ t.getW W.swCnt1 = 0#32 ∧ (p < 16 → t.getW (W.swPCnt0 p) = 0#32 ∧ t.getW (W.swPCnt1 p) = 0#32) ∧
        (off ≠ W.swCnt0 → off ≠ W.swCnt1 → (∀ q, q < 16 → off ≠ W.swPCnt0 q ∧ off ≠ W.swPCnt1 q) → t.getW off = s.getW off) ∧
        t = { s with regs := t.regs })) ∧
      Runs (.swMgRead g) s (fun t => wordsBytes t ((List.range 6).map W.swMgbuf) = groupBytes old ∧ t = { s with regs := t.regs }) ∧
      (mgWriteOk buf = true → Runs (.swMgWrite src g revoke) s (fun t =>
        let new := groupOf t g
        new.valid = (leAt buf 0 1 == 1) ∧ new.epoch = (old.epoch + 1) % 256 ∧
        new.revokeAt = (if revoke then new.epoch else old.revokeAt) ∧ new.ports = leAt buf 4 2 ∧
        new.subs = ((List.range 16).map fun q => leAt buf (8 + q) 1) ∧
        (∀ h, h ≠ g → groupOf t h = groupOf s h) ∧ t.sw.frames = s.sw.frames)) ∧
      (mgWriteOk buf = false → Runs (.swMgWrite src g revoke) s (fun t =>
        t.sw = s.sw ∧ t.get (evField 105 0) = 1)) ∧
      (NvTakes s false (.record recSwitch []) → NvTakes s false (.record recGroups []) →
        Runs (.swSave src) s (fun t => t = withOrd s
          [nvJob (.record recSwitch (wordsBytes s recSwitchWords)) false false (srcPort src) .none,
           nvJob (.record recGroups (recGroupsBytes s)) false false (srcPort src) .none])))

/-- From every state, EVALUATION_CYCLE, ARM_TIMEOUT, FB_WINDOW_EXPIRY and PARK_DWELL each complete. With no input
waiting and no force cause, a cycle in LOCKED changes nothing, and with no input waiting one in FORCED_LOCK changes
nothing. Every cycle takes the gate only from LOCKED to LOCKED, ARMING or FORCED_LOCK, from ARMING to ARMING, RELEASED,
LOCKED or FORCED_LOCK, from RELEASED to RELEASED, HOLDING, LOCKED or FORCED_LOCK, from HOLDING to HOLDING, RELEASED,
LOCKED or FORCED_LOCK, and from FORCED_LOCK nowhere. (R33, 02_release_gate.md Table 2.2) -/
def Obligations.GateTransitions : Prop :=
  ∀ (s : State),
    let table := fun (t : State) =>
      (sadState s = SS.locked → sadState t ∈ [SS.locked, SS.arming, SS.forced]) ∧
      (sadState s = SS.arming → sadState t ∈ [SS.arming, SS.released, SS.locked, SS.forced]) ∧
      (sadState s = SS.released → sadState t ∈ [SS.released, SS.holding, SS.locked, SS.forced]) ∧
      (sadState s = SS.holding → sadState t ∈ [SS.holding, SS.released, SS.locked, SS.forced]) ∧
      (sadState s = SS.forced → sadState t = SS.forced)
    let rests := s.sad.inbox = [] ∧
      (sadState s = SS.forced ∨ sadState s = SS.locked ∧ tamperClear s = true ∧ s.get F.secStat_lc = 2)
    (∃ t, exec .sadEvaluationCycle s = .next t ∧ table t) ∧
    (∃ t, exec .sadArmTimeout s = .next t ∧ table t) ∧
    (∃ t, exec .sadFbWindowExpiry s = .next t ∧ table t) ∧
    (∃ t, exec .sadParkDwell s = .next t ∧ table t) ∧
    (rests → exec .sadEvaluationCycle s = .next s ∧ exec .sadArmTimeout s = .next s ∧
      exec .sadFbWindowExpiry s = .next s ∧ exec .sadParkDwell s = .next s)

/-- With no input waiting, a cycle in ARMING goes to FORCED_LOCK under a force cause, to LOCKED with REASON 6 when the
random number unit has failed, to LOCKED with REASON 1 when a required LIVE term other than 8 is false, and to RELEASED
with the pulse trains on when every required term is true; otherwise it stays, and ends in LOCKED with REASON 2 when
ARM_TIMEOUT falls in it. (R38, R44, R45, 02_release_gate.md Table 2.3) -/
def Obligations.GateArming : Prop :=
  ∀ (s : State), sadState s = SS.arming → s.sad.inbox = [] → s.sad.twice = 0 →
    s.sad.who = [] → s.pm.entry = 0 →
    let ws := s.sad.words
    let force := tamperClear s = false ∨ s.get F.secStat_lc ≠ 2
    let bad := ∃ k, k < 16 ∧ bitOf (slReq ws) k = true ∧ isAged k = false ∧ k ≠ 8 ∧ liveTerm s ws k = false
    let met := ∀ k, k < 16 → bitOf (slReq ws) k = true → termTrue s ws k = true
    let ends := fun (dest reason : Nat) (t : State) => sadState t = dest ∧ t.get F.sadCause_reason = reason ∧ t.on F.sadStat_pulsing = false
    (force → Runs .sadEvaluationCycle s (fun t => sadState t = SS.forced ∧ t.on F.sadStat_pulsing = false)) ∧
    (¬ force → liveTerm s ws 10 = false → Runs .sadEvaluationCycle s (ends SS.locked 6)) ∧
    (¬ force → liveTerm s ws 10 = true → bad → Runs .sadArmTimeout s (ends SS.locked 1)) ∧
    (¬ force → liveTerm s ws 10 = true → ¬ bad → met → Runs .sadArmTimeout s (fun t =>
      sadState t = SS.released ∧ t.on F.sadStat_pulsing = true ∧ t.get (evField 94 0) = 1)) ∧
    (¬ force → liveTerm s ws 10 = true → ¬ bad → ¬ met →
      Runs .sadEvaluationCycle s (fun t => t = { s with sad := t.sad }) ∧ Runs .sadArmTimeout s (ends SS.locked 2))

/-- With the gate running and no force cause: a waiting release request in LOCKED enters ARMING with the active slot, or
is denied with REASON 9 when no slot is active; a waiting end request in RELEASED enters LOCKED with REASON 8 while the
vehicle is parked and HOLDING with END_PENDING while it is not; the expiry of the feedback window sets FB_FAULT and
locks a parked vehicle with REASON 7; PARK_DWELL in HOLDING with nothing pending enters LOCKED. (R39, R50, R56, R59,
R61, R64, 02_release_gate.md Table 2.2) -/
def Obligations.GateLockedAndReleased : Prop :=
  ∀ (s : State), noNewWork s 32 = false → tamperClear s = true → s.get F.secStat_lc = 2 →
    s.on F.rngStat_fatal = false → s.pm.entry = 0 → s.sad.who = [] →
    (sadState s = SS.locked → s.sad.inbox = [.release none] →
      (∀ n, sadActive s = some n → n < 8 → Runs .sadEvaluationCycle s (fun t =>
        sadState t = SS.arming ∧ t.sad.slot = n ∧ t.sad.words = slotWords s n ∧ t.sad.who = [none] ∧ t.on F.sadStat_fbFault = false)) ∧
      (sadActive s = none → Runs .sadEvaluationCycle s (fun t => sadState t = SS.locked ∧
        t.get F.sadCause_reason = 9 ∧ t.get F.sadCause_status = St.policyDeny ∧ t.get (evField 95 0) = 1))) ∧
    (sadState s = SS.released → s.sad.inbox = [.endReq none] → s.sad.fbWait = false →
      (sadParked s = true → Runs .sadEvaluationCycle s (fun t => sadState t = SS.locked ∧ t.get F.sadCause_reason = 8 ∧
        t.on F.sadStat_pulsing = false)) ∧
      (sadParked s = false → s.on F.sadStat_endPending = false → Runs .sadEvaluationCycle s (fun t => sadState t = SS.holding ∧
        t.get F.sadCause_reason = 8 ∧ t.on F.sadStat_endPending = true ∧ t.get (evField 96 0) = 1))) ∧
    (sadState s = SS.released → s.sad.inbox = [] → s.sad.fbWait = true → sadParked s = true →
      Runs .sadFbWindowExpiry s (fun t => sadState t = SS.locked ∧ t.get F.sadCause_reason = 7 ∧ t.on F.sadStat_fbFault = true ∧
        t.get (evField 98 0) = 1)) ∧
    (sadState s = SS.holding → s.sad.inbox = [] → s.on F.sadStat_endPending = false → s.on F.sadStat_forcePending = false →
      s.on F.sadCtrl_vehEn = true → s.get F.sadCtrl_parkDwell ≠ 0 → vehFresh s = true → s.sad.vehPark = true →
      Runs .sadParkDwell s (fun t => sadState t = SS.locked))

/-- A release request from firmware, from the host with HOSTREQ_EN, from a SADDLE_REQ frame or from a VEHICLE frame of
KIND 2 waits for the cycle in LOCKED, joins the one being judged in ARMING, completes OK at once in RELEASED and is
denied POLICY_DENY with REASON 10 in HOLDING and FORCED_LOCK; the host without HOSTREQ_EN is ignored; end requests,
vehicle status and term results wait for the cycle, and the status frame is answered. While the gate is stopping or
stopped its frames are held and the other release requests wait. (R39, R40, R512, R737, R43) -/
def Obligations.GateRequests : Prop :=
  ∀ (s : State) (src : Src) (req : Req) (payload : List Byte) (r : TermRes) (park : Bool) (ctx : Nat),
    let waits := fun (x : SadIn) (t : State) => t = { s with sad := { s.sad with inbox := s.sad.inbox ++ [x] } }
    let held := fun (x : SadFrame) (t : State) => t = { s with sad := { s.sad with held := s.sad.held ++ [x] } }
    let may := srcIsHost src = false ∨ s.on F.sadCtrl_hostreqEn = true
    (noNewWork s 32 = true → (may → Runs (.sadRequest src) s (waits (.release none))) ∧
      Runs (.sadVehicleStatus req park ctx) s (held (.status req park ctx)) ∧ Runs (.sadVehicleStart req) s (held (.start req)) ∧
      Runs (.sadVehicleStop req) s (held (.stop req)) ∧ Runs (.saddleReqRelease req payload) s (held (.ask 1 req payload)) ∧
      Runs (.saddleReqEnd req payload) s (held (.ask 2 req payload))) ∧
    (noNewWork s 32 = false →
    (¬ may → Runs (.sadRequest src) s (fun t => t = s)) ∧
    (may → sadState s = SS.locked → Runs (.sadRequest src) s (waits (.release none))) ∧
    (may → sadState s = SS.arming → Runs (.sadRequest src) s (fun t => t = { s with sad := { s.sad with who := s.sad.who ++ [none] } })) ∧
    (may → sadState s = SS.released → Runs (.sadRequest src) s (fun t => t.get F.sadCause_status = St.ok ∧ sadState t = SS.released ∧
      t = s.set F.sadCause_status St.ok)) ∧
    (may → sadState s = SS.holding ∨ sadState s = SS.forced → Runs (.sadRequest src) s (fun t =>
      t.get F.sadCause_status = St.policyDeny ∧ t.get F.sadCause_reason = 10 ∧ t.get (evField 95 0) = 1 ∧ sadState t = sadState s)) ∧
    Runs .sadEnd s (waits (.endReq none)) ∧ Runs (.sadTermResult r) s (waits (.result r)) ∧
    (req.port = 11 →
      Runs (.sadVehicleStop req) s (waits (.endReq (some ⟨req, 0x08, 3⟩))) ∧
      Runs (.sadVehicleStatus req park ctx) s (fun t => t.sad.inbox = s.sad.inbox ++ [.vehicle park (ctx % 4) s.now] ∧
        t = complete (sadPost s (.vehicle park (ctx % 4) s.now)) 14 0 req 0x08 (sadPayload s 1 St.ok)) ∧
      (sadState s = SS.locked → Runs (.sadVehicleStart req) s (fun t => t.sad.inbox = s.sad.inbox ++ [.release (some ⟨req, 0x08, 2⟩)] ∧
        sget t.sad.res 2 = some ⟨true, s.now, [], false⟩))) ∧
    (saddleReqOk req 1 payload = true → s.on F.sadCtrl_hostreqEn = true ∨ req.port = 12 → sadState s = SS.locked →
      Runs (.saddleReqRelease req payload) s (waits (.release (some ⟨req, 0x0C, 1⟩)))) ∧
    (saddleReqOk req 2 payload = true → Runs (.saddleReqEnd req payload) s (waits (.endReq (some ⟨req, 0x0C, 2⟩)))))

/-- FORCE_CLEAR leaves FORCED_LOCK for LOCKED only when terms 7 and 9 are true and no force cause is recorded;
SAVE_POLICY hands the record of settings and slots to the NV store in BLANK and PROVISIONED and raises CFG_REJECT later;
RECHECK makes the AGED terms other than term 1 of the active slot pending; a change of REL_FB to closed outside a pulse
train sets FB_CLOSED and raises its flag; a stale vehicle status is not parked; an aged result is expired, and a hold
term re-requested in vain is lost. (R32, R36, R43, R51, R55, R64, R65) -/
def Obligations.GateCommandsAndTerms : Prop :=
  ∀ (s : State) (src : Src) (level : Bool) (k : Nat) (r : SadRes),
    (sadState s = SS.forced → tamperClear s = true → s.get F.secStat_lc = 2 → noForceCause s = true → s.pm.entry = 0 →
      Runs .sadForceClear s (fun t => sadState t = SS.locked ∧ t.get F.sadCause_reason = 0)) ∧
    (sadState s ≠ SS.forced ∨ tamperClear s = false ∨ s.get F.secStat_lc ≠ 2 ∨ noForceCause s = false →
      Runs .sadForceClear s (fun t => t = s)) ∧
    (s.get F.secStat_lc < 2 → NvTakes s false (.record recSaddle []) → Runs (.sadSavePolicy src) s (fun t =>
      t = withCust s [nvJob (.record recSaddle (wordsBytes s recSaddleWords)) true false (srcPort src) .none])) ∧
    (2 ≤ s.get F.secStat_lc → Runs (.sadSavePolicy src) s (fun t => t.sad = s.sad ∧ t.get (evField 105 0) = 1)) ∧
    (k ∈ [0, 2, 3, 4, 12] → bitOf (slReq (sadWords s) ||| slHold (sadWords s)) k = true →
      Runs .sadRecheck s (fun t => termPending t k = true ∧ sadState t = sadState s)) ∧
    ((level != s.on F.sadFb_pol) = true → s.on F.sadStat_fbClosed = false → s.on F.sadStat_pulsing = false →
      Runs (.sadRelFbChange level) s (fun t => t.on F.sadStat_fbClosed = true ∧ t.get (evField 98 0) = 1 ∧ t.sad = s.sad)) ∧
    ((level != s.on F.sadFb_pol) = s.on F.sadStat_fbClosed → Runs (.sadRelFbChange level) s (fun t => t = s)) ∧
    (s.on F.sadCtrl_vehEn = true → Runs .sadVehStale s (fun t => sadParked t = false ∧ sadVeh t = 3 ∧ t = { s with sad := t.sad })) ∧
    (sget s.sad.res k = some r → sadState s ≠ SS.released → Runs (.sadTermMaxage k) s (fun t =>
      agedFresh t (sadWords t) k = none ∧ t = { s with sad := t.sad })) ∧
    (sadState s = SS.released → isAged k = true → bitOf (slHold s.sad.words) k = true → termPending s k = true →
      Runs (.sadTermRefreshTimeout k) s (fun t => bitOf t.sad.lost k = true ∧ termPending t k = false ∧ t = { s with sad := t.sad }))

/-- From every state PULSE_APPLY completes, and applying again in the state it leaves changes nothing: no pulse is
counted twice. (R67) -/
def Obligations.LedgerPulsesOnce : Prop :=
  ∀ s : State, Runs .ledPulseApply s (fun t => Runs .ledPulseApply t (fun u => u = t))

/-- In a running ledger that writes no closing statement, d new discharge pulses raise the lifetime count by d and
life_wh by the whole Wh of the accumulated pulses, keep the remainder, lower CREDIT by those Wh with saturation while a
lease is open and leave CREDIT alone while none is, and leave EXHAUSTED, LOW and IN_GRACE as R74 says of AVAIL; charge
pulses under NET 1 return at most the Wh released under the lease. (R68, R69, R71, R73, R74, R77) -/
def Obligations.LedgerConvertsPulses : Prop :=
  ∀ (s : State), isStopped s 34 = false → 4 ≤ s.get F.pmStat_current → s.get F.pmStat_current ≤ 6 → s.on F.clkStat_cfgDone = true →
    s.led.copyB = false → s.led.closing = false →
    let d := (s.get F.vioEpdcnt_count + 2 ^ 32 - s.led.takenD) % 2 ^ 32
    let c := (s.get F.vioEpccnt_count + 2 ^ 32 - s.led.takenC) % 2 ^ 32
    let accD := kGet s K.accD 4 + 1000 * d
    let whD := accD / meterK s
    let whC := (kGet s K.accC 4 + 1000 * c) / meterK s
    let sat := fun (x : Int) => max (-(2 ^ 31)) (min (2 ^ 31 - 1) x)
    (0 < d → c = 0 → Runs .ledPulseApply s (fun t =>
      get64 t W.ledDpulseLo W.ledDpulseHi = (get64 s W.ledDpulseLo W.ledDpulseHi + d) % 2 ^ 64 ∧
      kGet t K.accD 4 = accD % meterK s ∧ kGet t K.life 8 = (kGet s K.life 8 + whD) % 2 ^ 64 ∧
      ledCredit t = (if s.on F.ledStat_open then sat (ledCredit s - whD) else ledCredit s) ∧
      wh (t.getW W.ledAvail) = sat (ledCredit t + graceEff t) ∧ (t.on F.ledStat_exhausted = true ↔ wh (t.getW W.ledAvail) ≤ 0) ∧
      (t.on F.ledStat_low = true ↔ wh (t.getW W.ledAvail) ≤ t.get F.ledLowmark_lowmark) ∧
      (t.on F.ledStat_inGrace = true ↔ ledCredit t < 0 ∧ 0 < wh (t.getW W.ledAvail)))) ∧
    (d = 0 → 0 < c → Runs .ledPulseApply s (fun t =>
      get64 t W.ledCpulseLo W.ledCpulseHi = (get64 s W.ledCpulseLo W.ledCpulseHi + c) % 2 ^ 64 ∧
      ledCredit t = (if s.on F.ledStat_open ∧ s.on F.ledCtrl_net then sat (ledCredit s + min whC (s.get F.ledLeasewh_leaseWh))
        else ledCredit s)))

/-- With no checkpoint running and block protect below 3, LED_CMD.CHECKPOINT and CHECKPOINT_DUE advance KSEQ, set
CKPT_BUSY and hand both copies of pair KSEQ mod 16 with the keep set to the NV store as a custody write; while one runs
a further one is noted; under block protect 3 it is counted as refused. (R88, R89, R398) -/
def Obligations.LedgerCheckpoints : Prop :=
  ∀ (s : State) (c : Instr), c ∈ [Instr.ledCheckpoint, .ledCheckpointDue] →
    let k := (s.get F.ledKseq_kseq + 1) % 2 ^ 32
    (s.on F.ledStat_ckptBusy = false → NvTakes s true (.both (recKeep (k % 16)) k []) → Runs c s (fun t =>
      t.get F.ledKseq_kseq = k ∧ t.on F.ledStat_ckptBusy = true ∧ t.led.tokNow = s.led.tokNext ∧
      ∃ bytes, bytes.length = 4096 ∧
        t.nv.cust = s.nv.cust ++ [nvJob (.both (recKeep (k % 16)) k bytes) true true 14 .checkpoint])) ∧
    (s.on F.ledStat_ckptBusy = true → Runs c s (fun t => t.led.again = true ∧ t = { s with led := t.led })) ∧
    (s.on F.ledStat_ckptBusy = false → s.get F.nvProt_bp = 3 → s.led.tokNext = [] → Runs c s (fun t =>
      t.nv = s.nv ∧ t.get F.nvCnt_refused = min (2 ^ 16 - 1) (s.get F.nvCnt_refused + 1)))

/-- A token that fails checks 1 to 3 completes with that status and changes no credit; an authentic one with a SEQ not
above LED_SEQ completes TOKEN_REPLAY; an authentic token in its window with a good body sets LED_SEQ after the pulses
not yet taken and waits for its checkpoint, where a CREDIT_ADD adds CREDIT_WH to CREDIT and sets GRACE_WH, and a
LEASE_TERMS takes over the lease, its window, METER_K and NET and opens the ledger; a report request answers the report
sealed by CMAC under the lessor report key, or KEY_UNAVAILABLE without one. A stopping or stopped ledger holds both
kinds of frame. (R81, R82, R84, R85, R93, 03_lease_ledger.md Table 3.3) -/
def Obligations.LedgerTokensAndReports : Prop :=
  ∀ (s u : State) (req : Req) (token payload bits body k : List Byte) (st : Nat),
    (noNewWork s 34 = true →
      Runs (.ledTokenFrame req token) s (fun t => t = { s with led := { s.led with held := s.led.held ++ [(req, true, token)] } }) ∧
      Runs (.saddleReqReport req payload) s (fun t => t = { s with led := { s.led with held := s.led.held ++ [(req, false, payload)] } })) ∧
    (noNewWork s 34 = false → s.led.policy = none → tokCheck s token = some st → Runs (.ledTokenFrame req token) s (fun t => t.get F.ledStat_tokenStatus = st ∧
      t.getW W.ledCredit = s.getW W.ledCredit ∧ t = tokComplete s ⟨req, leAt token 1 1, st⟩)) ∧
    (noNewWork s 34 = false → s.led.policy = none → tokCheck s token = none → maskDraws 2 s = .bits bits u → lessorKey s "LTOK" = some k →
      gcmOpen k (slice token 44 12) (token.take 56) (slice token 56 (token.length - 72)) (token.drop (token.length - 16)) = some body →
      let seq := leAt token 24 8
      let v := ledCatchUp s
      (seq ≤ get64 s W.ledSeqLo W.ledSeqHi → Runs (.ledTokenFrame req token) s (fun t =>
        t.get F.ledStat_tokenStatus = St.tokenReplay ∧ t.getW W.ledCredit = s.getW W.ledCredit ∧
        get64 t W.ledSeqLo W.ledSeqHi = get64 s W.ledSeqLo W.ledSeqHi)) ∧
      (get64 s W.ledSeqLo W.ledSeqHi < seq → s.on F.ledStat_rtcUnsure = false → leAt token 36 4 ≤ s.rtcSec →
        s.rtcSec ≤ leAt token 40 4 → s.get F.nvProt_bp ≠ 3 →
        (leAt token 1 1 = 1 → tokBodyOk v 1 body = true →
          Runs (.ledTokenFrame req token) s (fun t => get64 t W.ledSeqLo W.ledSeqHi = seq ∧
            ledCredit t = ledCredit v + leAt body 0 4 ∧ t.get F.ledGrace_graceWh = leAt body 4 4 ∧
            ⟨req, 1, St.ok⟩ ∈ t.led.tokNow ++ t.led.tokNext)) ∧
        (leAt token 1 1 = 2 → tokBodyOk v 2 body = true →
          Runs (.ledTokenFrame req token) s (fun t => get64 t W.ledSeqLo W.ledSeqHi = seq ∧
            t.get F.ledLease_leaseId = leAt token 20 4 ∧ t.get F.ledWstart_leaseStart = leAt body 0 4 ∧
            t.get F.ledWend_leaseEnd = leAt body 4 4 ∧ t.get F.ledCtrl_meterK = leAt body 8 2 ∧ t.get F.ledCtrl_net = leAt body 10 1 ∧
            t.on F.ledStat_open = true ∧ ledCredit t = ledCredit v ∧ ⟨req, 2, St.ok⟩ ∈ t.led.tokNow ++ t.led.tokNext)))) ∧
    (noNewWork s 34 = false → saddleReqOk req 3 payload = true → payload.length = 24 → maskDraws 2 s = .bits bits u →
      let b := ledReportBody s 0x81 (slice payload 8 16)
      (lessorKey s "LRPT" = some k → Runs (.saddleReqReport req payload) s (fun t =>
        t = complete u 14 1 req 0x0C ([0#8, 3#8, 0#8, 0#8] ++ b ++ cmac k b))) ∧
      (lessorKey s "LRPT" = none → Runs (.saddleReqReport req payload) s (fun t =>
        t = complete u 14 1 req 0x0C ([byte St.keyUnavailable, 3#8, 0#8, 0#8]))))

/-- A program that may go on runs the entry at PC: END stops it, a JUMP goes to NEXT, a LOOP counts down from COUNT, a
WAIT holds until PROG_WAIT and then goes on (stopping with PROG_ERR behind entry 63), a job entry on enabled channels
that are up makes a C2 task on each of them, and an OP above 8 stops it with PROG_ERR; PROG_START and PROG_HALT act at
once between jobs and after the job in progress. (R131, R132, R133, R134, 04_coil_channels.md Table 4.4) -/
def Obligations.CoilProgram : Prop :=
  ∀ (s : State),
    let pc := s.get F.coilStat_pc
    let e := memRead s.coil.prog (16 * pc) 16
    let op := leAt e 0 1
    let next := leAt e 12 1
    (progReady s = true → entryOk e = true → (leAt e 13 1).testBit 4 = false →
      (op = 0 → Runs .coilProgramEntry s (fun t => t.on F.coilStat_progRun = false ∧ t.on F.coilStat_progErr = s.on F.coilStat_progErr)) ∧
      (op = 6 → Runs .coilProgramEntry s (fun t => t.coil.progWait = true ∧ t = { s with coil := t.coil })) ∧
      (op = 7 → next ≤ 63 → Runs .coilProgramEntry s (fun t => t = s.set F.coilStat_pc next)) ∧
      (op = 8 → next ≤ 63 → 1 < leAt e 9 1 → sget s.coil.loops pc = none → Runs .coilProgramEntry s (fun t =>
        t.get F.coilStat_pc = next ∧ sget t.coil.loops pc = some (leAt e 9 1 - 1))) ∧
      (op = 8 → next ≤ 63 → 1 ≤ leAt e 9 1 → sget s.coil.loops pc = some 1 → pc < 63 → Runs .coilProgramEntry s (fun t =>
        t.get F.coilStat_pc = pc + 1 ∧ sget t.coil.loops pc = none)) ∧
      (1 ≤ op → op ≤ 5 → (∀ ch, bitOf (leAt e 2 6) ch = true → coilEn s ch = true ∧ coilChDown s ch = false ∧ coilGrpDown s ch = false) →
        Runs .coilProgramEntry s (fun t => t.coil.progJob = some s.coil.nextId ∧
          (∃ j ∈ t.coil.jobs, j.id = s.coil.nextId ∧ j.op = op ∧ j.req = none ∧ j.notify = false) ∧
          ∀ ch, ch < 48 → bitOf (leAt e 2 6) ch = true →
            ∃ r ∈ t.coil.ready, r.ch = ch ∧ r.op = op ∧ r.cls ≤ 2 ∧ r.jobs.contains s.coil.nextId = true))) ∧
    (progReady s = true → 8 < op → Runs .coilProgramEntry s (fun t =>
      t.on F.coilStat_progRun = false ∧ t.on F.coilStat_progErr = true)) ∧
    (s.coil.progWait = true → s.coil.progHalt = false → s.coil.progAgain = false → Runs .coilProgWait s (fun t => t.coil.progWait = false ∧
      (pc < 63 → t.get F.coilStat_pc = pc + 1 ∧ t.on F.coilStat_progRun = s.on F.coilStat_progRun) ∧
      (pc = 63 → t.on F.coilStat_progRun = false ∧ t.on F.coilStat_progErr = true))) ∧
    Runs .coilProgStart s (fun t => t.on F.coilStat_progErr = false ∧
      (s.coil.progJob = none → t.on F.coilStat_progRun = true ∧ t.get F.coilStat_pc = 0 ∧ t.coil.loops = []) ∧
      (s.coil.progJob ≠ none → t.coil.progAgain = true ∧ t.coil.progJob = s.coil.progJob ∧ t.get F.coilStat_pc = pc)) ∧
    Runs .coilProgHalt s (fun t =>
      (s.coil.progJob = none → t.on F.coilStat_progRun = false) ∧
      (s.coil.progJob ≠ none → t = { s with coil := t.coil } ∧ t.coil.progHalt = true ∧ t.coil.progJob = s.coil.progJob))

/-- SWEEP, RETRY and MAP_ROW make one C1 task on an enabled channel, RETRY also on one that is down, and are refused for
CH 48 and above; MAP_REFRESH makes a C2 row of the next enabled channel; AUTORETRY, with the retry before it ended,
makes a C2 sweep and counts it; MAP_FULL sets every enabled channel down for a sweep and a row; MAP_SAVE, MAP_SAVE_DUE
and PROG_SAVE hand their record to the NV store, MAP_SAVE refused while the subsystem is stopped or stopping. (R110,
R114, R115, R116, R118, R120, R122, R134, R139, R140) -/
def Obligations.CoilCommands : Prop :=
  ∀ (s : State) (src : Src) (ch k : Nat),
    let quiet := ∀ r ∈ s.coil.ready, r.ch ≠ ch
    let asks := fun (op cls kind : Nat) (t : State) => ∃ r, t.coil.ready = s.coil.ready ++ [r] ∧ r.ch = ch ∧ r.op = op ∧ r.cls = cls ∧
      r.kind = kind ∧ r.jobs = [] ∧ r.limit = 1000
    let clean := { s with coil := { s.coil with mapDirty := false } }
    (quiet → coilEn s ch = true → coilGrpDown s ch = false →
      (coilChDown s ch = false → Runs (.coilSweep src ch) s (asks 4 1 0) ∧ Runs (.coilMapRow src ch) s (asks 5 1 0)) ∧
      Runs (.coilRetry src ch) s (asks 4 1 3) ∧
      (coilChDown s ch = false → k < 48 → ch = (s.coil.refresh + k) % 48 → (∀ j, j < k → coilEn s ((s.coil.refresh + j) % 48) = false) →
        s.get F.coilMapcfg_refresh ≠ 0 → noNewWork s 16 = false →
        Runs .coilMapRefresh s (fun t => asks 5 2 2 t ∧ t.coil.refresh = (ch + 1) % 48)) ∧
      (s.on (F.coilChCtrl_autoretry ch) = true → coilChDown s ch = true → s.get (F.coilChStat_fault ch) ∈ [1, 3] →
        s.get (F.coilChStat_retries ch) < 3 → (∀ x ∈ s.coil.running, x.t.ch = ch → x.t.kind ≠ 3) →
        Runs (.coilAutoretry ch) s (fun t => asks 4 2 3 t ∧
          t.get (F.coilChStat_retries ch) = s.get (F.coilChStat_retries ch) + 1 ∧ coilChDown t ch = true))) ∧
    (48 ≤ ch → ∀ c ∈ [Instr.coilSweep src ch, .coilRetry src ch, .coilMapRow src ch], Runs c s (fun t =>
      t.coil = s.coil ∧ t.get (evField 105 0) = 1)) ∧
    (s.coil.mapFull = none → Runs (.coilMapFull src) s (fun t => t = { s with coil := t.coil } ∧
      ∃ chs, t.coil.mapFull = some ⟨chs, chs, false⟩ ∧ ∀ c, c ∈ chs ↔ coilEn s c = true)) ∧
    (noNewWork s 16 = true → Runs (.coilMapSave src) s (fun t => t.coil = s.coil ∧ t.get (evField 105 0) = 1 ∧
      ∀ j ∈ t.nv.ord, j.cont = .coilMap false true → j ∈ s.nv.ord)) ∧
    (noNewWork s 16 = false → NvTakes s false (.record recCoilMap []) → Runs (.coilMapSave src) s (fun t =>
      t = withOrd clean [nvJob (.record recCoilMap (mapBytes s)) false false (srcPort src) (.coilMap false true)])) ∧
    (s.coil.mapDirty = true → NvTakes s true (.record recCoilMap []) → Runs .coilMapSaveDue s (fun t =>
      t = withOrd clean [nvJob (.record recCoilMap (mapBytes s)) false true 0 (.coilMap false false)])) ∧
    (NvTakes s false (.record recCoilProg []) → Runs (.coilProgSave src) s (fun t => ∃ bytes, bytes.take 1024 = memRead s.coil.prog 0 1024 ∧
      t = withOrd s [nvJob (.record recCoilProg bytes) false false (srcPort src) .none]))

/-- A job frame at the intake makes a task of its class on each channel of CHMASK, one with a bad entry, another OP byte
or at another sub-port completes BAD_DESCRIPTOR, and one at a stopped subsystem waits; a lone ready task that fits is
started on SYN0 when its units are granted and counts in SHORT when they are not; a field that is stable starts the
exchange; a task ends with the status of its exchange or TIMEOUT, which its job records; a C2 task whose grant was
revoked goes back among the ready tasks between exchanges. (R99, R103, R104, R121, R122, R127, R128, R131, R136, R143)
-/
def Obligations.CoilJobsAndAdmission : Prop :=
  ∀ (s : State) (req : Req) (port sub : Nat) (payload : List Byte) (x : CoilTask) (y : CoilRun) (txn : CldTxn) (j : CoilJob)
    (st ch : Nat),
    (∀ p ∈ [(1, Instr.coilJobCensus req port sub payload), (2, .coilJobAuth req port sub payload), (3, .coilJobCensusAuth req port sub payload),
            (4, .coilJobSweep req port sub payload), (5, .coilJobMapRow req port sub payload)],
      let e := payload
      let mask := leAt e 2 6
      (noNewWork s 16 = true → Runs p.2 s (fun t => t = { s with coil := { s.coil with held := s.coil.held ++ [(p.1, req, port, sub, e)] } })) ∧
      (noNewWork s 16 = false → (port ≠ 0 ∨ sub ≠ 0xFF ∨ payload.length ≠ 16 ∨ leAt e 0 1 ≠ p.1 ∨ entryOk e = false) →
        Runs p.2 s (fun t => t = complete s port sub req 0x01 ([byte St.badDescriptor, byte (leAt e 0 1)] ++ zeros 22))) ∧
      (noNewWork s 16 = false → port = 0 → sub = 0xFF → payload.length = 16 → leAt e 0 1 = p.1 → entryOk e = true →
        (∀ ch, bitOf mask ch = true → coilEn s ch = true ∧ coilChDown s ch = false ∧ coilGrpDown s ch = false) →
        Runs p.2 s (fun t => t = { s with coil := t.coil } ∧
          (∃ j ∈ t.coil.jobs, j.id = s.coil.nextId ∧ j.op = p.1 ∧ j.req = some req ∧ ∀ c, c ∈ j.left ↔ c < 48 ∧ bitOf mask c = true) ∧
          ∀ ch, ch < 48 → bitOf mask ch = true →
            ∃ r ∈ t.coil.ready, r.ch = ch ∧ r.op = p.1 ∧ r.cls ≤ req.cls ∧ r.jobs.contains s.coil.nextId = true))) ∧
    (noNewWork s 16 = false → pmAwake s = true → s.coil.mapFull = none → s.coil.running = [] → s.coil.ready = [x] → x.cls ≤ 2 →
      taskFits s x = true → s.on (F.coilGrpStat_syn0On (x.ch / 8)) = false → x.ch < 48 →
      ((arbRequest s x.ch x.cls (coilUnits s x)).1 = true → Runs .coilAdmissionPass s (fun t =>
        t.coil.running = [⟨x, 0, false, s.now⟩] ∧ t.coil.ready = [] ∧ t.on (F.coilGrpStat_syn0On (x.ch / 8)) = true ∧
        t.get (F.coilGrpStat_syn0Ch (x.ch / 8)) = x.ch)) ∧
      ((arbRequest s x.ch x.cls (coilUnits s x)).1 = false → Runs .coilAdmissionPass s (fun t =>
        t.coil = s.coil ∧ t.get F.coilGrant_short = min (2 ^ 16 - 1) (s.get F.coilGrant_short + 1)))) ∧
    (s.coil.running = [y] → y.t.ch = ch → ch < 48 →
      (y.stable = false → cldGet s ch = some txn → Runs (.coilFieldStable ch true) s (fun t =>
        t.coil.running = [{ y with stable := true }] ∧ cldGet t ch = some { txn with phase := 1 } ∧
        t = { s with coil := t.coil, cld := t.cld })) ∧
      (cldGet s ch = some txn → cldBetween s txn = true → (∃ g ∈ s.ev.grants, g.ch = ch ∧ g.revoked = true) →
        Runs (.coilTaskPreempt ch) s (fun t => t.coil.running = [] ∧ t.coil.ready = s.coil.ready ++ [y.t] ∧ cldGet t ch = none)) ∧
      (s.coil.jobs = [j] → y.t.jobs = [j.id] → (∃ c ∈ j.left, c ≠ ch) → cldGet s ch = some txn →
        ∀ c, (c = .coilTaskComplete ch ∧ txn.result = some st) ∨ (c = .coilTaskTimeout ch ∧ st = St.timeout) →
          Runs c s (fun t => t.coil.running = [] ∧ cldGet t ch = none ∧
            ∃ j', t.coil.jobs = [j'] ∧ j'.id = j.id ∧ sget j'.stat ch = some st ∧ j'.left = j.left.filter (· != ch))))

/-- FOLLOW_UPDATE over us microseconds moves no carrier by more than 80 Hz per ms; a channel with FOLLOW 0, without a
running task or receiving an uplink frame keeps its carrier; the carrier of a channel that runs alone reaches the phase
zero when the limit of movement allows it; and running channels whose carriers stood MINSEP apart stay MINSEP apart.
(R106, R107, R109) -/
def Obligations.CoilFollowLoop : Prop :=
  ∀ (s : State) (us : Nat) (targets : List (Nat × Nat)),
    Runs (.coilFollowUpdate us targets) s (fun t =>
      (∀ ch, coilFact t ch ≤ coilFact s ch + 800 * us / 1000 ∧ coilFact s ch ≤ coilFact t ch + 800 * us / 1000) ∧
      (∀ ch, s.on (F.coilChCtrl_follow ch) = false ∨ coilRunOf s ch = none ∨ (∃ x, cldGet s ch = some x ∧ x.hdr = true) →
        coilFact t ch = coilFact s ch) ∧
      (∀ x want, s.coil.running = [x] → x.t.ch < 48 → x.t.op ≠ 4 → cldGet s x.t.ch = none → s.on (F.coilChCtrl_follow x.t.ch) = true →
        targets.lookup x.t.ch = some want → coilFact s x.t.ch ≤ want + 800 * us / 1000 → want ≤ coilFact s x.t.ch + 800 * us / 1000 →
        want ≤ 160000 → want ≤ coilFnom s x.t.ch + 30000 → coilFnom s x.t.ch ≤ want + 30000 →
        coilFact t x.t.ch = want ∧ t.on (F.coilChStat_clamp x.t.ch) = false) ∧
      ((∀ x ∈ s.coil.running, ∀ y ∈ s.coil.running, x.t.ch ≠ y.t.ch →
          coilFact s x.t.ch + minSep s ≤ coilFact s y.t.ch ∨ coilFact s y.t.ch + minSep s ≤ coilFact s x.t.ch) →
        ∀ x ∈ s.coil.running, ∀ y ∈ s.coil.running, x.t.ch ≠ y.t.ch →
          coilFact t x.t.ch + minSep s ≤ coilFact t y.t.ch ∨ coilFact t y.t.ch + minSep s ≤ coilFact t x.t.ch))

/-- A sweep with a phase zero in range writes FRES, Q and RS, sets FACT to it and raises SWEEP_DONE, and a retry sweep
brings its channel back up; one without ends in DETUNED; a row writes row and column of its channel and raises
MAP_CHANGE where an entry crossed KTH; a channel fault keeps the first FAULT code, sets DOWN and its flag and ends the
tasks of the channel; a group whose supply leaves the range of COIL_GRPg_CFG, or that is too hot, goes down, ends the
tasks of its eight channels and leaves their FAULT codes, one that comes up, its supply in range where the supply took
it down, brings up every sub-port whose channel is not down. (R108, R110, R111, R114, R117, R138, R139, R141, R142) -/
def Obligations.CoilMeasurementsAndFaults : Prop :=
  ∀ (s : State) (x : CoilRun) (ch cur f q rs code g vdrv : Nat) (volts : List (Nat × Nat)) (uv ov hot : Bool),
    let fault := fun (code : Nat) (t : State) =>
      t.get (F.coilChStat_fault ch) = (if s.get (F.coilChStat_fault ch) = 0 then code else s.get (F.coilChStat_fault ch)) ∧
      coilChDown t ch = true ∧ t.get (evField ch 0) = 1 ∧ coilRunOf t ch = none ∧ (∀ r ∈ t.coil.ready, r.ch ≠ ch) ∧
      bitOf (t.get (F.swPSdown_sub (ch / 8))) (ch % 8) = true
    let low := uv && decide (vdrv < s.get (F.coilGrpCfg_uv g))
    let high := ov && decide (s.get (F.coilGrpCfg_ov g) < vdrv)
    let ours := s.on (F.coilGrpStat_uv g) = true ∨ s.on (F.coilGrpStat_ov g) = true
    let inRange := s.get (F.coilGrpCfg_uv g) ≤ vdrv ∧ vdrv ≤ s.get (F.coilGrpCfg_ov g)
    (ch < 48 → 1 ≤ code → code ≤ 4 → Runs (.coilChannelFault ch code) s (fault code)) ∧
    (ch < 48 → coilRunOf s ch = some x → x.stable = false → Runs (.coilFieldStable ch false) s (fault 1)) ∧
    (ch < 48 → coilRunOf s ch = some x → x.t.op = 4 → q < 256 → rs < 256 → f < 2 ^ 18 →
      (coilFnom s ch ≤ f + 30000 → f ≤ coilFnom s ch + 30000 → Runs (.coilSweepDone ch (some f) q rs) s (fun t =>
        t.get (F.coilChRes_fres ch) = f ∧ t.get (F.coilChRes_q ch) = q ∧ t.get (F.coilChAct_rs ch) = rs ∧ t.get (evField ch 1) = 1 ∧
        coilRunOf t ch = none ∧ (s.on (F.coilChCtrl_follow ch) = true → coilFact t ch = min 160000 f) ∧
        (x.t.kind = 3 → coilChDown t ch = false ∧
          (coilChDown s ch = true → t.get (F.coilChStat_fault ch) = 0 ∧ t.get (F.coilChStat_retries ch) = 0 ∧ t.get (evField ch 3) = 1)))) ∧
      Runs (.coilSweepDone ch none q rs) s (fun t => fault 3 t ∧ t.get (F.coilChRes_fres ch) = 0 ∧ t.get (F.coilChRes_q ch) = q) ∧
      (coilFnom s ch + 30000 < f → Runs (.coilSweepDone ch (some f) q rs) s (fun t => fault 3 t ∧ t.get (F.coilChRes_fres ch) = f))) ∧
    (ch < 48 → coilRunOf s ch = some x → x.t.op = 5 → Runs (.coilMapRowDone ch cur volts) s (fun t => coilRunOf t ch = none ∧
      (∀ j, j < 48 → j ≠ ch → mapAt t ch j = (if coilEn s j then mapCode s ch j cur ((volts.lookup j).getD 0) else 255) ∧
        mapAt t j ch = mapAt t ch j) ∧
      (∀ i j, i < 48 → j < 48 → i ≠ ch → j ≠ ch → mapAt t i j = mapAt s i j) ∧
      (∀ j, j < 48 → j ≠ ch → x.t.kind = 2 → coilConflict t ch j ≠ coilConflict s ch j →
        t.get (evField ch 2) = 1 ∧ t.get (evField j 2) = 1 ∧ t.coil.mapDirty = true))) ∧
    (g < 6 → s.on (F.coilGrpStat_down g) = false → (low || high || hot) = true → Runs (.coilGroupDown g uv ov hot vdrv) s (fun t =>
      t.on (F.coilGrpStat_down g) = true ∧ t.get (F.coilGrpStat_vdrv g) = min 255 vdrv ∧ t.on (F.coilGrpStat_uv g) = low ∧
      t.on (F.coilGrpStat_ov g) = high ∧ t.on (F.coilGrpStat_hot g) = hot ∧
      ∀ k, k < 8 → coilRunOf t (8 * g + k) = none ∧ bitOf (t.get (F.swPSdown_sub g)) k = true ∧
        t.get (F.coilChStat_fault (8 * g + k)) = s.get (F.coilChStat_fault (8 * g + k)))) ∧
    ((low || high || hot) = false → Runs (.coilGroupDown g uv ov hot vdrv) s (fun t => t = s)) ∧
    (ours → ¬ inRange → Runs (.coilGroupUp g vdrv) s (fun t => t = s)) ∧
    (g < 6 → s.on (F.coilGrpStat_down g) = true → (ours → inRange) → Runs (.coilGroupUp g vdrv) s (fun t =>
      t.on (F.coilGrpStat_down g) = false ∧ t.on (F.coilGrpStat_uv g) = false ∧ t.on (F.coilGrpStat_ov g) = false ∧
      t.on (F.coilGrpStat_hot g) = false ∧ t.get (evField (48 + g) 3) = 1 ∧
      ∀ k, k < 8 → bitOf (t.get (F.swPSdown_sub g)) k = (coilChDown s (8 * g + k) && bitOf (s.get (F.swPSdown_sub g)) k)))

/-- TPOR_ELAPSED sends WAKE on a channel of CLD_WAKEMASK and otherwise draws RA and sends CENSUS; a slot with a reply
whose CRC holds gives its tag handle 16 x (round - 1) + slot and MARK_ACK, a collided slot counts in COLL and gives
MARK, an empty one gives MARK, and a reply whose lookup has to wait is kept; each mark opens the next slot, and the
sixteenth closes the round: another round while one is left after a collision, else the end, CENSUS_UNRESOLVED after a
collision and OK where no tag was found. (R154, R156, R164, R165, R166, R183) -/
def Obligations.CloadeCensus : Prop :=
  ∀ (s u : State) (ch : Nat) (t : CldTxn) (ra q r : List Byte) (bad : Option (List Byte)),
    cldGet s ch = some t → t.result = none → t.stall = 0 →
    let now := fun (x : CldTxn) (v : State) => v = { s with cld := v.cld } ∧ cldGet v ch = some x
    (t.sending = 0 → t.phase = 1 → cldWakes s ch = true → t.woke = false →
      Runs (.cldTporElapsed ch) s (now { t with phase := 2, woke := true, sending := 1, air := [3#8] })) ∧
    (t.sending = 0 → (t.phase = 1 ∧ cldWakes s ch = false) ∨ t.phase = 2 → rngDraw s 2 4 = .bits ra u →
      Runs (.cldTporElapsed ch) s (fun v => cldGet v ch =
        some { t with
          phase := 3, round := t.round + 1, ra, slot := 0, coll := false, hdr := false, sending := 2, lastOp := 0x10, lastHnd := 0
          air := airFrame ([0x10#8, byte (s.get F.cldCfg_fastEn)] ++ ra) })) ∧
    (t.sending ∈ [1, 2] → Runs (.cldDownlinkSent ch) s (now { t with sending := 0 })) ∧
    (t.sending ∈ [3, 4] → t.slot ≠ 15 → Runs (.cldDownlinkSent ch) s (now { t with sending := 0, slot := t.slot + 1 })) ∧
    (t.sending ∈ [3, 4] → t.slot = 15 → t.coll = true → t.round < cldRounds s → rngDraw s 2 4 = .bits ra u →
      Runs (.cldDownlinkSent ch) s (fun v => ∃ x, cldGet v ch = some x ∧ x.phase = 3 ∧ x.round = t.round + 1 ∧ x.ra = ra ∧ x.sending = 2)) ∧
    (t.sending ∈ [3, 4] → t.slot = 15 → t.tags = [] → t.dropped = [] → (t.coll = true → cldRounds s ≤ t.round) →
      Runs (.cldDownlinkSent ch) s (fun v => ∃ x, cldGet v ch = some x ∧
        x.result = some (if t.coll then St.censusUnresolved else St.ok))) ∧
    (t.sending = 0 → t.phase = 3 → t.cmd = none →
      Runs (.cldUplinkHeader ch) s (now { t with hdr := true }) ∧
      (t.hdr = false → Runs (.cldTnorespExpiry ch) s (now { t with sending := 3 })) ∧
      (airBody q = some r → r.length = (if cldShort r then 16 else 8) → lookWaits s (r.take 8) = true →
        Runs (.cldSlotReply ch (some q)) s (now { t with stall := 7, resp := r })) ∧
      (airBody q = some r → r.length = (if cldShort r then 16 else 8) → lookWaits s (r.take 8) = false → Runs (.cldSlotReply ch (some q)) s (fun v => ∃ x, cldGet v ch = some x ∧
        x.sending = 4 ∧ x.round = t.round ∧ x.slot = t.slot ∧ x.coll = t.coll ∧ x.seen.contains (r.take 8) = true ∧
        ∃ g ∈ x.tags, g.uid = r.take 8 ∧ g.handle = 16 * (t.round - 1) + t.slot ∧ g.ra = t.ra ∧ g.rb = slice r 8 4 ∧
          g.tb = slice r 12 4 ∧ g.secured = false)) ∧
      ((∀ b, bad.bind airBody = some b → b.length ≠ (if cldShort b then 16 else 8)) → Runs (.cldSlotReply ch bad) s (fun v =>
        cldGet v ch = some { t with coll := true, hdr := false, sending := 3 } ∧
        v.get F.cldCnt0_coll = min (2 ^ 16 - 1) (s.get F.cldCnt0_coll + 1) ∧ v.get F.cldCnt0_crcerr = s.get F.cldCnt0_crcerr)))

/-- With its masks drawn, and for AUTH_A two internal handles free, an AUTH_A response whose TB verifies is answered by
AUTH_B with the TA of R168, SK under an internal handle; one whose TB does not ends the handshake in AUTH_FAIL without a
TA; OK to AUTH_B makes the tag authenticated; an OK response under a good MAC ends its access and increments CNT; a
missing or failing response repeats the identical frame while repeats are left, and a write left without one counts as
TEAR; a collided response drops its handle; CLR_CNT zeroes both counters. (R167, R168, R169, R174, R175, R181, R185,
R186, R191) -/
def Obligations.CloadeHandshakeAndAccess : Prop :=
  ∀ (s u : State) (ch h : Nat) (t : CldTxn) (c : CldCmd) (g : CldTag) (a : CldAcc) (k resp q m : List Byte) (bad : Option (List Byte)),
    cldGet s ch = some t → t.sending = 0 → t.stall = 0 → t.cmd = some c → tagGet t c.handle = some g →
    let op := leAt c.frame 0 1
    let kc := ((dirSeek s g.uid).map fun i => leAt (dirEntry s i) 9 1).getD 0
    let rb := slice resp 1 8
    let failed := ∀ b, bad.bind airBody = some b → b.length ≠ (if leAt b 0 1 = 0 then cldRespLen op else 1)
    (airBody q = some resp → op = 0x30 → resp.length = 17 → leAt resp 0 1 = 0 → cldKey s g.uid kc = some k → cldRoom s = some h →
      (hsTb k g.uid t.ra8 rb = slice resp 9 8 → maskDraws 4 s = .bits m u → Runs (.cldTagResponse ch (some q) false) s (fun v =>
        v = { u with cld := v.cld, cph := v.cph } ∧ cphKey v h = some ⟨2, hsSk k g.uid t.ra8 rb, cldOwner⟩ ∧
        ∃ x, cldGet v ch = some x ∧ x.phase = 4 ∧ x.sending = 5 ∧ x.lastOp = 0x31 ∧
          (x.cmd.map fun d => d.frame) = some ([0x31#8, byte c.handle] ++ hsTa k g.uid t.ra8 rb) ∧
          ∃ g' ∈ x.tags, g'.handle = c.handle ∧ g'.kh = some h ∧ g'.cnt = 0)) ∧
      (hsTb k g.uid t.ra8 rb ≠ slice resp 9 8 → c.acc = none → g.out = none → maskDraws 2 s = .bits m u →
        Runs (.cldTagResponse ch (some q) false) s (fun v =>
        ∃ x, cldGet v ch = some x ∧ ∃ g' ∈ x.tags, g'.uid = g.uid ∧ g'.done = true ∧ g'.secured = false ∧
          g'.out = some St.authFail))) ∧
    (airBody q = some [0#8] → op = 0x31 → Runs (.cldTagResponse ch (some q) false) s (fun v =>
      ∃ x, cldGet v ch = some x ∧ x.authed.contains g.uid = true)) ∧
    (airBody q = some resp → op ∈ [0x20, 0x21, 0x22, 0x40] → resp.length = cldRespLen op → leAt resp 0 1 = 0 →
      cldMac (cldSk s g) g.cnt (resp.take (resp.length - 4)) = resp.drop (resp.length - 4) → maskDraw s = .bits m u → s.cld.held = [] → a ∈ s.cld.accs → c.acc = some a.id →
      (∀ x ∈ t.tags, x.handle = c.handle → x.done = true) → Runs (.cldTagResponse ch (some q) false) s (fun v => (∀ b ∈ v.cld.accs, b.id ≠ a.id) ∧
        ∃ x, cldGet v ch = some x ∧ ∃ g' ∈ x.tags, g'.uid = g.uid ∧ g'.cnt = (g.cnt + 1) % 65536)) ∧
    (0 < c.left → t.hdr = false → Runs (.cldTnorespExpiry ch) s (fun v => v = { s with cld := v.cld } ∧ ∃ x, cldGet v ch = some x ∧
      x.sending = 5 ∧ x.cmd = some { c with left := c.left - 1 })) ∧
    (0 < c.left → failed →
      Runs (.cldTagResponse ch bad false) s (fun v => v.get F.cldCnt0_crcerr = min (2 ^ 16 - 1) (s.get F.cldCnt0_crcerr + 1) ∧
        ∃ x, cldGet v ch = some x ∧ x.sending = 5 ∧ x.cmd = some { c with left := c.left - 1, bad := true })) ∧
    (c.left = 0 → t.hdr = false → cldIsWrite c = true → s.cld.held = [] → a ∈ s.cld.accs → c.acc = some a.id → Runs (.cldTnorespExpiry ch) s (fun v =>
      v.get F.cldCnt1_tear = min (2 ^ 16 - 1) (s.get F.cldCnt1_tear + 1) ∧ ∀ b ∈ v.cld.accs, b.id ≠ a.id)) ∧
    (failed → Runs (.cldTagResponse ch bad true) s (fun v => ∃ x, cldGet v ch = some x ∧ x.cmd = none ∧ x.sending = 6 ∧
      x.lastOp = 0x11 ∧ x.air = airFrame [0x11#8, byte c.handle] ∧ x.dropped.contains (c.handle, g.uid) = true ∧ ∀ g' ∈ x.tags, g'.handle ≠ c.handle)) ∧
    Runs .cldClrCnt s (fun v => v.getW W.cldCnt0 = 0#32 ∧ v.getW W.cldCnt1 = 0#32 ∧ v = { s with regs := v.regs })

/-- A tag-access request at a stopped engine waits, and so does one whose lookup or whose pin has to wait; one with a
reserved value completes BAD_DESCRIPTOR; with CH 0xFF and no channel of a usable entry it completes TAG_NO_RESPONSE;
otherwise it is queued, and without WAIT and with no task of the channel that has the tag queued an AUTH job of its
class for the channel and the tag's group is sent to the intake; TAG_ACCESS_TIMEOUT completes an access whose tag is not
secured with TIMEOUT. (R187, R188, R189, R190) -/
def Obligations.CloadeTagAccess : Prop :=
  ∀ (s : State) (req : Req) (d : List Byte) (a : CldAcc),
    let uid := d.take 8
    let seek := dirSeek s uid
    let ch := if leAt d 10 1 = 0xFF then ((dirUsable s uid).map fun e => leAt e 14 1).getD 0xFF else leAt d 10 1
    let grp := (seek.map fun i => leAt (dirEntry s i) 11 1).getD 0xFF
    let queued := fun (v : State) => v.cld.accs = s.cld.accs ++ [⟨s.cld.nextId, req, d, ch, seek⟩]
    let others := cldQueued s ch grp
    let pins := seek.all fun i => (dirPin s i).1
    let taken := noNewWork s 18 = false ∧ cldAccOkForm d = true
    (noNewWork s 18 = true ∨ taken ∧ (lookWaits s uid = true ∨ ch ≠ 0xFF ∧ pins = false) → Runs (.cldTagAccess req d) s (fun v =>
      v = { s with cld := { s.cld with held := s.cld.held ++ [(req, d)] } })) ∧
    (noNewWork s 18 = false → cldAccOkForm d = false → Runs (.cldTagAccess req d) s (fun v =>
      v = complete s 0 0xFE req 0x02 ([byte St.badDescriptor, 0#8, 0#8, 0#8] ++ zeros 16))) ∧
    (taken → lookWaits s uid = false → ch = 0xFF → Runs (.cldTagAccess req d) s (fun v =>
      v = complete s 0 0xFE req 0x02 ([byte St.tagNoResponse, 0#8, 0#8, 0#8] ++ zeros 16))) ∧
    (taken → lookWaits s uid = false → ch ≠ 0xFF → pins = true →
      ((leAt d 11 1).testBit 0 = true ∨ others = true → Runs (.cldTagAccess req d) s (fun v => queued v ∧
        v = { s with cld := v.cld, dir := v.dir })) ∧
      ((leAt d 11 1).testBit 0 = false → others = false → Runs (.cldTagAccess req d) s (fun v => ∃ u, queued u ∧
        u = { s with cld := u.cld, dir := u.dir } ∧
        v = sendFrame u 0 0xFE (mkFrame 0x01 req.cls 0 0xFF (thisDev s) 0
          ([2#8, 0#8] ++ leBytes 6 (setBit 0 ch) ++ [byte grp] ++ zeros 7))))) ∧
    (s.cld.held = [] → a ∈ s.cld.accs → (∀ b ∈ s.cld.accs, b.id = a.id → b = a) →
      (∀ t, cldGet s a.ch = some t → ∀ g ∈ t.tags, g.uid = a.data.take 8 → g.secured = false) →
      let u := { s with cld := { s.cld with accs := s.cld.accs.filter fun x => x.id != a.id } }
      Runs (.cldTagAccessTimeout a.id) s (fun v =>
        v = complete (a.pin.elim u (dirUnpin u)) 0 0xFE a.req 0x02 ([byte St.timeout, 0#8, 0#8, 0#8] ++ zeros 16)))

/-- FIELD_ON and FIELD_OFF take the tag to READY and POWER_OFF; a census draws a slot, marks count the slots and
MARK_ACK after its own reply gives it its handle; DROP returns it to READY; a repeated frame is answered from the copy;
AUTH_A answers RB and TB of R168, the right TA secures the tag and a wrong one halts it; a frame whose CRC fails is not
heard; public pages are read in the open and every data page in a session under its MAC; a secured write to a mailbox
page is handed to the NV store and other writes answer ACCESS; KEY_LOAD and FIELD_REPORT answer PARAM, WAKE does
nothing. (R160, R161, R164, R168, R170, R174, R193, R195, R199, R206, R213, 05_cloade_protocol.md Table 5.4) -/
def Obligations.PassportFieldSide : Prop :=
  ∀ (s : State) (q f ra rb k : List Byte) (n : Nat) (vwr above : Bool),
    let frame := fun (op len : Nat) => airBody q = some f ∧ f.length = len ∧ leAt f 0 1 = op
    let hears := fun (op len : Nat) => frame op len ∧ ptAnswers s = true ∧ 2 ≤ s.pt.st ∧ leAt f 1 1 = s.pt.handle ∧ s.pt.waitRead = none ∧
      s.pt.run = none ∧ s.pt.queue = []
    let flags := leAt f 1 1
    let p := leAt f 2 1
    let tells := fun (a : List Byte) (t : State) => t.pt.air = airFrame a ∧ t.pt.lastF = f ∧ t.pt.lastR = airFrame a ∧ t.nv = s.nv
    (s.pt.field = false → Runs .ptFieldOn s (fun t => t.pt.field = true ∧ t.pt.st = 1 ∧ t.pt.rejects = 0 ∧ t.pt.slot = none ∧
      (ptPowered s = true → t.get (evField 120 0) = 1))) ∧
    (s.pt.field = true → Runs .ptFieldOff s (fun t => t.pt.field = false ∧ t.pt.st = 0 ∧ t.pt.hv = false ∧ t.pt.sk = [] ∧
      (ptPowered s = true → t.get (evField 120 0) = 1) ∧ (ptPowered s = false → t.nv.cur = none))) ∧
    Runs (.ptHvThreshold above) s (fun t => t.pt.hv = (above && s.pt.field) ∧ t = { s with pt := t.pt }) ∧
    Runs .ptWake s (fun t => t = s) ∧
    (ptAnswers s = true → s.pt.st = 1 →
      (frame 0x10 6 → natBits flags 7 4 ∈ [0, 4] → Runs (.ptFieldCensus q) s (fun t => ∃ j, j < 16 ∧ t.pt.slot = some j ∧ t.pt.round = s.pt.round + 1 ∧
        t.pt.cur = 0 ∧ t.pt.fast = flags.testBit 0 ∧ t.pt.air = (if j = 0 then airFrame (ptUid s) else []) ∧ t = { s with pt := t.pt, free := t.free })) ∧
      (s.pt.slot = some n → s.pt.cur < 15 → Runs .ptMark s (fun t => t.pt.cur = s.pt.cur + 1 ∧ t.pt.st = 1 ∧
        t.pt.air = (if n = s.pt.cur + 1 then airFrame (ptUid s) else []) ∧ t = { s with pt := t.pt })) ∧
      (s.pt.replied = true → Runs .ptMarkAck s (fun t => t.pt.st = 2 ∧ t.pt.handle = (16 * (s.pt.round - 1) + s.pt.cur) % 256 ∧
        t = { s with pt := t.pt }))) ∧
    (airBody q = none → ∀ c ∈ [Instr.ptFieldCensus q, .ptFieldDrop q, .ptFieldRead q, .ptFieldWrite q vwr, .ptFieldKeyLoad q, .ptFieldAuthA q,
      .ptFieldAuthB q, .ptFieldReportCmd q], Runs c s (fun t => t = s)) ∧
    (hears 0x11 2 → Runs (.ptFieldDrop q) s (fun t => t.pt.st = 1 ∧ t.pt.air = [] ∧ t = { s with pt := t.pt })) ∧
    (f ≠ s.pt.lastF →
      (s.pt.st = 2 ∨ s.pt.st = 3 → s.pt.rejects < 3 → s.pt.kp = some k →
        (hears 0x30 10 → Runs (.ptFieldAuthA q) s (fun t => ∃ b, b.length = 8 ∧ t.pt.chal = some (slice f 2 8, b) ∧ t.pt.st = 3 ∧
          tells (0#8 :: b ++ (aesEnc k (slice f 2 8 ++ b)).take 8) t)) ∧
        (hears 0x31 10 → s.pt.chal = some (ra, rb) →
          ((aesEnc k (rb ++ ra)).take 8 = slice f 2 8 → Runs (.ptFieldAuthB q) s (fun t => t.pt.st = 4 ∧ t.pt.cnt = 0 ∧
            t.pt.sk = aesEnc k (slice (aesEnc k (ra ++ rb)) 8 8 ++ slice (aesEnc k (rb ++ ra)) 8 8) ∧ tells [0#8] t)) ∧
          ((aesEnc k (rb ++ ra)).take 8 ≠ slice f 2 8 → Runs (.ptFieldAuthB q) s (fun t => t.pt.st = 2 ∧
            t.pt.rejects = s.pt.rejects + 1 ∧ tells [1#8] t)))) ∧
      (hears 0x20 3 → s.pt.st = 2 ∨ s.pt.st = 3 → p < 16 → p ≠ 1 → Runs (.ptFieldRead q) s (fun t => tells (0#8 :: ptPage s p) t ∧ t.pt.st = 3 ∧
        t.get F.ptCnt_fieldtx = min (2 ^ 16 - 1) (s.get F.ptCnt_fieldtx + 1))) ∧
      (hears 0x20 7 → s.pt.st = 4 → s.pt.cnt ≠ 0xFFFF → ptMac s (f.take 3) = f.drop 3 → p ≤ 127 → p ≠ 1 → Runs (.ptFieldRead q) s (fun t =>
        tells (0#8 :: ptPage s p ++ ptMac s (0#8 :: ptPage s p)) t ∧ t.pt.cnt = s.pt.cnt + 1)) ∧
      (hears 0x21 23 → (s.pt.st ≠ 4 ∨ (s.pt.cnt ≠ 0xFFFF ∧ ptMac s (f.take 19) = f.drop 19 ∧ 2 ≤ p ∧ p < 96)) →
        Runs (.ptFieldWrite q vwr) s (tells [2#8])) ∧
      (hears 0x21 23 → s.pt.st = 4 → s.pt.cnt ≠ 0xFFFF → ptMac s (f.take 19) = f.drop 19 → 96 ≤ p → p ≤ 127 → vwr = true ∨ ptPowered s = true →
        ptBp s ≠ 3 → NvTakes s true (.raw (ptSlotAddr p (!ptSlot s p)) (slice f 3 16)) → Runs (.ptFieldWrite q vwr) s (fun t =>
          (t.pt.run.map fun x => (x.who, x.page)) = some (2, p) ∧
          t = withCust { s with pt := t.pt } [nvJob (.raw (ptSlotAddr p (!ptSlot s p)) (slice f 3 16)) true true 15 (.pt s.pt.nextId)])) ∧
      (s.pt.st ≠ 4 ∨ s.pt.cnt ≠ 0xFFFF → (hears 0x22 22 → Runs (.ptFieldKeyLoad q) s (tells [3#8])) ∧
        (hears 0x40 6 → Runs (.ptFieldReportCmd q) s (tells [3#8])))) ∧
    (hears 0x20 7 → s.pt.st = 4 → f = s.pt.lastF → Runs (.ptFieldRead q) s (fun t => t = { s with pt := { s.pt with air := s.pt.lastR } }))

/-- With the tag idle (a field transaction answers NV_BUSY_FIELD where HOSTWAIT is 0), PT_CMD READ of a readable page
puts its 16 bytes into PT_RDATA and completes OK; WRITE hands the page's other slot with PT_WDATA, SAVE_CFG the header
with PT_CFG, to the NV store; page 1 or above 127 completes BAD_DESCRIPTOR, a page of the device NV_PROTECTED; a command
over one that runs sets OVERRUN, one at a stopped block waits; PT_KEY_LOAD derives KP from the installed domain key and
the epoch of the change, or clears it. (R198, R201, R212, R221, R222, R224, R225, 06_passport_tag.md Table 6.2) -/
def Obligations.PassportWiredSide : Prop :=
  ∀ (s : State) (src : Src) (p epoch : Nat),
    let ended := fun (st : Nat) (t : State) => t.on F.ptResult_valid = true ∧ t.get F.ptResult_status = st ∧ t.pt.cmd = false ∧
      t.get F.ptResult_seq = (s.get F.ptResult_seq + 1) % 2 ^ 16
    let addr := ptSlotAddr p (!ptSlot s p)
    let wdata := wordsBytes s ((List.range 4).map W.ptWdata)
    (s.pt.cmd = true → ∀ c ∈ [Instr.ptCmdRead src p, .ptCmdWrite src p, .ptSaveCfg src], Runs c s (fun t => t = s.set F.ptStat_overrun 1)) ∧
    (s.pt.cmd = false → noNewWork s 30 = true → ∀ c ∈ [Instr.ptCmdRead src p, .ptCmdWrite src p, .ptSaveCfg src],
      Runs c s (fun t => t.pt.cmd = true ∧ t.pt.held.isSome = true ∧ t.pt.run = s.pt.run ∧ t.nv = s.nv)) ∧
    (s.pt.cmd = false → noNewWork s 30 = false → ptHold s = true → s.on F.ptCfg_hostwait = false → s.get F.nvProt_bp ≠ 3 →
      (4 ≤ p ∧ p < 16) ∨ (46 ≤ p ∧ p ≤ 127) → ∀ c ∈ [Instr.ptCmdRead src p, .ptCmdWrite src p], Runs c s (fun t =>
        ended St.nvBusyField t ∧ t.get F.ptCnt_busy = min (2 ^ 16 - 1) (s.get F.ptCnt_busy + 1) ∧ t.nv = s.nv)) ∧
    (s.pt.cmd = false → noNewWork s 30 = false → s.pt.run = none → s.pt.queue = [] → s.pt.waitRead = none →
      (p ≤ 127 → p ≠ 1 → Runs (.ptCmdRead src p) s (fun t => ended St.ok t ∧
        wordsBytes t ((List.range 4).map W.ptRdata) = ptPage s p ∧ t.nv = s.nv)) ∧
      (p = 1 ∨ 127 < p → ∀ c ∈ [Instr.ptCmdRead src p, .ptCmdWrite src p], Runs c s (ended St.badDescriptor)) ∧
      (p = 0 ∨ p = 2 ∨ p = 3 ∨ (16 ≤ p ∧ p < 46) → Runs (.ptCmdWrite src p) s (ended St.nvProtected)) ∧
      ((4 ≤ p ∧ p < 16) ∨ (46 ≤ p ∧ p ≤ 127) → s.get F.nvProt_bp ≠ 3 → NvTakes s false (.raw addr wdata) →
        Runs (.ptCmdWrite src p) s (fun t => t.pt.cmd = true ∧ t.on F.ptResult_valid = false ∧
          t.nv.cust = s.nv.cust ++ [nvJob (.raw addr wdata) true false (srcPort src) (.pt s.pt.nextId)])) ∧
      (ptRegs s = true → s.get F.nvProt_bp ≠ 3 → (∀ d, d.length = 48 → NvTakes s false (.raw 0x5E000 d)) → Runs (.ptSaveCfg src) s (fun t => t.pt.cmd = true ∧
        ∃ d, d.length = 48 ∧ (leAt d 0 4).testBit 0 = s.on F.ptCfg_fieldEn ∧ (leAt d 0 4).testBit 2 = s.on F.ptCfg_hvEn ∧
          (leAt d 0 4).testBit 3 = s.on F.ptCfg_hvLevel ∧ leAt d 4 4 = s.get F.ptMbox_fwritten ∧
          t.nv.cust = s.nv.cust ++ [nvJob (.raw 0x5E000 d) true false (srcPort src) (.pt s.pt.nextId)]))) ∧
    (s.pt.kpDue = some epoch → Runs .ptKeyLoad s (fun t => t = { s with pt := t.pt } ∧ t.pt.kpDue = none ∧
      t.pt.kp = s.cph.domain.map fun k => kdf k (kdfLabel "LSSR" "CLDP" (ptUid s ++ zeros 8) epoch) 128)) ∧
    (s.pt.kpDue = none → Runs .ptKeyLoad s (fun t => t = s))

/-- A malformed request completes BAD_DESCRIPTOR; while the radio is not free a good one joins the queue; at a free
radio with an empty queue a reception is tuned, and a transmission is refused with REG_LIMIT while barred or outside
every enabled entry, is tuned at its step or its entry's MAXSTEP, or, when its charge does not fit, is held with its
HOLD bit and completes DUTY_DEFERRED without; tuning goes through CAL unless the synthesiser stands locked on the
frequency. (R231, R233, R238, R240, R255, R257, R258, R261, R262) -/
def Obligations.RadioRequests : Prop :=
  ∀ (s : State) (req : Req) (payload : List Byte) (e : Nat),
    ∀ p ∈ [(1, Instr.rfRadioTx req payload), (2, .rfRadioRx req payload), (3, .rfRadioCw req payload)],
    let d := payload
    let freq := rqFreq d
    let charge := txCharge s p.1 (rqProf d) (leAt d 3 1) (rqTime d)
    let skips := s.rf.lastFreq = some freq ∧ s.on F.rfStat_locked = true
    let tuned := fun (step : Nat) (t : State) => (t.rf.run.map fun r => (r.item.kind, r.item.data, r.item.reqs, r.step, r.drive)) =
        some (p.1, d, [req], step, if p.1 = 2 then 0 else rfDrive s freq step) ∧
      t.get F.rfFreq_freq = freq ∧ t.rf.queue = [] ∧ t.rf.ant = rfAnt s freq ∧
      t.get F.rfStat_state = (if skips then (if p.1 = 2 then 2 else 4) else 1)
    let fails := fun (st : Nat) (t : State) => ∃ u, u.sw = s.sw ∧ t = complete u 6 0 req 0x03 ([byte st, 0#8, byte (rqStep d)] ++ zeros 13)
    let admits := rfEntry s 1 freq (rfHalf s p.1 (rqProf d))
    (rfReqOk s p.1 req d = false → Runs p.2 s (fun t => t = complete s 6 0 req 0x03 ([byte St.badDescriptor, 0#8, byte (rqStep d)] ++ zeros 13))) ∧
    (rfReqOk s p.1 req d = true → rfFree s = false → Runs p.2 s (fun t => t = { s with rf := t.rf } ∧
      ∃ it, t.rf.queue = s.rf.queue ++ [it] ∧ it.cls = req.cls ∧ it.kind = p.1 ∧ it.data = d ∧ it.reqs = [req])) ∧
    (rfReqOk s p.1 req d = true → rfFree s = true → s.rf.queue = [] → s.on F.rfCtrl_en = true →
      (p.1 = 2 → Runs p.2 s (tuned (rqStep d))) ∧
      (p.1 ≠ 2 → txBarred s = true → Runs p.2 s (fails St.regLimit)) ∧
      (p.1 ≠ 2 → txBarred s = false → admits = none → Runs p.2 s (fun t => fails St.regLimit t ∧ t.get (evField 87 0) = 1)) ∧
      (p.1 ≠ 2 → txBarred s = false → admits = some e →
        (dutyFits s e charge = true → Runs p.2 s (fun t => tuned (min (rqStep d) (entMax s e)) t ∧
          (entMax s e < rqStep d → t.get (evField 88 0) = 1 ∧ t.get F.rfCnt0_clip = min (2 ^ 16 - 1) (s.get F.rfCnt0_clip + 1)) ∧
          (rqStep d ≤ entMax s e → t.get F.rfCnt0_clip = s.get F.rfCnt0_clip))) ∧
        (dutyFits s e charge = false → (leAt d 2 1).testBit 5 = true → s.rf.held.length < 8 → Runs p.2 s (fun t =>
          (∃ it, t.rf.held = s.rf.held ++ [it] ∧ it.data = d ∧ it.deferred = true ∧ it.held = some s.now) ∧ t.rf.run = none ∧ t.sw = s.sw ∧
          t.get F.rfCnt1_defer = min (2 ^ 16 - 1) (s.get F.rfCnt1_defer + 1))) ∧
        (dutyFits s e charge = false → (leAt d 2 1).testBit 5 = false → rqStep d ≤ entMax s e → Runs p.2 s (fun t =>
          fails St.dutyDeferred t ∧ t.get (evField 89 0) = 1))))

/-- Each state of the radio is left as R248 says: CAL by its lock or, after 100 us, with TX_NOLOCK; RXSETTLE to RX with
the offset cache used; RX by a good packet with OK, by a bad one counted in CRCERR, or by the window with TIMEOUT;
TXRAMP to TX with the packet of R234 on the air, TX to TXRAMPDOWN, and there the request ends with its status; a loss of
lock ends a reception and ramps a transmission down with TX_NOLOCK. A request that ends leaves the radio idle when
nothing is queued, and its completion names its status. (R232, R234, R235, R238, R239, R242, R243, R246, R248,
07_uhf_radio.md Table 7.5) -/
def Obligations.RadioRuns : Prop :=
  ∀ (s : State) (r : RfRun) (req : Req) (vco us rssi ferr : Nat) (temp : Int) (pkt crc data : List Byte),
    s.rf.run = some r → s.rf.queue = [] → r.item.reqs = [req] →
    let st := s.get F.rfStat_state
    let freq := rqFreq r.item.data
    let ends := fun (status : Nat) (body : List Byte) (t : State) => t.rf.run = none ∧ t.get F.rfStat_state = 0 ∧ t.rf.lastFreq = some freq ∧
      t.ev.sysHeld = 0 ∧ ∃ u p, u.sw = s.sw ∧ p.length = 16 ∧ p.head? = some (byte status) ∧ t.sw = (complete u 6 0 req 0x03 (p ++ body)).sw
    let nolock := fun (t : State) => t.get F.rfCnt0_nolock = min (2 ^ 16 - 1) (s.get F.rfCnt0_nolock + 1) ∧ t.get (evField 86 0) = 1 ∧
      t.on F.rfStat_locked = false
    (st = 1 →
      (vco < 64 → us < 256 → Runs (.rfCalLocked vco us) s (fun t => t.get F.rfStat_state = (if r.item.kind = 2 then 2 else 4) ∧
        t.on F.rfStat_locked = true ∧ t.get F.rfCal_vco = vco ∧ t.get F.rfCal_calUs = us ∧ t.rf.run = some r)) ∧
      (us < 100 → Runs (.rfCalAttemptTimeout us) s (fun t => t.get F.rfCal_attempts = min 15 (s.get F.rfCal_attempts + 1) ∧
        t = { s with regs := t.regs })) ∧
      (100 ≤ us → Runs (.rfCalAttemptTimeout us) s (fun t => ends St.txNolock [] t ∧ nolock t))) ∧
    (st = 2 → Runs (.rfRxSettled temp) s (fun t => t.get F.rfStat_state = 3 ∧ (t.rf.cache.head?.map fun c => c.1) = some freq ∧
      (dcHit s freq temp = true → t.get F.rfDcstat_hits = min (2 ^ 16 - 1) (s.get F.rfDcstat_hits + 1)) ∧
      (dcHit s freq temp = false → t.rf.cache.head? = some (freq, temp) ∧
        t.get F.rfDcstat_misses = min (2 ^ 16 - 1) (s.get F.rfDcstat_misses + 1)))) ∧
    (st = 3 →
      Runs (.rfSyncDetected rssi ferr) s (fun t => t.rf.run = some { r with sync := some (rssi, ferr), ts := rfTstamp s }) ∧
      (r.sync = some (rssi, ferr) →
        (rfPayload (pkt ++ crc) = some data → rssi < 256 → Runs (.rfRxPacket pkt crc) s (fun t => ends St.ok data t ∧ t.get F.rfRssi_pkt = rssi)) ∧
        (rfPayload (pkt ++ crc) = none → r.expired = false → Runs (.rfRxPacket pkt crc) s (fun t => t.rf.run = some { r with sync := none } ∧
          t.get F.rfCnt1_crcerr = min (2 ^ 16 - 1) (s.get F.rfCnt1_crcerr + 1))) ∧
        (rfPayload (pkt ++ crc) = none → r.expired = true → Runs (.rfRxPacket pkt crc) s (ends St.timeout [])) ∧
        Runs .rfRxWindowExpiry s (fun t => t = { s with rf := { s.rf with run := some { r with expired := true } } })) ∧
      (r.sync = none → Runs .rfRxWindowExpiry s (ends St.timeout []))) ∧
    (st = 4 → Runs .rfTxrampDone s (fun t => t.get F.rfStat_state = 5 ∧ t.rf.run = some { r with ts := rfTstamp s } ∧
      t.rf.air = if r.item.kind = 1 then rfPacket s (rqProf r.item.data) (r.item.data.drop 16) else [])) ∧
    (st = 5 → Runs .rfTxDone s (fun t => t = s.set F.rfStat_state 6)) ∧
    (st = 6 → Runs .rfTxrampdownDone s (ends r.status [])) ∧
    (st = 2 ∨ st = 3 → Runs .rfLockLoss s (fun t => ends St.txNolock [] t ∧ nolock t)) ∧
    (st = 4 ∨ st = 5 → Runs .rfLockLoss s (fun t => t.get F.rfStat_state = 6 ∧ t.rf.run = some { r with status := St.txNolock } ∧ nolock t))

/-- REG_SAVE of an unlocked block saves the image and puts it in force, of a locked one counts as refused; REG_LOCK does
nothing without its key, is refused unless the radio is stopped, unlocked and the image well formed, and otherwise saves
the image under its MAC; DUTY_LOW is raised where a saved block leaves too little time; each RTC minute every entry's
bins move on by one and the oldest of 60 drops out; a held request whose time passes completes DUTY_DEFERRED with the
step after clipping, DUTY raised and DEFER counted, or is marked while the radio is stopped. (R244, R252, R253, R254,
R260, R262, R266, R267, R269) -/
def Obligations.RadioRegulatoryAndDuty : Prop :=
  ∀ (s : State) (src : Src) (key : Nat) (it : RfItem) (req : Req),
    let image := memRead s.rf.image 0 512
    (s.sec.regLock = false → NvTakes s false (.record recRegBlock []) → Runs (.rfRegSave src) s (fun t =>
      t.rf.block = s.rf.image ∧ t.on F.rfStat_regValid = true ∧
      ((∃ e, e < 16 ∧ dutyLow s e = false ∧ dutyLow t e = true) → t.get (evField 90 0) = 1) ∧
      t.nv.ord = s.nv.ord ++ [nvJob (.record recRegBlock image) false false (srcPort src) .none])) ∧
    (s.sec.regLock = true → Runs (.rfRegSave src) s (fun t => t = { s with regs := t.regs } ∧
      t.get F.nvCnt_refused = min (2 ^ 16 - 1) (s.get F.nvCnt_refused + 1))) ∧
    (key ≠ 0xA5 → Runs (.rfRegLock src key) s (fun t => t = s)) ∧
    (s.sec.regLock = true ∨ isStopped s 20 = false ∨ regImageOk image = false → Runs (.rfRegLock src 0xA5) s (fun t =>
      t.rf = s.rf ∧ t.sec = s.sec ∧ t.get (evField 105 0) = 1)) ∧
    (s.sec.regLock = false → isStopped s 20 = true → regImageOk image = true → NvTakes s false (.record recRegBlock []) →
      Runs (.rfRegLock src 0xA5) s (fun t => t.sec = s.sec ∧ t.nv.ord = s.nv.ord ++
        [nvJob (.record recRegBlock (image.take 496 ++ cmac (rootKey s "RGLK" 0) (image.take 496))) false false (srcPort src) .regLock])) ∧
    (s.rf.held = [] → s.rf.queue = [] → Runs .rfRtcMinute s (fun t => t.get (evField 126 1) = 1 ∧
      t.rf.bins = s.rf.bins.map (fun b => (0 :: b).take 60))) ∧
    (it ∈ s.rf.held → (∀ y ∈ s.rf.held, y.id = it.id → y = it) → it.reqs = [req] →
      (noNewWork s 20 = true → Runs (.rfDutyHeldTimeout it.id) s (fun t => t = { s with rf := t.rf } ∧
        t.rf.held = s.rf.held.map fun y => if y.id = it.id then { y with dead := true } else y)) ∧
      (noNewWork s 20 = false → Runs (.rfDutyHeldTimeout it.id) s (fun t => ∃ u p, p.length = 16 ∧ p.head? = some (byte St.dutyDeferred) ∧
        (∀ e, rfEntry s 1 (rqFreq it.data) (rfHalf s it.kind (rqProf it.data)) = some e → leAt p 2 1 = min (rqStep it.data) (entMax s e)) ∧
        t = complete u 6 0 req 0x03 p ∧ u.get F.rfCnt1_defer = min (2 ^ 16 - 1) (s.get F.rfCnt1_defer + 1) ∧ u.get (evField 89 0) = 1 ∧
        u = { s with regs := u.regs, rf := { s.rf with held := s.rf.held.filter fun y => y.id != it.id } }))) ∧
    Runs .rfDcFlush s (fun t => t = { s with rf := { s.rf with cache := [] } }) ∧
    Runs .rfClrCnt s (fun t => t.getW W.rfCnt0 = 0#32 ∧ t.getW W.rfCnt1 = 0#32 ∧ t.getW W.rfDcstat = 0#32 ∧ t = { s with regs := t.regs })

/-- A request at a stopped unit waits, a malformed one is answered with a BAD_DESCRIPTOR record, and one for a known fob
without a sweep joins the queue; a take-up with radio or unit disabled is answered PORT_DOWN, and one that passes every
check takes the next SWEEP_ID, derives RK and holds a permutation of the hop list; each hop moves to the results, and
after the last the radio is tuned to FH for CONFIRM; a CONFIRM without lock or with a bad CRC is not received; the end
brings the verdict: without a reply INCONCLUSIVE, and FAIL with ALERT when a CONFIRM came with a wrong code; SAVE hands
the settings to the NV store. (R270, R273, R274, R276, R277, R281, R291, R292, R293, R298) -/
def Obligations.ProximitySweeps : Prop :=
  ∀ (s u v : State) (src : Src) (req : Req) (d k seed m conf frame : List Byte) (it : RfItem) (c : PrxSweep) (temp : Int) (locked : Bool) (lost : Nat)
    (freq : Nat) (high : Bool) (rest : List (Nat × Bool)) (ch : List (Nat × Nat)) (reply : Option (Nat × Nat × Nat)),
    let uid := d.take 8
    let rec0 := fun (st : Nat) (id : Nat) (dd : List Byte) =>
      let bounds := lfBounds s (freshReports s (slice dd 0 8))
      ({ status := st, cause := 1, sweepId := id, ts := rfTstamp s, uid := dd.take 8, flags := 2 * natBits (leAt dd 10 1) 1 1
         dlo := bounds.1, dhi := bounds.2.1 } : PrxRecord)
    (noNewWork s 22 = true → req.cls < 3 → Runs (.prxSweepRequest req d) s (fun t =>
      t = { s with prx := { s.prx with held := s.prx.held ++ [(req, d)] } })) ∧
    (noNewWork s 22 = false → prxFormOk req.cls d = false → Runs (.prxSweepRequest req d) s (fun t =>
      t = complete (lfBounds s (freshReports s (slice d 0 8))).2.2 6 1 req 0x04 (recordBytes (rec0 St.badDescriptor 0 d)))) ∧
    (noNewWork s 22 = false → prxFormOk req.cls d = true → lookWaits s (slice d 0 8) = true → Runs (.prxSweepRequest req d) s (fun t =>
      t = { s with prx := { s.prx with held := s.prx.held ++ [(req, d)] } })) ∧
    (noNewWork s 22 = false → prxFormOk req.cls d = true → lookWaits s (slice d 0 8) = false → (dirSeek s uid).isSome = true → leAt uid 0 1 = 1 →
      (leAt d 10 1).testBit 1 = false → s.prx.cur = none → s.prx.stalled = none → (∀ x ∈ s.rf.queue, x.kind ≠ 7) → rfFree s = false →
      Runs (.prxSweepRequest req d) s (fun t => ∃ x, t.rf.queue = s.rf.queue ++ [x] ∧ x.kind = 7 ∧ x.data = d ∧ x.reqs = [req] ∧
        x.cls = req.cls)) ∧
    (rfPick s = some it → rfFree s = true → it.kind = 7 → s.rf.queue = [it] →
      (s.on F.prxCtrl_en = false ∨ s.on F.rfCtrl_en = false → it.reqs = [req] → Runs (.prxSweepTakeUp temp) s (fun t =>
        t.prx.cur = none ∧ t.rf.queue = [] ∧ t.get (evField 92 0) = 1 ∧
        wordsBytes t ((List.range 10).map W.prxLast) = recordBytes (rec0 St.portDown 0 it.data))) ∧
      (let id := s.get F.prxSweepid_id + 1
       let h := sweepHops s it.data
       s.on F.prxCtrl_en = true → s.on F.rfCtrl_en = true → txBarred s = false → sweepCharges s h = some ch → id < 2 ^ 32 → h % 2 = 0 →
        cldKey s (it.data.take 8) (((dirSeek s (it.data.take 8)).map fun i => leAt (dirEntry s i) 9 1).getD 0) = some k →
        (∀ x ∈ ch, dutyFits s x.1 x.2 = true) → rngDraw s 3 4 = .bits seed u → maskDraws 4 u = .bits m v →
        Runs (.prxSweepTakeUp temp) s (fun t => t.get F.prxSweepid_id = id ∧ t.get F.rfStat_state = 7 ∧ t.get F.rfFreq_freq = s.get F.prxFh_fh ∧
          t.on F.rfStat_locked = true ∧ t.rf.ant = rfAnt s (s.get F.prxFh_fh) ∧
          ∃ c, t.prx.cur = some c ∧ c.item = it ∧ c.id = id ∧ c.rk = sweepKey k id seed ∧ c.done = [] ∧ c.temp = temp ∧ t.rf.air = rfPacket s (s.get F.prxCtrl_profile) c.start ∧
            (let msg := leBytes 4 id ++ seed ++ [byte (s.get F.prxPlan_planVer)]; c.start = msg ++ (cmac c.rk msg).take 4) ∧ c.hops.Perm (hopList s h)))) ∧
    (s.prx.cur = some c →
      (c.hops = (freq, high) :: rest → freq < 2 ^ 20 → lost ∈ [0, 3, 7] → Runs (.prxHop locked lost reply) s (fun t =>
        t.get F.rfFreq_freq = (if rest = [] then s.get F.prxFh_fh else freq) ∧ t.rf.ant = rfAnt s (t.get F.rfFreq_freq) ∧
        t.prx.cur = some { c with hops := rest, done := c.done ++ [⟨freq, high, locked, locked && lost != 0,
          if locked then some (sweepTx s (natBits (leAt c.item.data 9 1) 4 0) freq 1) else none, if locked ∧ lost ≠ 3 then reply else none⟩] } ∧
        t.on F.rfStat_locked = (rest.isEmpty || (locked && lost == 0)) ∧
        (locked = false → t.get F.prxCnt1_nolock = min (2 ^ 16 - 1) (s.get F.prxCnt1_nolock + 1)))) ∧
      (c.hops = [] → s.rf.queue = [] → (∀ x ∈ c.done, x.reply = none) → (leAt c.item.data 10 1).testBit 1 = false →
        let verdict := fun (n : Nat) (t : State) => t.prx.cur = none ∧ t.get F.rfStat_state = 0 ∧ t.get (evField 92 0) = 1 ∧
          leAt (wordsBytes t ((List.range 10).map W.prxLast)) 0 1 = n
        let good := leBytes 2 c.id ++ (cmac c.rk ((['C', 'O', 'N', 'F'].map fun x => byte x.toNat) ++ leBytes 4 c.id)).take 4
        Runs .prxConfirmTimeout s (fun t => verdict 2 t ∧ t.get F.prxCnt1_inconc = min (2 ^ 16 - 1) (s.get F.prxCnt1_inconc + 1)) ∧
        (s.on F.rfStat_locked = false → Runs (.prxConfirmReceived frame) s (fun t => t = s)) ∧
        (s.on F.rfStat_locked = true → rfPayload frame = none → Runs (.prxConfirmReceived frame) s (fun t => t = { s with regs := t.regs } ∧
          t.get F.rfCnt1_crcerr = min (2 ^ 16 - 1) (s.get F.rfCnt1_crcerr + 1))) ∧
        (s.on F.rfStat_locked = true → rfPayload frame = some conf → conf = good → Runs (.prxConfirmReceived frame) s (verdict 2)) ∧
        (s.on F.rfStat_locked = true → rfPayload frame = some conf → conf ≠ good → Runs (.prxConfirmReceived frame) s (fun t => verdict 1 t ∧ t.get (evField 93 0) = 1 ∧
          t.get F.prxCnt0_fail = min (2 ^ 16 - 1) (s.get F.prxCnt0_fail + 1))))) ∧
    (NvTakes s false (.record recProx []) → Runs (.prxSave src) s (fun t => ∃ b, b.length = 80 ∧
      t = withOrd s [nvJob (.record recProx b) false false (srcPort src) .none])) ∧
    Runs .prxClrCnt s (fun t => t.getW W.prxCnt0 = 0#32 ∧ t.getW W.prxCnt1 = 0#32 ∧ t = { s with regs := t.regs })

/-- At an engine with an empty queue and idle cores, a request of any of the 17 operations at another sub-port, of class
C3 or with another OP byte completes BAD_DESCRIPTOR (PORT_DOWN while disabled); a stopped engine holds it; one that
fails a check completes with that check's status; a core operation that passes and finds a core and its masks runs on
the lowest free core; LOAD_KEY, FREE_KEY, NONCE_ALLOC, NONCE_FREE and DOMAIN_CLEAR change handles, counters and the
domain key at once, one of class C2 while more than RESV_C0 cores are free and waiting otherwise. (R311, R315, R316,
R318, R322, R323, R324, R341, 09_cipher_engine.md Table 9.6) -/
def Obligations.CipherRequests : Prop :=
  ∀ (s u : State) (req : Req) (sub st i c h : Nat) (data mask fixed : List Byte),
    ∀ p ∈ [(1, Instr.cphGcm req sub data), (2, .cphCcm req sub data), (3, .cphCmac req sub data), (4, .cphCtr req sub data),
            (5, .cphEcb req sub data), (6, .cphEcbKey req sub data), (7, .cphDerive req sub data), (8, .cphLoadKey req sub data),
            (9, .cphFreeKey req sub data), (10, .cphWrap req sub data), (11, .cphUnwrap req sub data), (12, .cphNonceAlloc req sub data),
            (13, .cphNonceFree req sub data), (14, .cphSaveCtx req sub data), (15, .cphRestoreCtx req sub data),
            (16, .cphDomainInstall req sub data), (17, .cphDomainClear req sub data)],
    let d := data
    let r : CphReq := ⟨s.cph.nextId, req, data, false, false⟩
    let answers := fun (status : Nat) (t : State) => ∃ v hdr, v.sw = s.sw ∧ hdr.length = 32 ∧ hdr.take 3 = [byte status, byte (hOp d), 0xFF#8] ∧
      t.sw = (complete v 13 0xFF req 0x05 hdr).sw
    (noNewWork s 24 = true → Runs p.2 s (fun t => t = { s with cph := { s.cph with held := s.cph.held ++ [(p.1, req, sub, data)] } })) ∧
    (noNewWork s 24 = false → (sub ≠ 0xFF ∨ req.cls = 3 ∨ hOp d ≠ p.1) → Runs p.2 s (fun t => answers (if s.on F.cphCtrl_en then St.badDescriptor else St.portDown) t ∧
      t.cph.queue = s.cph.queue ∧ t.cph.handles = s.cph.handles ∧
      (if opStreams (hOp d) = true ∧ cphMine s r = true then cphStream t (hStream d) = none else t.cph.streams = s.cph.streams))) ∧
    (noNewWork s 24 = false → sub = 0xFF → req.cls ≠ 3 → hOp d = p.1 → s.cph.queue = [] → s.cph.cores.length = 6 → (∀ k ∈ s.cph.cores, k.run = none ∧ k.held = none) →
      (cphCheck s 0xFF r = some st → Runs p.2 s (fun t => answers st t ∧ t.cph.queue = [] ∧ t.cph.handles = s.cph.handles ∧
        t.cph.cores = s.cph.cores)) ∧
      (cphCheck s 0xFF r = none → cphWait s r = none →
        (opNeedsCore p.1 = true → corePick s req.cls = some (i, false) → maskDraw s = .bits mask u → Runs p.2 s (fun t =>
          t.cph.queue = [] ∧ (((t.cph.cores.getD i ⟨none, none⟩).run).map fun x => (x.r.data, x.r.req, x.keyA, x.susp)) =
            some (d, req, cphKey s (hKh d), false))) ∧
        (opNeedsCore p.1 = false → req.cls = 2 → corePick s 2 = none → Runs p.2 s (fun t => t.cph.queue = [r] ∧
          t.cph.handles = s.cph.handles ∧ t.keep = s.keep ∧ t.cph.domain = s.cph.domain)) ∧
        (req.cls ≠ 2 ∨ corePick s 2 ≠ none →
        (p.1 = 8 → loadHandle s r = some h → Runs p.2 s (fun t => answers St.ok t ∧
          cphKey t h = some ⟨3, slice d 32 (if hKlen d then 32 else 16), cphOwner req⟩)) ∧
        (p.1 = 9 → Runs p.2 s (fun t => answers St.ok t ∧ cphKey t (hKh d) = none)) ∧
        (p.1 = 12 → ncFree s (cphExt req) = some c → rngDraw s 1 8 = .bits fixed u → Runs p.2 s (fun t => answers St.ok t ∧
          ncAlloc t c = true ∧ ncKh t c = hKh d ∧ ncInv t c = 0 ∧ memRead t.keep (K.nonce c) 8 = fit 8 fixed)) ∧
        (p.1 = 13 → Runs p.2 s (fun t => answers St.ok t ∧ ncAlloc t (hNctr d) = false)) ∧
        (p.1 = 17 → NvTakes s false (.record recDomain []) → Runs p.2 s (fun t => t.cph.domain = none ∧ t.get (evField 77 2) = 1 ∧
          t.pt.kpDue = some 0 ∧ (∀ k ∈ t.cph.handles, k.2.cls ≠ 1) ∧
          nvJob (.record recDomain (zeros 48)) true false req.port .none ∈ t.nv.cust)))))

/-- CIPHER_OP_DONE frees the core and completes the operation: GCM, CTR and CMAC over one whole message, CCM, ECB, WRAP
and UNWRAP with the bytes the algorithm gives under the key taken at the start; a GCM or CCM tag that does not verify
with AUTH_FAIL, no output, and a count; ECB_KEY, DERIVE and UNWRAP load their key into the handle; SAVE_CTX detaches the
stream and RESTORE_CTX brings it back; DOMAIN_INSTALL hands its record to the NV store. A waiting request whose WAITMAX
passes completes TIMEOUT; a faulting core goes off for good and its operation completes INTERNAL_FAULT; CLR_CNT zeroes
both counters. (R302, R304, R314, R315, R320, R323, R332, R333, R338, R340, R343, 09_cipher_engine.md Table 9.6) -/
def Obligations.CipherResults : Prop :=
  (∀ (s : State) (core : Nat) (run : CphRun) (c key : List Byte) (h : Nat) (x : CphStream),
    s.cph.queue = [] → s.cph.cores.length = 6 → core < 6 → s.cph.cores.getD core ⟨none, none⟩ = ⟨some run, none⟩ → run.mute = false →
    let kA := (run.keyA.map fun k => k.key).getD []
    let kB := (run.keyB.map fun k => k.key).getD []
    let d := run.r.data
    let rks := roundKeys kA
    let whole := hFirst d = true ∧ hLast d = true
    let inp := hData d
    let answers := fun (status : Nat) (out : List Byte) (t : State) => (t.cph.cores.getD core ⟨none, none⟩).run = none ∧
      ∃ v hdr, v.sw = s.sw ∧ hdr.length = 32 ∧ hdr.take 3 = [byte status, byte (hOp d), byte core] ∧
        t.sw = (complete v 13 0xFF run.r.req 0x05 (hdr ++ out)).sw
    let good := fun (out : List Byte) => out.length ≤ 16384 → Runs (.cphCipherOpDone core) s (answers St.ok out)
    let loads := fun (cls : Nat) (k : List Byte) => run.hb = some h → Runs (.cphCipherOpDone core) s (fun t =>
      answers St.ok [] t ∧ cphKey t h = some ⟨cls, k, cphOwner run.r.req⟩)
    let refused := Runs (.cphCipherOpDone core) s (fun t => answers St.authFail [] t ∧ t.get (evField (70 + core) 0) = 1 ∧
      t.get F.cphCnt0_authfail = min (2 ^ 16 - 1) (s.get F.cphCnt0_authfail + 1))
    let ct := gcmCrypt rks run.iv 0 inp
    let gtag := fun (ct : List Byte) => (gcmTag rks run.iv (ghash (ghKey rks) (ghash (ghKey rks) 0#128 (hAad d)) ct) (hAadLen d) inp.length).take (hTagLen d)
    let nonce := slice d 16 13
    (hOp d = 1 → whole → hDec d = false → good (ct ++ gtag ct)) ∧
    (hOp d = 1 → whole → hDec d = true → gtag inp = hTag d → good ct) ∧
    (hOp d = 1 → whole → hDec d = true → gtag inp ≠ hTag d → refused) ∧
    (hOp d = 2 → hDec d = false → good (ccmCrypt rks nonce inp ++ ccmTag rks nonce (hAad d) inp (hTagLen d))) ∧
    (hOp d = 2 → hDec d = true → ccmTag rks nonce (hAad d) (ccmCrypt rks nonce inp) (hTagLen d) = hTag d → good (ccmCrypt rks nonce inp)) ∧
    (hOp d = 2 → hDec d = true → ccmTag rks nonce (hAad d) (ccmCrypt rks nonce inp) (hTagLen d) ≠ hTag d → refused) ∧
    (hOp d = 3 → whole → hDec d = false → good ((cmac kA inp).take (hTagLen d))) ∧
    (hOp d = 4 → hFirst d = true → good (aesCtr rks (hCtrw d) run.iv inp)) ∧
    (hOp d = 5 → hDec d = false → good (aesEnc kA inp)) ∧ (hOp d = 5 → hDec d = true → good (aesDec kA inp)) ∧
    (hOp d = 6 → loads 2 (aesEnc kA inp)) ∧
    (hOp d = 7 → slice d 32 4 = (kdfLabel "ROOT" "" [] 0).take 4 → loads 0 (kdf s.sec.root (slice d 32 32) (if hKlen d then 256 else 128))) ∧
    (hOp d = 10 → good (keyWrap kA kB)) ∧
    (hOp d = 11 → keyUnwrap kA inp = some key → loads 4 key) ∧ (hOp d = 11 → keyUnwrap kA inp = none → refused) ∧
    (hOp d = 14 → cphStream s (hStream d) = some x → Runs (.cphCipherOpDone core) s (fun t => cphStream t (hStream d) = none ∧
      sget t.cph.saves (hStream d) = some ((kGet s K.serial 4 + 1) % 2 ^ 32) ∧ kGet t K.serial 4 = (kGet s K.serial 4 + 1) % 2 ^ 32)) ∧
    (hOp d = 15 → ctxOf s d = some c → Runs (.cphCipherOpDone core) s (fun t => answers St.ok [] t ∧
      cphStream t (hStream d) = some (ctxStream c (cphOwner run.r.req)) ∧ sget t.cph.saves (hStream d) = none)) ∧
    (hOp d = 16 → NvTakes s false (.record recDomain []) → Runs (.cphCipherOpDone core) s (fun t => cphKey t (hKh d) = none ∧
      nvJob (.record recDomain (domainRecord s kA (s.get F.secEpoch_epoch))) true false run.r.req.port
        (.domain run.r.req false core (s.get F.secEpoch_epoch) kA) ∈ t.nv.cust))) ∧
  (∀ (s : State) (r : CphReq) (run : CphRun) (core : Nat),
    let answers := fun (q : CphReq) (status core : Nat) (t : State) => ∃ v hdr, v.sw = s.sw ∧ hdr.length = 32 ∧
      hdr.take 3 = [byte status, byte (hOp q.data), byte core] ∧ t.sw = (complete v 13 0xFF q.req 0x05 hdr).sw
    (s.cph.queue = [r] → r.waiting = true → Runs (.cphCipherWaitTimeout 0) s (fun t => t.cph.queue = [] ∧ t.get (evField 76 2) = 1 ∧
      answers r St.timeout 0xFF t)) ∧
    (core < 6 → s.cph.queue = [] → s.cph.cores.length = 6 → s.cph.cores.getD core ⟨none, none⟩ = ⟨some run, none⟩ → run.mute = false →
      Runs (.cphCoreFault core) s (fun t => t.get F.cphStat_coreOff = setBit (s.get F.cphStat_coreOff) core ∧
        t.get (evField (70 + core) 1) = 1 ∧ (t.cph.cores.getD core ⟨none, none⟩) = ⟨none, none⟩ ∧ coreFree t core = false ∧
        answers run.r St.internalFault core t)) ∧
    Runs .cphClrCnt s (fun t => t.getW W.cphCnt0 = 0#32 ∧ t.getW W.cphCnt1 = 0#32 ∧ t = { s with regs := t.regs }))

/-- A read of RNG_DATA and a frame request are served from the reader's instance, wait while it cannot draw (a frame
with what it has got; a stopped unit keeps it queued), and answer zeros and RNG_FATAL under the fatal alarm; RNG_RAW
takes raw bits; a passing block seeds the two lowest unseeded instances or enters the pool, a failing one counts and
stops its source, and without another source in service raises the fatal alarm; a reseed takes 64 bytes of the pool; a
stalled reader, whether a register read, a MGMT frame or a frame request, ends with zero or TIMEOUT; RESTART acts only
under the fatal alarm. (R349, R351, R353, R355, R357, R358, R359, R361, R364, R366, R368, R369) -/
def Obligations.RandomNumbers : Prop :=
  ∀ (s u : State) (host : Bool) (req : Req) (payload b blk : List Byte) (inst n i j sub ofs : Nat) (raw : Bool) (l : IvLoad),
    let value := BitVec.ofNat 32 (leNat b)
    let idle := s.rng.waits = [] ∧ s.cph.queue = [] ∧ s.led.stalled = [] ∧ s.cld.txns = [] ∧ s.prx.stalled = none ∧ s.vio.waits = [] ∧
      s.sec.queue = [] ∧ s.sec.dbgRd = none ∧ (s.on F.clkStat_cfgDone = true → s.sec.rootGen = true)
    let stalls := b2n (!host)
    (rngDraw s (if host then 5 else 4) 4 = .bits b u → Runs (.rngData host) s (fun t => t.getW W.rngData = value ∧ t.rng = u.rng ∧
      (host = false → s.iv.load = some l → l.rng = some false → l.crc = none → wGet t.iv.w l.rd = value ∧ t.iv.load = none))) ∧
    (s.on F.rngStat_fatal = false → rawTake s = some (b, u) → Runs (.rngRaw host) s (fun t => t.getW W.rngRaw = value ∧ t.rng = u.rng)) ∧
    (s.on F.rngStat_fatal = true → Runs (.rngData host) s (fun t => t.getW W.rngData = 0#32 ∧ t.rng = s.rng) ∧
      Runs (.rngRaw host) s (fun t => t.getW W.rngRaw = 0#32 ∧ t.rng = s.rng)) ∧
    (rngDraw s (if host then 5 else 4) 4 = .wait u → (host && s.hst.qspi) = false → Runs (.rngData host) s (fun t =>
      t = { s with rng := { s.rng with waits := s.rng.waits ++ [.read host false] } })) ∧
    (rngDraw s 5 4 = .wait u → s.hst.qspi = true → Runs (.rngData true) s (fun t => t.getW W.rngData = 0#32 ∧
      bitOf (t.get F.rngStat_stallTo) 0 = true ∧ t.get (evField 81 0) = 1 ∧ t.rng.waits = s.rng.waits)) ∧
    (noNewWork s 26 = true → Runs (.rngFrame req payload) s (fun t =>
      t = { s with rng := { s.rng with held := s.rng.held ++ [(req, payload)] } })) ∧
    (noNewWork s 26 = false → (rngPortInst req.port = none ∨ payload.length ≠ 4 ∨ leAt payload 2 2 ≠ 0 ∨ leAt payload 0 2 % 4 ≠ 0 ∨ leAt payload 0 2 < 4 ∨
        256 < leAt payload 0 2 ∨ req.cls = 3) →
      Runs (.rngFrame req payload) s (fun t => t = complete s 15 26 req 0x06 [byte St.badDescriptor, 0#8, 0#8, 0#8])) ∧
    (noNewWork s 26 = false → rngPortInst req.port = some inst → payload.length = 4 → leAt payload 2 2 = 0 → leAt payload 0 2 = 4 * n → 1 ≤ n → n ≤ 64 → req.cls ≠ 3 →
      (s.on F.rngStat_fatal = false → rngPart 8 s inst (4 * n) [] = (b, u) →
        (b.length = 4 * n → Runs (.rngFrame req payload) s (fun t =>
          t = complete u 15 26 req 0x06 ([byte St.ok, 0#8, 0#8, 0#8] ++ b))) ∧
        (b.length < 4 * n → Runs (.rngFrame req payload) s (fun t =>
          t = { u with rng := { u.rng with waits := u.rng.waits ++ [.frame req (4 * n) inst b] } }))) ∧
      (s.on F.rngStat_fatal = true → Runs (.rngFrame req payload) s (fun t =>
        t = complete s 15 26 req 0x06 [byte St.rngFatal, 0#8, 0#8, 0#8]))) ∧
    (idle → rngSrc s 0 ≠ 0 → blk.length = 128 →
      (blockPasses s blk = true → Runs (.rngBlockTested (some blk) none) s (fun t => rngSrc t 0 = 2 ∧
        (s.get F.rngStat_seeded = 0xFF → t.rng.pool = s.rng.pool ++ blk.take (512 - s.rng.pool.length)) ∧
        (i < j → j < 8 → (∀ k, k < j → bitOf (s.get F.rngStat_seeded) k = (k != i)) → bitOf (s.get F.rngStat_seeded) j = false →
          bitOf (t.get F.rngStat_seeded) i = true ∧ bitOf (t.get F.rngStat_seeded) j = true ∧ t.rng.pool = s.rng.pool))) ∧
      (blockPasses s blk = false → (s.rng.fails.getD 0 []) = [] → rngSrc s 1 = 2 → Runs (.rngBlockTested (some blk) none) s (fun t =>
        rngSrc t 0 = 3 ∧ t.on F.rngStat_oneSource = true ∧ t.get (evField 78 0) = 1 ∧
        t.get F.rngFailcnt_jasper = min (2 ^ 16 - 1) (s.get F.rngFailcnt_jasper + 1))) ∧
      (blockPasses s blk = false → (s.rng.fails.getD 0 []) = [] → rngSrc s 1 ≠ 2 → Runs (.rngBlockTested (some blk) none) s (fun t =>
        t.on F.rngStat_fatal = true ∧ t.get F.rngStat_fatalCause = 3 ∧ t.get F.rngStat_seeded = 0 ∧ t.rng.pool = []))) ∧
    (idle → i < 8 → i < s.rng.insts.length → (s.rng.insts.getD i ⟨[], [], 0, false⟩).reseeding = true → 64 ≤ s.rng.pool.length →
      Runs (.rngReseedDone i) s (fun t => t.rng.pool = s.rng.pool.drop 64 ∧ (t.rng.insts.getD i ⟨[], [], 0, true⟩).reseeding = false ∧
        (t.rng.insts.getD i ⟨[], [], 0, true⟩).cnt = 0 ∧
        t.get F.rngRscnt_reseeds = min (2 ^ 32 - 1) (s.get F.rngRscnt_reseeds + 1))) ∧
    (s.rng.waits = [.read host false] → Runs (.rngStallTimeout (.reader 0)) s (fun t => t.rng.waits = [] ∧ t.getW W.rngData = 0#32 ∧
      bitOf (t.get F.rngStat_stallTo) stalls = true ∧ t.get (evField 81 0) = 1)) ∧
    (s.rng.waits = [.frame req n inst b] → Runs (.rngStallTimeout (.reader 0)) s (fun t => t.rng.waits = [] ∧ t.get (evField 81 0) = 1 ∧
      ∃ v, v.sw = s.sw ∧ t = complete v 15 26 req 0x06 [byte St.timeout, 0#8, 0#8, 0#8])) ∧
    (s.rng.waits = [.mgmt req sub ofs raw] → Runs (.rngStallTimeout (.reader 0)) s (fun t => t.rng.waits = [] ∧
      bitOf (t.get F.rngStat_stallTo) (b2n (req.port == 12)) = true ∧ t.get (evField 81 0) = 1 ∧
      t.sw = (mgmtDone { s with rng := t.rng } req sub 1 St.ok ofs 0#32).sw)) ∧
    Runs .rngClrStall s (fun t => t = s.set F.rngStat_stallTo 0) ∧
    (s.on F.rngStat_fatal = false → Runs .rngRestart s (fun t => t = s)) ∧
    (s.on F.rngStat_fatal = true → Runs .rngRestart s (fun t => t.on F.rngStat_fatal = false ∧ t.get F.rngStat_fatalCause = 0 ∧
      rngSrc t 0 = 1 ∧ rngSrc t 1 = 1 ∧ t.get F.rngStat_seeded = 0 ∧ t.rng.pool = [] ∧ t.rng.fails = [[], []])) ∧
    Runs .rngClrCnt s (fun t => t.getW W.rngFailcnt = 0#32 ∧ t.getW W.rngRscnt = 0#32 ∧ t = { s with regs := t.regs })

/-- NV_CMD over a running command, whichever its bit, sets OVERRUN and else clears it; READ puts the bytes into NV_RBUF
or waits for the page being written; WRITE outside the user region is refused and counted, inside it is queued; REC_READ
answers the selected copy or NV_NO_RECORD, REC_WRITE is queued; a bad length is BAD_DESCRIPTOR; a raise of BP takes
effect at once, a lowering only in BLANK and PROVISIONED; SAVE_CFG queues record 0x0001; a pass starts at page 0 and
each page is queued as a refresh. (R375, R384, R392, R393, R396, R397, R399, R400, R402, R405, R793) -/
def Obligations.NvRegisterCommands : Prop :=
  ∀ (s : State) (src : Src) (bp weak : Nat) (x : RecSel),
    let v := s.set F.nvStat_overrun 0
    let cmds := [Instr.nvRead src, .nvWrite src, .nvRecRead src, .nvRecWrite src]
    let addr := s.get F.nvAddr_addr
    let len := s.get F.nvXfer_len
    let k := s.get F.nvXfer_desc
    let d := userDesc s k
    let buf := fit len (wordsBytes s ((List.range 32).map W.nvWbuf))
    let ended := fun (st : Nat) (t : State) => t.on F.nvResult_valid = true ∧ t.get F.nvResult_status = st ∧ t.nv.cmd = none ∧
      t.get F.nvResult_seq = (s.get F.nvResult_seq + 1) % 2 ^ 16 ∧ t.nv.cells = s.nv.cells
    let shows := fun (bs : List Byte) (t : State) => wordsBytes t ((List.range 32).map W.nvRbuf) = fit 128 bs
    let queues := fun (q : NvKind) (cont : NvCont) (t : State) => t.nv.cmd.isSome = true ∧ t.on F.nvResult_valid = false ∧
      t.nv.ord = s.nv.ord ++ [nvJob q false false (srcPort src) cont]
    (s.nv.cmd.isSome = true → ∀ c ∈ cmds ++ [.nvClrCnt, .nvSaveCfg src, .nvScrubNow],
      Runs c s (fun t => t = s.set F.nvStat_overrun 1)) ∧
    (s.nv.cmd = none → noNewWork s 28 = true → ∀ c ∈ cmds, Runs c s (fun t => t.nv.held = s.nv.held ++ [.reg] ∧ t.nv.cmd.isSome = true)) ∧
    (s.nv.cmd = none → noNewWork s 28 = false →
      (len = 0 ∨ 128 < len → ∀ c ∈ cmds, Runs c s (ended St.badDescriptor)) ∧
      (1 ≤ len → len ≤ 128 → addr + len ≤ 0x100000 →
        (nvPageBusy s addr len = false → Runs (.nvRead src) s (fun t => ended St.ok t ∧ shows (memRead s.nv.cells addr len) t)) ∧
        (nvPageBusy s addr len = true → Runs (.nvRead src) s (fun t => t.nv.waitRead = s.nv.waitRead ++ [.reg] ∧ t.nv.cmd.isSome = true))) ∧
      (1 ≤ len → len ≤ 128 → nvOpen addr len = false → Runs (.nvWrite src) s (fun t => ended St.nvProtected t ∧
        t.get F.nvCnt_refused = min (2 ^ 16 - 1) (s.get F.nvCnt_refused + 1))) ∧
      (1 ≤ len → len ≤ 128 → nvOpen addr len = true → NvTakes s false (.raw addr buf) →
        Runs (.nvWrite src) s (queues (.raw addr buf) (.regCmd false k))) ∧
      (1 ≤ len → len ≤ 128 → userDescOk d = true →
        (addr + len ≤ d.len → recBusy s d = false →
          (recSelect s d = none → Runs (.nvRecRead src) s (fun t => ended St.nvNoRecord t ∧ t.get (evField 84 0) = 1)) ∧
          (recSelect s d = some x → Runs (.nvRecRead src) s (fun t => ended St.ok t ∧ shows (slice x.payload addr len) t ∧
            t.on F.nvResult_copyB = x.copyB ∧ t.on F.nvResult_conflict = x.conflict ∧ t.getW W.nvRecseq = BitVec.ofNat 32 x.seq))) ∧
        (addr = 0 → len = d.len → NvTakes s false (.record d []) → Runs (.nvRecWrite src) s (queues (.record d buf) (.regCmd true k))))) ∧
    (s.nv.cmd = none → Runs .nvClrCnt s (fun t => t = v.setW W.nvCnt 0#32)) ∧
    (s.nv.cmd = none → NvTakes s false (.record recNv []) → Runs (.nvSaveCfg src) s (fun t =>
      t = withOrd v [nvJob (.record recNv (wordsBytes v recNvWords)) false false (srcPort src) .saveCfg])) ∧
    (bp < 4 →
      (s.get F.nvProt_bp < bp → Runs (.nvProtWrite src bp) s (fun t => t.get F.nvProt_bp = bp)) ∧
      (bp < s.get F.nvProt_bp → s.get F.secStat_lc ≤ 1 → Runs (.nvProtWrite src bp) s (fun t => t = s.set F.nvProt_bp bp)) ∧
      (bp < s.get F.nvProt_bp → 1 < s.get F.secStat_lc → Runs (.nvProtWrite src bp) s (fun t => t.get F.nvProt_bp = s.get F.nvProt_bp ∧
        t.get (evField 105 0) = 1)) ∧
      (bp = s.get F.nvProt_bp → Runs (.nvProtWrite src bp) s (fun t => t = s))) ∧
    (s.on F.nvStat_scrubbing = false → ∀ c ∈ [Instr.nvScrubNow, .nvScrubDue], (c = .nvScrubNow → s.nv.cmd = none) →
      (c = .nvScrubDue → s.get F.nvScrublast_last + 31536000 ≤ s.rtcSec) → Runs c s (fun t => t.on F.nvStat_scrubbing = true ∧
        t.get F.nvScrubpos_page = 0 ∧ t.get F.nvScrubpos_weak = 0 ∧ t.led.touched = true ∧ t = { s with regs := t.regs, led := t.led })) ∧
    (s.on F.nvStat_scrubbing = true → scrubRuns s = true → scrubQueued s = false → s.nv.torn = [] →
      NvTakes s true (.refresh (s.get F.nvScrubpos_page)) → Runs (.nvScrubPage weak) s (fun t =>
        t.nv.ord = s.nv.ord ++ [nvJob (.refresh (s.get F.nvScrubpos_page)) false true 15 .scrub] ∧
        t.get F.nvScrubpos_weak = min (2 ^ 16 - 1) (s.get F.nvScrubpos_weak + weak)))

/-- A frame request at a stopped store waits and a malformed one completes BAD_DESCRIPTOR; a read answers its bytes, a
record read the selected copy or NV_NO_RECORD; a write outside the user region is refused and counted, others are
queued. PAGE_WRITE_DONE puts the page as written, or as found after a second mismatch, into the array and changes no
other byte, and ends a register write of one page with OK or NV_TORN. (R376, R377, R378, R384, R393, R397, R407) -/
def Obligations.NvFramesAndPages : Prop :=
  ∀ (s : State) (req : Req) (d : List Byte) (x : RecSel) (c : NvCur) (j : NvJob) (rest : List NvJob) (b : List Byte) (k : Nat),
    let frames := [(1, Instr.nvFrameRead req d), (2, .nvFrameWrite req d), (3, .nvFrameRecRead req d), (4, .nvFrameRecWrite req d)]
    let addr := leAt d 4 4
    let len := leAt d 8 4
    let desc := userDesc s (leAt d 1 1)
    let tells := fun (st copy flags seq : Nat) (data : List Byte) (v : State) => complete v 15 28 req 0x07
      ([byte st, byte copy, byte flags, 0#8] ++ leBytes 4 seq ++ leBytes 4 len ++ data)
    (∀ p ∈ frames,
      (noNewWork s 28 = true → Runs p.2 s (fun t => t = { s with nv := { s.nv with held := s.nv.held ++ [.frame req p.1 d] } })) ∧
      (noNewWork s 28 = false → nvFrameOk s req p.1 d = false → Runs p.2 s (fun t => t = tells St.badDescriptor 0 0 0 [] s))) ∧
    (noNewWork s 28 = false →
      (nvFrameOk s req 1 d = true → nvPageBusy s addr len = false → Runs (.nvFrameRead req d) s (fun t =>
        t = tells St.ok 0 0 0 (memRead s.nv.cells addr len) s)) ∧
      (nvFrameOk s req 1 d = true → nvPageBusy s addr len = true → Runs (.nvFrameRead req d) s (fun t =>
        t = { s with nv := { s.nv with waitRead := s.nv.waitRead ++ [.frame req 1 d] } })) ∧
      (nvFrameOk s req 2 d = true → nvOpen addr len = false → Runs (.nvFrameWrite req d) s (fun t =>
        t = tells St.nvProtected 0 0 0 [] (s.bump F.nvCnt_refused 1))) ∧
      (nvFrameOk s req 2 d = true → nvOpen addr len = true → NvTakes s false (.raw addr (slice d 16 len)) →
        Runs (.nvFrameWrite req d) s (fun t =>
          t = withOrd s [nvJob (.raw addr (slice d 16 len)) false false req.port (.frame req 2 len (leAt d 1 1))])) ∧
      (nvFrameOk s req 3 d = true → recBusy s desc = false →
        (recSelect s desc = none → Runs (.nvFrameRecRead req d) s (fun t => t.get (evField 84 0) = 1 ∧
          ∃ v, v.sw = s.sw ∧ t = tells St.nvNoRecord 0 0 0 [] v)) ∧
        (recSelect s desc = some x → x.repair = false → x.conflict = false → Runs (.nvFrameRecRead req d) s (fun t =>
          t = tells St.ok (b2n x.copyB) 0 x.seq (slice x.payload addr len) s))) ∧
      (nvFrameOk s req 4 d = true → NvTakes s false (.record desc []) → Runs (.nvFrameRecWrite req d) s (fun t =>
        t = withOrd s [nvJob (.record desc (slice d 16 len)) false false req.port (.frame req 4 len (leAt d 1 1))]))) ∧
    (s.nv.cur = some c → c.orphan = false → c.data.length = 128 → (if c.custody then s.nv.cust else s.nv.ord) = j :: rest →
      s.nv.waitRead = [] → s.sec.dbgRd = none → s.iv.load = none → s.sec.queue = [] → b.length = 128 →
      let page := 128 * c.page
      let holds := fun (bs : List Byte) (t : State) => ∀ a, memGet t.nv.cells a =
        if page ≤ a ∧ a < page + 128 then bs.getD (a - page) 0#8 else memGet s.nv.cells a
      (j.pages.drop 1 ≠ [] → Runs (.nvPageWriteDone none) s (holds c.data)) ∧
      (j.pages.length ≤ 1 → j.cont = .regCmd false k → Runs (.nvPageWriteDone none) s (fun t => holds c.data t ∧
        t.on F.nvResult_valid = true ∧ t.get F.nvResult_status = St.ok ∧ t.nv.cmd = none)) ∧
      (j.cont = .regCmd false k → Runs (.nvPageWriteDone (some b)) s (fun t => holds b t ∧
        t.on F.nvResult_valid = true ∧ t.get F.nvResult_status = St.nvTorn ∧ t.nv.cmd = none)))

/-- APPLY is accepted under the conditions of R453 and otherwise raises CFG_REJECT and changes nothing in Basin; its end
keeps unchanged partitions byte for byte and zeroises the others; SAVE queues the sizes in force as record 0x0042; a
capture request at a stopped Basin waits and a malformed one (its OP byte is the row's) or a too long one completes
BAD_DESCRIPTOR; STORE writes header and data to the ring, in STOP mode waits with CAP_FULL, in RING mode frees the
oldest record and counts it; READ answers the oldest record and frees it; FLUSH frees all. (R24, R453, R454, R459, R460,
R461, R462, R463) -/
def Obligations.BasinAndCapture : Prop :=
  ∀ (s : State) (src : Src) (req : Req) (payload : List Byte) (r : CapRec) (rs : List CapRec),
    let old := s.bsn.size
    let new := partSizes s
    let next := s.bsn.applyTo
    let n := payload.length - 8
    let badOp := leAt payload 0 1
    let rows := [(1, Instr.bsnStore req payload), (2, .bsnCaptureRead req payload), (3, .bsnCaptureFlush req payload)]
    let cls := fun (op : Nat) => if op = 1 then 2 else 1
    let wellFormed := fun (op : Nat) => badOp = op ∧ 8 ≤ payload.length ∧ slice payload 1 7 = zeros 7 ∧ req.cls = cls op
    let open_ := noNewWork s 14 = false ∧ s.bsn.capWait = []
    let tells := fun (st op q len : Nat) (data : List Byte) (v : State) => complete v 7 0 req 0x0B
      ([byte st, byte op, 0#8, 0#8] ++ leBytes 4 q ++ leBytes 4 len ++ data)
    let rejected := fun (t : State) => t.bsn = s.bsn ∧ t.get F.hrRej_offset = W.bsnCmd ∧ t.get (evField 105 0) = 1
    let stored := fun (held : List CapRec) (t : State) => ∃ mem,
      let entry : CapRec := ⟨s.bsn.capPos, capRecSize n, s.bsn.rseq, n⟩
      let record := leBytes 4 s.bsn.rseq ++ leBytes 4 s.rtcSec ++ [byte req.port, byte req.sub, byte req.dev, 0#8] ++ leBytes 4 n ++ payload.drop 8
      let place := fun (i : Nat) => 0x100000 * partBase s 1 + (s.bsn.capPos + i) % capSize s
      (∀ i, i < 16 + n → memGet mem (place i) = record.getD i 0#8) ∧
      (∀ a, (∀ i, i < 16 + n → a ≠ place i) → memGet mem a = memGet s.bsn.mem a) ∧
      t.bsn = { s.bsn with mem, cap := held ++ [entry], capPos := (s.bsn.capPos + capRecSize n) % capSize s, rseq := (s.bsn.rseq + 1) % 2 ^ 32 } ∧
      ∃ v, v.sw = s.sw ∧ t = tells St.ok 1 s.bsn.rseq n [] v
    (new.foldl (· + ·) 0 = 62 → 8 ≤ new.getD 0 0 → 1 ≤ new.getD 3 0 → 1 ≤ new.getD 4 0 → isStopped s 12 = true →
      (partSame old new 0 = true ∨ swCells s = 0) → (partSame old new 1 = true ∨ s.bsn.cap = []) →
      (partSame old new 4 = true ∨ (isStopped s 24 = true ∧ cphInUse s 0 128 = 0 ∧ cphInUse s 128 256 = 0 ∧ cphSpill s = 0 ∧ s.cph.streams = [])) →
      Runs (.bsnApply src) s (fun t =>
        t = ({ s with bsn := { s.bsn with applyTo := new } }.set F.bsnStat_applying 1).set F.bsnStat_applied 0)) ∧
    (new.foldl (· + ·) 0 ≠ 62 ∨ new.getD 0 0 < 8 ∨ new.getD 3 0 = 0 ∨ new.getD 4 0 = 0 ∨ isStopped s 12 = false ∨
        (partSame old new 0 = false ∧ swCells s ≠ 0) ∨ (partSame old new 1 = false ∧ s.bsn.cap ≠ []) ∨
        (partSame old new 4 = false ∧ (isStopped s 24 = false ∨ cphInUse s 0 128 ≠ 0 ∨ cphInUse s 128 256 ≠ 0 ∨ cphSpill s ≠ 0 ∨ s.cph.streams ≠ [])) →
      Runs (.bsnApply src) s rejected) ∧
    (s.on F.bsnStat_applying = false → Runs .bsnApplyDone s (fun t => t = s)) ∧
    (s.on F.bsnStat_applying = true → Runs .bsnApplyDone s (fun t => t.bsn.size = next ∧ t.on F.bsnStat_applying = false ∧
      t.on F.bsnStat_applied = true ∧ t.get (evField 61 9) = 1 ∧ t.bsn.cap = s.bsn.cap ∧
      ∀ k a, k < 5 → 0x100000 * baseOf next k ≤ a → a < 0x100000 * (baseOf next k + next.getD k 0) →
        memGet t.bsn.mem a = if partSame old next k then memGet s.bsn.mem a else 0#8)) ∧
    (NvTakes s false (.record recBasin []) → Runs (.bsnSave src) s (fun t =>
      t = withOrd s [nvJob (.record recBasin (old.flatMap (leBytes 4))) false false (srcPort src) .none])) ∧
    (s.bsn.capWait = [] → Runs .bsnCapFlush s (fun t => t = { s with bsn := { s.bsn with cap := [] } })) ∧
    Runs .bsnClrCnt s (fun t => t = s.set F.bsnCapstat_over 0) ∧
    (∀ q ∈ rows,
      (noNewWork s 14 = true → Runs q.2 s (fun t => t = { s with bsn := { s.bsn with capWait := s.bsn.capWait ++ [(req, payload)] } })) ∧
      (open_ → ¬ wellFormed q.1 → Runs q.2 s (fun t => ∃ k, t = tells St.badDescriptor badOp k 0 [] { s with free := s.free + 1 }))) ∧
    (noNewWork s 14 = false → badOp = 1 → s.bsn.capWait ≠ [] → Runs (.bsnStore req payload) s (fun t =>
      t = { s with bsn := { s.bsn with capWait := s.bsn.capWait ++ [(req, payload)] } })) ∧
    (open_ → wellFormed 1 →
      (capSize s < capRecSize n → Runs (.bsnStore req payload) s (fun t => ∃ k, t = tells St.badDescriptor 1 k 0 [] { s with free := s.free + 1 })) ∧
      (capUsed s + capRecSize n ≤ capSize s → Runs (.bsnStore req payload) s (stored s.bsn.cap)) ∧
      (capRecSize n ≤ capSize s → capSize s < capUsed s + capRecSize n → s.get F.bsnCtrl_capmode ≠ 1 → Runs (.bsnStore req payload) s (fun t =>
        t.get (evField 61 10) = 1 ∧ t.bsn = { s.bsn with capWait := [(req, payload)] })) ∧
      (capRecSize n ≤ capSize s → s.bsn.cap = r :: rs → capSize s < capUsed s + capRecSize n → capUsed s + capRecSize n ≤ capSize s + r.size →
        s.get F.bsnCtrl_capmode = 1 → Runs (.bsnStore req payload) s (fun t => stored rs t ∧
          t.get F.bsnCapstat_over = min (2 ^ 16 - 1) (s.get F.bsnCapstat_over + 1)))) ∧
    (open_ → wellFormed 2 →
      (s.bsn.cap = [] → Runs (.bsnCaptureRead req payload) s (fun t => ∃ k, t = tells St.ok 2 k 0 [] { s with free := s.free + 1 })) ∧
      (s.bsn.cap = r :: rs → Runs (.bsnCaptureRead req payload) s (fun t =>
        t = tells St.ok 2 r.rseq r.len (capGet s r.pos (16 + r.len)) { s with bsn := { s.bsn with cap := rs } }))) ∧
    (open_ → wellFormed 3 → Runs (.bsnCaptureFlush req payload) s (fun t =>
      ∃ k, t = tells St.ok 3 k 0 [] { s with free := s.free + 1, bsn := { s.bsn with cap := [] } }))

/-- A request waits while the directory is loading, stopped or without Basin; a bad one completes BAD_DESCRIPTOR;
LOOKUP, READ and NEXT answer the entry they find; ADD, MODIFY and DELETE change one entry, advance its EPOCH, set
REVOKE_AT when revoking, age the UID's term results out, and queue the page as a custody write that carries the
completion, unless the page is protected; a cache fill, a due write-through and the end of a load do as R468, R481 and
R483 say. (R467, R468, R470, R471, R472, R473, R476, R477, R478, R481, R482, R483) -/
def Obligations.DirectoryRequests : Prop :=
  ∀ (s : State) (req : Option Req) (data : List Byte) (i page : Nat) (w : DirWait) (ws : List DirWait),
    let rows := [(1, Instr.dirLookup req data), (2, .dirRead req data), (3, .dirNext req data), (4, .dirAdd req data),
      (5, .dirModify req data), (6, .dirDelete req data)]
    let v : State := match req with
      | some _ => s
      | none => let u := (s.set F.dirStat_overrun 0).set F.dirResult_valid 0
                { u with dir := { u.dir with cmdPend := true, cmdSrc := 8 } }
    let d := fun (op : Nat) => match req with
      | some _ => data
      | none => [byte op] ++ slice data 1 3 ++ [byte (s.get F.dirGrpidx_group)] ++ slice data 5 1 ++ zeros 10
          ++ wordsBytes s ((List.range 16).map W.dirBuf)
    let came := fun (op : Nat) => match req with
      | some r => leAt data 0 1 = op ∧ data.length = 80 ∧ (r.cls = 1 ∨ r.cls = 2 ∨ (r.cls = 0 ∧ portInternal r.port = true))
      | none => s.dir.cmdPend = false
    let runs := fun (op : Nat) => came op ∧ dirWaits v (d op) = false ∧ dirFieldsOk v (d op) = true
    let tells := fun (op st k : Nat) (u : State) => dirAnswer u req (dirPayload st op k (dirShown s k))
    let saysNone := fun (op st : Nat) (t : State) => ∃ f k e, t = dirAnswer { v with free := f } req (dirPayload st op k e)
    let idx := fun (op : Nat) => leAt (d op) 2 2
    let ent := fun (op : Nat) => slice (d op) 16 64
    let uid := slice (d 1) 16 8
    let addr := 0x60000 + 128 * (i / 4)
    let old := dirEntry s i
    let writable := NvTakes s false (.raw addr (zeros 128)) ∧ sadState s ≠ SS.released
    let changed := fun (op : Nat) (new key : List Byte) (rev : Bool) (t : State) =>
      let ep := (leAt old 12 1 + 1) % 256
      dirEntry t i = entSeal (slice new 0 12 ++ [byte ep, byte (if rev then ep else leAt old 13 1)] ++ slice new 14 50) ∧
      (∀ j, j ≠ i → dirEntry t j = dirEntry s j) ∧ t.sw = s.sw ∧
      t.nv.cust = s.nv.cust ++ [nvJob (.raw addr (dirPageBytes t (i / 4) i)) true false ((req.map fun r => r.port).getD 8)
        (.dir req (dirPayload St.ok op i (dirShown t i)))] ∧
      (rev = false → t.sad = s.sad) ∧
      (rev = true → ∀ k ∈ [0, 1, 3, 12], ∀ r, sget s.sad.res k = some r → r.key = key → sget t.sad.res k = some { r with expired := true })
    let free := fun (b : Nat) => ((List.range 4).map (4 * b + ·)).filter fun j => !entValid (dirEntry s j)
    let f1 := free (dirBuckets uid).1
    let f2 := free (dirBuckets uid).2
    let fl := leAt (ent 4) 8 1
    let ml := leAt (ent 5) 8 1
    let ol := leAt old 8 1
    let hit := fun (j : Nat) => entValid (dirEntry s j) = true ∧ (leAt (d 3) 4 1 = 0xFF ∨ leAt (dirEntry s j) 11 1 = leAt (d 3) 4 1)
    (∀ q ∈ rows,
      (came q.1 → dirWaits v (d q.1) = true → Runs q.2 s (fun t => t = { v with dir := { v.dir with waits := v.dir.waits ++ [⟨req, d q.1⟩] } })) ∧
      (came q.1 → dirWaits v (d q.1) = false → dirFieldsOk v (d q.1) = false → idx q.1 < 12288 →
        Runs q.2 s (fun t => t = tells q.1 St.badDescriptor (idx q.1) v)) ∧
      (req.isSome = true → ¬ came q.1 → leAt data 2 2 < 12288 → Runs q.2 s (fun t => t = tells (leAt data 0 1) St.badDescriptor (leAt data 2 2) s)) ∧
      (req = none → ¬ came q.1 → Runs q.2 s (fun t => t = s.set F.dirStat_overrun 1))) ∧
    (runs 1 →
      (dirSeek s uid = some i → s.dir.cache.contains i = true → Runs (.dirLookup req data) s (fun t =>
        t = tells 1 St.ok i (cacheUse (v.bump F.dirCache_hits 1) i))) ∧
      ((∀ j, dirSeek s uid = some j → s.dir.cache.contains j = false) → Runs (.dirLookup req data) s (fun t =>
        t.dir = { v.dir with misses := v.dir.misses ++ [⟨req, d 1⟩] } ∧
        t.get F.dirCache_misses = min (2 ^ 16 - 1) (s.get F.dirCache_misses + 1) ∧ t = { s with regs := t.regs, dir := t.dir }))) ∧
    (runs 2 → Runs (.dirRead req data) s (fun t => t = tells 2 St.ok (idx 2) v)) ∧
    (runs 3 → srising s.dir.entries = true →
      (idx 3 ≤ i → hit i → (∀ j, idx 3 ≤ j → j < i → ¬ hit j) → Runs (.dirNext req data) s (fun t => t = tells 3 St.ok i v)) ∧
      ((∀ j, idx 3 ≤ j → ¬ hit j) → Runs (.dirNext req data) s (saysNone 3 St.dirNotFound))) ∧
    (runs 4 →
      (dirSeek s uid = some i → Runs (.dirAdd req data) s (fun t => t = tells 4 St.dirExists i v)) ∧
      (dirSeek s uid = none →
        (f1 = [] → f2 = [] → Runs (.dirAdd req data) s (fun t => t.get (evField 69 11) = 1 ∧ t.dir.entries = s.dir.entries)) ∧
        ((if f1.length < f2.length then f2 else f1).head? = some i → writable → Runs (.dirAdd req data) s
          (changed 4 (uid ++ [byte (1 + 2 * natBits fl 2 1)] ++ slice (ent 4) 9 3 ++ [0#8, 0#8] ++ slice (ent 4) 14 1 ++ [0xFF#8]
            ++ slice (ent 4) 16 12 ++ zeros 36) uid ((leAt (d 4) 1 1).testBit 0 || natBits fl 2 1 != 0))) ∧
        ((if f1.length < f2.length then f2 else f1).head? = some i → nvProtected s false (.raw addr (zeros 128)) = true →
          Runs (.dirAdd req data) s (fun t => t = tells 4 St.nvProtected i (v.bump F.nvCnt_refused 1))))) ∧
    (idx 5 = i → runs 5 →
      (entValid old = false → Runs (.dirModify req data) s (fun t => t = tells 5 St.dirNotFound i v)) ∧
      (entValid old = true → (leAt (d 5) 1 1).testBit 1 = true → leAt (d 5) 5 1 ≠ leAt old 12 1 →
        Runs (.dirModify req data) s (fun t => t = tells 5 St.dirChanged i v)) ∧
      (entValid old = true → old.length = 64 → ((leAt (d 5) 1 1).testBit 1 = true → leAt (d 5) 5 1 = leAt old 12 1) →
        (writable → Runs (.dirModify req data) s (changed 5
          (slice old 0 8 ++ [byte (1 + 2 * natBits ml 2 1 + 8 * (natBits ml 3 3 * natBits ol 3 3) + 16 * natBits ol 4 4)] ++ slice (ent 5) 9 3
            ++ slice old 12 2 ++ slice (ent 5) 14 1 ++ slice old 15 1 ++ slice (ent 5) 16 12 ++ slice old 28 36) (slice old 0 8)
          ((leAt (d 5) 1 1).testBit 0 || (ml.testBit 1 && !ol.testBit 1) || (ml.testBit 2 && !ol.testBit 2)
            || (leAt old 10 1 &&& leAt (ent 5) 10 1) != leAt old 10 1 || slice old 9 1 != slice (ent 5) 9 1
            || slice old 11 1 != slice (ent 5) 11 1))) ∧
        (nvProtected s false (.raw addr (zeros 128)) = true → Runs (.dirModify req data) s (fun t =>
          t = tells 5 St.nvProtected i (v.bump F.nvCnt_refused 1))))) ∧
    (idx 6 = i → runs 6 →
      (entValid old = false → Runs (.dirDelete req data) s (fun t => t = tells 6 St.dirNotFound i v)) ∧
      (entValid old = true → writable → Runs (.dirDelete req data) s (changed 6 (zeros 64) (slice old 0 8) true))) ∧
    (s.dir.misses = w :: ws → s.on F.bsnStat_ready = true →
      let u := { s with dir := { s.dir with misses := ws } }
      (dirSeek s (slice w.data 16 8) = some i → Runs .dirCacheFill s (fun t =>
        t = dirAnswer (cacheUse u i) w.req (dirPayload St.ok 1 i (dirShown s i)))) ∧
      (dirSeek s (slice w.data 16 8) = none → Runs .dirCacheFill s (fun t => t.dir.misses = ws ∧ t.dir.cache = s.dir.cache ∧
        (w.req = none → t.get F.dirResult_status = St.dirNotFound ∧ t.on F.dirResult_valid = true)))) ∧
    (s.dir.gathered.contains page = false ∨ dirPageRecent s page = true → Runs (.dirWriteThrough page) s (fun t => t = s)) ∧
    (s.dir.gathered.contains page = true → dirPageRecent s page = false →
      (s.get F.nvProt_bp = 3 → Runs (.dirWriteThrough page) s (fun t => t.on F.dirStat_unsaved = true ∧ t.get (evField 69 12) = 1 ∧
        t.dir = { s.dir with gathered := s.dir.gathered.filter (· != page) })) ∧
      (NvTakes s true (.raw (0x60000 + 128 * page) (zeros 128)) → Runs (.dirWriteThrough page) s (fun t =>
        t.nv.ord = s.nv.ord ++ [nvJob (.raw (0x60000 + 128 * page) (dirPageBytes s page 12288)) false true 15 .none] ∧
        t.dir = { s.dir with gathered := s.dir.gathered.filter (· != page), pageTime := sput s.dir.pageTime page s.now }))) ∧
    (s.on F.dirStat_loading = true → s.on F.bsnStat_ready = true → Runs .dirLoad s (fun t => t = { s with dir := { s.dir with loadRun := true } })) ∧
    (s.dir.loadRun = true → s.dir.waits = [] → s.cld.txns = [] → s.cld.held = [] → s.prx.held = [] → (noNewWork s 20 = true ∨ s.rf.queue = []) → i < 12288 →
      let b := memRead s.nv.cells (0x60000 + 32 * i) 32
      Runs .dirLoadEnd s (fun t => t.on F.dirStat_loading = false ∧ t.get (evField 69 9) = 1 ∧ t.dir.cache = [] ∧ t.dir.loadRun = false ∧
        dirEntry t i = (if b ≠ zeros 32 ∧ leAt b 30 2 = crc16 (b.take 30) then entSeal (b.take 28) else zeros 64) ∧
        (b ≠ zeros 32 → leAt b 30 2 ≠ crc16 (b.take 30) → t.get (evField 69 10) = 1 ∧ t.get F.dirLost_count ≠ 0)))

/-- FEATURES accepts a choice of offered bits that takes bit 0 and otherwise fails and raises FEATURE; DRIVER_OK needs
FEATURES_OK and brings P8 up; a return to set-up clears the driver registers, disables every ring, frees every slot and
takes P8 down; a submission ring is enabled onto an enabled completion ring only, a completion or event ring from TAIL 0
with phase 1, and a ring of a feature not taken is not enabled, a disabled ring frees its slots; a doorbell moves TAIL
or HEAD and releases records, and one out of range is ignored and counted. (R494, R496, R497, R498, R499, R500, R501,
R517, R518, R520) -/
def Obligations.HostSetupRingsDoorbells : Prop :=
  ∀ (s : State) (src : Src) (n idx k : Nat) (v : W32),
    let drv := s.getW (W.idFeatDrv 0)
    let offered := (∀ j, j < 32 → drv.getLsbD j = true → (featDev s).testBit j = true) ∧ drv.getLsbD 0 = true ∧
      ∀ j, j < 3 → s.getW (W.idFeatDrv (j + 1)) = 0#32
    let on := v.getLsbD 4
    let i := idx % 4096
    let ignored := fun (t : State) => t.get F.hrCnt_dbIgn = min (2 ^ 16 - 1) (s.get F.hrCnt_dbIgn + 1) ∧ t.get (evField 104 0) = 1 ∧
      t.hst.slots = s.hst.slots ∧ t.hst.cqRecs = s.hst.cqRecs
    let releases := fun (size head have_ : Nat) => i < size ∧ k ≤ have_ ∧
      (if (i + size - head) % size = 0 ∧ have_ = size then k = size else k = (i + size - head) % size)
    let refuses := fun (size head have_ : Nat) => size ≤ i ∨ have_ < (i + size - head) % size
    let freed := fun (ring : Nat) (t : State) => ∀ x ∈ t.hst.slots, x.busy = true → x.ring ≠ ring
    (s.on F.idDrvstat_features = true → Runs .hostFeatures s (fun t => t = s)) ∧
    (s.on F.idDrvstat_features = false →
      (offered → Runs .hostFeatures s (fun t => t = (s.set F.idDrvstat_features 1).set F.idDrvstat_featuresOk 1)) ∧
      (¬ offered → Runs .hostFeatures s (fun t => t.on F.idDrvstat_features = true ∧ t.on F.idDrvstat_featureFail = true ∧
        t.on F.idDrvstat_featuresOk = s.on F.idDrvstat_featuresOk ∧ t.get (evField 107 0) = 1))) ∧
    (s.on F.idDrvstat_featuresOk = false → Runs .hostDriverOk s (fun t => t = s)) ∧
    (s.on F.idDrvstat_featuresOk = true →
      (portDown s 8 = false ∨ (s.hst.qspi = false ∧ s.hst.pcieUp = false) ∨ s.on (F.swPCtrl_en 8) = false →
        Runs .hostDriverOk s (fun t => t = s.set F.idDrvstat_driverOk 1)) ∧
      (portDown s 8 = true → s.hst.qspi = true ∨ s.hst.pcieUp = true → s.on (F.swPCtrl_en 8) = true →
        Runs .hostDriverOk s (fun t => t.on F.idDrvstat_driverOk = true ∧ portDown t 8 = false ∧ t.get (evField 106 0) = 1))) ∧
    (srcIsHost src = false → Runs (.hostDrvstatReset src) s (fun t => t = s)) ∧
    (srcIsHost src = true → Runs (.hostDrvstatReset src) s (fun t => portDown t 8 = true ∧ t.getW W.idDrvstat = 0#32 ∧
      (∀ j, j < 4 → t.getW (W.idFeatDrv j) = 0#32) ∧ t.on F.hrEqCfg_en = false ∧ t.hst.eqRecs = [] ∧ t.ev.held = [] ∧
      ∀ j, j < 16 → t.on (F.hrSqCfg_en j) = false ∧ t.on (F.hrCqCfg_en j) = false ∧ freed j t)) ∧
    (srcIsHost src = false ∨ (16 ≤ n ∧ k < 2) → Runs (.hostRingEnable src k n v) s (fun t => t = s)) ∧
    (srcIsHost src = true → s.hst.fenced = [] →
      (n < 16 → on = true → featOn s 0 = false ∨ (n ≠ 0 ∧ featOn s 2 = false) →
        (s.on (F.hrSqCfg_en n) = false → Runs (.hostRingEnable src 0 n v) s (fun t => t = s)) ∧
        (s.on (F.hrCqCfg_en n) = false → Runs (.hostRingEnable src 1 n v) s (fun t => t = s))) ∧
      (n < 16 → featOn s 0 = true → (n = 0 ∨ featOn s 2 = true) →
        (s.on (F.hrSqCfg_en n) = false → on = true → s.on (F.hrCqCfg_en (wBits v 11 8)) = true → Runs (.hostRingEnable src 0 n v) s (fun t =>
          t.on (F.hrSqCfg_en n) = true ∧ t.get (F.hrSqCfg_size n) = wBits v 3 0 ∧ t.get (F.hrSqCfg_cq n) = wBits v 11 8 ∧
          t.getW (W.hrSqStat n) = 0#32 ∧ bitOf (t.get (F.swPSdown_sub 8)) n = false)) ∧
        (s.on (F.hrSqCfg_en n) = false → on = true → s.on (F.hrCqCfg_en (wBits v 11 8)) = false → Runs (.hostRingEnable src 0 n v) s (fun t =>
          t.on (F.hrSqCfg_en n) = false ∧ t.get F.hrErrcode_cause = 5 ∧ t.get F.hrErrcode_ring = n ∧ t.get (evField 104 0) = 1)) ∧
        (s.on (F.hrCqCfg_en n) = false → on = true → Runs (.hostRingEnable src 1 n v) s (fun t => t.on (F.hrCqCfg_en n) = true ∧
          t.get (F.hrCqCfg_size n) = wBits v 3 0 ∧ t.get (F.hrCqCfg_irqEn n) = wBits v 5 5 ∧ t.get (F.hrCqCfg_vector n) = wBits v 12 8 ∧
          t.get (F.hrCqStat_tail n) = 0 ∧ t.get (F.hrCqStat_head n) = 0 ∧ t.get (F.hrCqStat_phase n) = 1 ∧ t.hst.cqRecs.getD n [] = []))) ∧
      (n < 16 → on = false →
        (s.on (F.hrSqCfg_en n) = true → Runs (.hostRingEnable src 0 n v) s (fun t => t.on (F.hrSqCfg_en n) = false ∧ freed n t ∧
          bitOf (t.get (F.swPSdown_sub 8)) n = true)) ∧
        (s.on (F.hrCqCfg_en n) = true → Runs (.hostRingEnable src 1 n v) s (fun t => t.on (F.hrCqCfg_en n) = false ∧
          ∀ j, j < 16 → s.get (F.hrSqCfg_cq j) = n → t.on (F.hrSqCfg_en j) = false))) ∧
      (s.on F.hrEqCfg_en = false → on = true → featOn s 3 = true → Runs (.hostRingEnable src 2 n v) s (fun t => t.on F.hrEqCfg_en = true ∧
        t.get F.hrEqCfg_size = wBits v 3 0 ∧ t.get F.hrEqCfg_irqEn = wBits v 5 5 ∧ t.get F.hrEqCfg_vector = wBits v 12 8 ∧
        t.get F.hrEqStat_tail = 0 ∧ t.get F.hrEqStat_head = 0 ∧ t.get F.hrEqStat_phase = 1 ∧ t.hst.eqRecs = [])) ∧
      (s.on F.hrEqCfg_en = true → on = false → Runs (.hostRingEnable src 2 n v) s (fun t => t.on F.hrEqCfg_en = false ∧ t.hst.eqRecs = [] ∧
        t.ev.held = []))) ∧
    (16 ≤ n ∨ s.on (F.hrSqCfg_en n) = false → Runs (.hostSqTailDoorbell n idx) s (fun t => t = s)) ∧
    (n < 16 → s.on (F.hrSqCfg_en n) = true →
      (i < sqEntries s n → Runs (.hostSqTailDoorbell n idx) s (fun t => t = s.set (F.hrSqStat_tail n) i)) ∧
      (sqEntries s n ≤ i → Runs (.hostSqTailDoorbell n idx) s (fun t => ignored t ∧ t.get (F.hrSqStat_tail n) = s.get (F.hrSqStat_tail n)))) ∧
    (s.hst.fenced = [] → 16 ≤ n ∨ s.on (F.hrCqCfg_en n) = false → Runs (.hostCqHeadDoorbell n idx) s (fun t => t = s)) ∧
    (s.hst.fenced = [] → n < 16 → s.on (F.hrCqCfg_en n) = true →
      let have_ := (s.hst.cqRecs.getD n []).length
      (releases (cqEntries s n) (s.get (F.hrCqStat_head n)) have_ → s.hst.cplWait = [] → Runs (.hostCqHeadDoorbell n idx) s (fun t =>
        t.get (F.hrCqStat_head n) = i ∧ t.hst = { s.hst with cqRecs := s.hst.cqRecs.modify n fun l => l.drop k } ∧
        t = { s with regs := t.regs, hst := t.hst })) ∧
      (refuses (cqEntries s n) (s.get (F.hrCqStat_head n)) have_ → Runs (.hostCqHeadDoorbell n idx) s (fun t => ignored t ∧
        t.get (F.hrCqStat_head n) = s.get (F.hrCqStat_head n)))) ∧
    (s.on F.hrEqCfg_en = false → Runs (.hostEventHeadDoorbell idx) s (fun t => t = s)) ∧
    (s.on F.hrEqCfg_en = true →
      (releases (eqEntries s) (s.get F.hrEqStat_head) s.hst.eqRecs.length → s.ev.held = [] → Runs (.hostEventHeadDoorbell idx) s (fun t =>
        t = { s.set F.hrEqStat_head i with hst := { s.hst with eqRecs := s.hst.eqRecs.drop k } })) ∧
      (refuses (eqEntries s) (s.get F.hrEqStat_head) s.hst.eqRecs.length → Runs (.hostEventHeadDoorbell idx) s (fun t => ignored t ∧
        t.get F.hrEqStat_head = s.get F.hrEqStat_head)))

/-- With P8 up, the engine takes the next descriptor of the ring whose turn it is into the lowest free slot with the
next generation, and moves HEAD and the rotation on; a descriptor that fails its checks completes BAD_DESCRIPTOR, one
without its input DMA_ERROR, a fenced one behind others waits; otherwise its opcode sends the frame of Table 14.5 under
the slot's tag, and NOP, and the stop and start of this device's switch, complete directly. (R502, R503, R504, R505,
R507, R509, R510, R511, R512, R523, R524, R600) -/
def Obligations.HostDescriptors : Prop :=
  ∀ (s : State) (desc : List Byte) (input : Option (List Byte)) (n k : Nat) (p : List Byte) (v : State),
    let d := descBytes s n desc
    let op := D.op d
    let buf := descBuffer s d input
    let x : OpSlot := ⟨true, (slotAt s k).gen % 63 + 1, n, op, (D.flags d).testBit 0, leAt d 4 4, D.outAddr d, D.outLen d, 0⟩
    let h := s.set (F.hrSqStat_head n) ((s.get (F.hrSqStat_head n) + 1) % sqEntries s n)
    let u := { h with hst := { h.hst with slots := s.hst.slots.set k x, rrNext := (n + 1) % 16 } }
    let all := (List.range 12).map fun j => (j, [Instr.hostNop, .hostFrame, .hostRegRead, .hostRegWrite, .hostConfigStop, .hostConfigStart,
      .hostReleaseReq, .hostReleaseEnd, .hostToken, .hostLedgerReport, .hostFwExt, .hostDescriptorFetch].getD j .hostNop desc input)
    let meant := fun (j : Nat) => if j < 10 then op = j else if j = 10 then 0x20 ≤ op ∧ op ≤ 0x3F else True
    let taken := portDown s 8 = false ∧ fetchRing s = some n ∧ s.hst.slots.findIdx? (fun y => !y.busy) = some k ∧ s.hst.fenced = []
    let fenced := (D.flags d).testBit 1 = true ∧ fenceHeld u k = true
    let starts := taken ∧ descOk u d = true ∧ ¬ fenced ∧ descInput d buf = some p
    let sent := fun (typ cls dport dsub : Nat) (payload : List Byte) => swIngress u 8 n (thisDev s) true
      { mkFrame typ cls dport dsub (D.dev d) (k + 64 * n + 1024 * x.gen) payload with mc := (D.flags d).testBit 5, mgrp := leAt d 12 1 }
    let ofs := leAt d 48 4
    let blk := leAt d 48 1
    let ms := if leAt d 50 2 = 0 then 1000 else leAt d 50 2
    let mgmt := fun (o value wait : Nat) => [byte o, 0#8, 0#8, 0#8] ++ leBytes 4 (if o ≤ 2 then ofs else 0) ++ leBytes 4 value ++
      leBytes 2 wait ++ zeros 2
    let here := blk = 12 ∧ D.dev d = thisDev s
    (∀ q ∈ all,
      (portDown s 8 = true ∨ fetchRing s = none ∨ s.hst.slots.all (fun y => y.busy) = true → Runs q.2 s (fun t => t = s)) ∧
      (fetchRing s = some n → ¬ meant q.1 → Runs q.2 s (fun t => t = s)) ∧
      (taken → meant q.1 →
        (descOk u d = false → Runs q.2 s (fun t => t = recordDirect u k St.badDescriptor)) ∧
        (descOk u d = true → fenced → Runs q.2 s (fun t => t = { u with hst := { u.hst with fenced := [(k, d, buf)] } })) ∧
        (descOk u d = true → ¬ fenced → descInput d buf = none → Runs q.2 s (fun t => t = recordDirect u k St.dmaError)))) ∧
    (starts → ∀ q ∈ all, meant q.1 →
      (op = 0 → Runs q.2 s (fun t => t = recordDirect u k St.ok)) ∧
      (op = 1 → Runs q.2 s (fun t => t = sent (leAt d 8 1) (D.cls d) (natBits (leAt d 9 1) 3 0) (leAt d 10 1) p)) ∧
      (op = 2 → Runs q.2 s (fun t => t = sent 0x10 3 15 (offBlk ofs) (mgmt 1 0 0))) ∧
      (op = 3 → Runs q.2 s (fun t => t = sent 0x10 3 15 (offBlk ofs) (mgmt 2 (leAt d 52 4) 0))) ∧
      (op = 4 → ¬ here → Runs q.2 s (fun t => t = sent 0x10 3 15 blk (mgmt 3 0 ms))) ∧
      (op = 4 → here → isStopped s 12 = true → Runs q.2 s (fun t => t = recordDirect u k St.ok)) ∧
      (op = 4 → here → isStopped s 12 = false → Runs q.2 s (fun t => isStopping t 12 = true ∧
        t.stops.waits = s.stops.waits ++ [⟨12, none, some k, ms, s.now, 0⟩] ∧ t = { u with stops := t.stops })) ∧
      (op = 5 → ¬ here → Runs q.2 s (fun t => t = sent 0x10 3 15 blk (mgmt 4 0 0))) ∧
      (op = 5 → here → swStartOp u = (true, v) → Runs q.2 s (fun t => t = stopWaitsEnd (recordDirect v k St.ok) 12 St.cfgReject)) ∧
      (op = 5 → here → swStartOp u = (false, v) → Runs q.2 s (fun t => t = recordDirect v k St.cfgReject)) ∧
      (op = 6 → Runs q.2 s (fun t => t = sent 0x0C 1 14 0 ([1#8] ++ zeros 7))) ∧
      (op = 7 → Runs q.2 s (fun t => t = sent 0x0C 1 14 0 ([2#8] ++ zeros 7))) ∧
      (op = 8 → Runs q.2 s (fun t => t = sent 0x09 1 14 1 p)) ∧
      (op = 9 → Runs q.2 s (fun t => t = sent 0x0C 1 14 1 ([3#8] ++ zeros 7 ++ slice d 48 16))) ∧
      (0x10 ≤ op → op ≤ 0x17 → Runs q.2 s (fun t => t = sent 0x41 1 15 40 p)) ∧
      (0x20 ≤ op → op ≤ 0x3F → Runs q.2 s (fun t => t = sent op (D.cls d) 12 0 p)))

/-- A malformed MGMT frame completes BAD_DESCRIPTOR; READ and WRITE answer the word, READ of a random number port when
its bits are there, a write with a refused field CFG_REJECT; STOP completes OK when the block is stopped or TIMEOUT,
START restarts it; a completion frame becomes one 32-byte record after its output bytes (OUT_LEN 0 truncates nothing: the
model's reading, log entry 155), is counted when stale and waits at a full ring; a failed DMA stops the ring or disables the CQ; a reset returns the interface to set-up; QSPI
transactions move words of the registers, doorbells and ring window, and RDSR reads and clears ERR. (R23, R490, R491,
R492, R505, R506, R511, R513, R523, R526, R527) -/
def Obligations.HostStopsRecordsAndQspi : Prop :=
  ∀ (s u : State) (req : Req) (payload bs : List Byte) (sub n : Nat) (w : StopWait) (f : Frame) (word : W32) (ws : List W32) (gap cut write : Bool),
    let ofs := leAt payload 4 4
    let src := mgmtSrc req
    let done := fun (op st : Nat) (x : W32) (v : State) => complete v 15 sub req 0x10
      ([byte st, byte op, 0#8, 0#8] ++ leBytes 4 ofs ++ leBytes 4 x.toNat)
    let mgmt := [(1, Instr.hostMgmtRead req sub payload), (2, .hostMgmtWrite req sub payload), (3, .hostMgmtStop req sub payload),
      (4, .hostMgmtStart req sub payload)]
    let ms := if leAt payload 12 2 = 0 then 1000 else leAt payload 12 2
    let ended := fun (st : Nat) (v t : State) =>
      (∀ r, w.req = some r → t = complete v 15 w.blk r 0x10 ([byte st, 3#8, 0#8, 0#8] ++ leBytes 4 w.ofs ++ leBytes 4 0)) ∧
      (∀ k, w.req = none → w.slot = some k → t = recordDirect v k st) ∧ (w.req = none → w.slot = none → t = v)
    let x := slotAt s (f.optag % 64)
    let gen := f.optag / 1024 % 64
    let cq := s.get (F.hrSqCfg_cq sub)
    let full := cqEntries s cq ≤ (s.hst.cqRecs.getD cq []).length
    let st := leAt f.payload 0 1
    let tail := s.get (F.hrCqStat_tail cq)
    let phase := s.get (F.hrCqStat_phase cq)
    let fits := ¬ full ∧ tail < cqEntries s cq
    let room := x.outLen - x.outPos
    let out := min room f.payload.length
    let more := f.typ == 0x85 && (leAt f.payload 3 1).testBit 2
    let data := memWrite s.hst.mem (x.outAddr + x.outPos) (f.payload.take out)
    let writes := fun (mem : List Host.Cell) (op tag flags htoken bytes dev : Nat) (result : List Byte) (wants : Bool) (slots : List OpSlot) (t : State) =>
      let irq := s.on (F.hrCqCfg_irqEn cq) && wants
      let rec32 := [byte st, byte op, byte tag, byte (flags + phase)] ++ leBytes 4 htoken ++ leBytes 4 bytes
        ++ leBytes 2 (s.get (F.hrSqStat_head sub)) ++ [byte sub, byte dev] ++ fit 16 result
      t.hst = { s.hst with
        slots, cqRecs := s.hst.cqRecs.modify cq fun l => l ++ [irq]
        mem := memWrite mem (base64 (s.getW (W.hrCqBaseLo cq)) (s.getW (W.hrCqBaseHi cq)) 32 + 32 * tail) rec32
        msi := if irq && !s.hst.qspi then s.hst.msi ++ [s.get (F.hrCqCfg_vector cq)] else s.hst.msi } ∧
      t.get (F.hrCqStat_tail cq) = (if tail + 1 = cqEntries s cq then 0 else tail + 1) ∧
      t.get (F.hrCqStat_phase cq) = (if tail + 1 = cqEntries s cq then 1 - phase else phase) ∧ t = { s with regs := t.regs, hst := t.hst }
    let freed := s.hst.slots.modify (f.optag % 64) fun y => { y with busy := false }
    let err := { s with hst := { s.hst with rdsrErr := true } }
    let setUp := fun (t : State) => portDown t 8 = true ∧ t.getW W.idDrvstat = 0#32 ∧ t.on F.hrEqCfg_en = false ∧
      ∀ j, j < 16 → t.on (F.hrSqCfg_en j) = false ∧ t.on (F.hrCqCfg_en j) = false
    let a := ofs % 2 ^ 24
    let at_ := fun (k : Nat) => BitVec.ofNat 32 (leNat (memRead s.hst.mem (a - 0x20000 + 4 * k) 4))
    let reads := [Instr.hostQspiRead ofs n gap, .hostQread ofs n gap]
    let puts := fun (l : List W32) (c : Bool) => [Instr.hostQspiWrite ofs l c, .hostQwrite ofs l c]
    let ready := s.hst.qspi = true ∧ regOpen s = true ∧ ofs % 4 = 0
    (s.stops.waits[n]? = none → Runs (.hostConfigStopTimeout n) s (fun t => t = s)) ∧
    (s.stops.waits[n]? = some w → s.hst.fenced = [] → Runs (.hostConfigStopTimeout n) s
      (ended St.timeout { s with stops := { s.stops with waits := s.stops.waits.eraseIdx n } })) ∧
    (∀ q ∈ mgmt, mgmtOk req sub q.1 payload = false ∨ (q.1 ≤ 2 ∧ mgmtOfsOk sub ofs = false) ∨ (3 ≤ q.1 ∧ stoppable sub = false) →
      Runs q.2 s (fun t => t = complete s 15 sub req 0x10
        ([byte St.badDescriptor, byte (leAt payload 0 1), 0#8, 0#8] ++ leBytes 4 ofs ++ leBytes 4 0))) ∧
    (mgmtOk req sub 1 payload = true → mgmtOfsOk sub ofs = true → ofs ≠ W.rngData → ofs ≠ W.rngRaw → regReadFx src s ofs = (word, u) →
      Runs (.hostMgmtRead req sub payload) s (fun t => t = done 1 St.ok word u)) ∧
    (∀ raw ∈ [false, true], mgmtOk req sub 1 payload = true → mgmtOfsOk sub ofs = true → ofs = (if raw then W.rngRaw else W.rngData) →
      (rngWord s raw ((rngPortInst req.port).getD 4) = some (bs, u) → Runs (.hostMgmtRead req sub payload) s (fun t =>
        t = done 1 St.ok (BitVec.ofNat 32 (leNat bs)) u)) ∧
      (rngWord s raw ((rngPortInst req.port).getD 4) = none → Runs (.hostMgmtRead req sub payload) s (fun t =>
        t = { s with rng := { s.rng with waits := s.rng.waits ++ [.mgmt req sub ofs raw] } }))) ∧
    (mgmtOk req sub 2 payload = true → mgmtOfsOk sub ofs = true →
      let v := regWrite src s ofs (BitVec.ofNat 32 (leAt payload 8 4))
      Runs (.hostMgmtWrite req sub payload) s (fun t =>
        t = done 2 (if v.hst.rejNo = s.hst.rejNo then St.ok else St.cfgReject) (regRead src v ofs) v)) ∧
    (mgmtOk req sub 3 payload = true → stoppable sub = true →
      (isStopped s sub = true → Runs (.hostMgmtStop req sub payload) s (fun t => t = done 3 St.ok 0#32 s)) ∧
      (isStopped s sub = false → Runs (.hostMgmtStop req sub payload) s (fun t => isStopping t sub = true ∧
        t.stops.waits = s.stops.waits ++ [⟨sub, some req, none, ms, s.now, ofs⟩] ∧ t = { s with stops := t.stops }))) ∧
    (mgmtOk req sub 4 payload = true → stoppable sub = true →
      (noNewWork s sub = false → Runs (.hostMgmtStart req sub payload) s (fun t => t = done 4 St.ok 0#32 s)) ∧
      (sub ∈ [26, 32, 38] → noNewWork s sub = true → s.stops.waits = [] → s.hst.fenced = [] → Runs (.hostMgmtStart req sub payload) s (fun t =>
        t = done 4 St.ok 0#32 { s with stops := { s.stops with stopping := s.stops.stopping.filter (· != sub)
                                                               stopped := s.stops.stopped.filter (· != sub) } }))) ∧
    (isStopping s sub = false ∨ blkIdle s sub = false → Runs (.blockStopped sub) s (fun t => t = s)) ∧
    (isStopping s sub = true → blkIdle s sub = true → s.stops.waits = [w] → w.blk = sub → s.hst.fenced = [] → Runs (.blockStopped sub) s
      (ended St.ok { s with stops := ⟨s.stops.stopping.filter (· != sub), s.stops.stopped ++ [sub], []⟩ })) ∧
    (s.hst.fenced = [] →
      (16 ≤ sub ∨ (f.typ ≠ 0 ∧ f.typ < 0x80) → Runs (.hostCompletionRecord sub f) s (fun t => t = s)) ∧
      (sub < 16 → 0x80 ≤ f.typ →
        (gen ≠ 0 → x.busy = false ∨ x.gen ≠ gen ∨ x.ring ≠ sub → Runs (.hostCompletionRecord sub f) s (fun t => t = s.bump F.hrCnt_staleCpl 1)) ∧
        (gen = 0 → f.typ ≠ 0x81 → Runs (.hostCompletionRecord sub f) s (fun t => t = s.bump F.hrCnt_staleCpl 1)) ∧
        (s.on (F.hrSqCfg_en sub) = false → (gen = 0 ∧ f.typ = 0x81) ∨ (gen ≠ 0 ∧ x.busy = true ∧ x.gen = gen ∧ x.ring = sub) →
          Runs (.hostCompletionRecord sub f) s (fun t => t = s))) ∧
      (sub < 16 → s.on (F.hrSqCfg_en sub) = true →
        (s.hst.cplWait = [] → 0x80 ≤ f.typ → gen ≠ 0 → x.busy = true → x.gen = gen → x.ring = sub →
          (full → Runs (.hostCompletionRecord sub f) s (fun t => t = { s with hst := { s.hst with cplWait := [(sub, f)] } })) ∧
          (fits → more = false → Runs (.hostCompletionRecord sub f) s (writes data x.opcode (f.optag % 64)
            (2 * b2n (x.outLen != 0 && decide (room < f.payload.length))) x.htoken out f.dev (f.payload.take 16) x.irq freed)) ∧
          (fits → more = true → Runs (.hostCompletionRecord sub f) s (writes data x.opcode (f.optag % 64)
            (2 * b2n (x.outLen != 0 && decide (room < f.payload.length)) + 4) x.htoken out f.dev (f.payload.take 16) x.irq
            (s.hst.slots.modify (f.optag % 64) fun y => { y with outPos := y.outPos + out })))) ∧
        (s.hst.cplWait = [] → fits → f.typ = 0x81 → gen = 0 → Runs (.hostCompletionRecord sub f) s
          (writes s.hst.mem 0xFF 0 16 0 0 f.dev (f.payload.take 16) true s.hst.slots)) ∧
        (s.hst.cplWait = [] → fits → f.typ = 0 → x.busy = true → x.gen = gen → x.ring = sub → Runs (.hostCompletionRecord sub f) s
          (writes s.hst.mem x.opcode (f.optag % 64) 8 x.htoken 0 (thisDev s) [] (x.irq || st != 0) freed)))) ∧
    (s.hst.qspi = true ∨ 16 ≤ n → Runs (.hostDmaFail write n) s (fun t => t = s)) ∧
    (s.hst.qspi = false → n < 16 →
      (s.on (F.hrSqCfg_en n) = true → Runs (.hostDmaFail false n) s (fun t => t.on (F.hrSqStat_err n) = true ∧ t.get F.hrErrcode_cause = 2 ∧
        t.get F.hrErrcode_ring = n ∧ t.get (evField 104 0) = 1)) ∧
      (s.on (F.hrCqCfg_en n) = true → Runs (.hostDmaFail true n) s (fun t => t.on (F.hrCqCfg_en n) = false ∧ t.get F.hrErrcode_cause = 3 ∧
        t.get F.hrErrcode_ring = n ∧ t.get (evField 104 0) = 1 ∧ ∀ j, j < 16 → s.get (F.hrSqCfg_cq j) = n → t.on (F.hrSqCfg_en j) = false))) ∧
    (s.hst.qspi = true ∨ 3 ≤ n → Runs (.hostIfReset n) s (fun t => t = s)) ∧
    (s.hst.qspi = false → n < 3 → Runs (.hostIfReset n) s (fun t => setUp t ∧
      t.hst.pcieUp = (s.hst.pcieUp && n == 2) ∧ t.hst.perstN = (s.hst.perstN && n != 0))) ∧
    (s.hst.qspi = true ∨ s.hst.perstN = false → Runs .hostPcieLinkUp s (fun t => t = s)) ∧
    (s.hst.qspi = false → s.hst.perstN = true →
      (s.on F.idDrvstat_driverOk = false → Runs .hostPcieLinkUp s (fun t => t = { s with hst := { s.hst with pcieUp := true } })) ∧
      (s.on F.idDrvstat_driverOk = true → portDown s 8 = true → s.on (F.swPCtrl_en 8) = true → Runs .hostPcieLinkUp s (fun t =>
        t.hst.pcieUp = true ∧ portDown t 8 = false ∧ t.get (evField 106 0) = 1))) ∧
    (∀ c ∈ reads ++ puts ws cut,
      (s.hst.qspi = false ∨ (s.on F.clkStat_cfgDone = true ∧ regOpen s = false) → Runs c s (fun t => t = s)) ∧
      (s.hst.qspi = true → s.on F.clkStat_cfgDone = false ∨ (regOpen s = true ∧ ofs % 4 ≠ 0) → Runs c s (fun t => t = err))) ∧
    (ready → ∀ c ∈ reads,
      (0x20000 ≤ a → a + 4 * n ≤ 0x30000 → Runs c s (fun t => t = { s with hst := { s.hst with qsOut := (List.range n).map at_ } })) ∧
      (n = 1 → 0x10000 ≤ a → a < 0x20000 ∨ 0x30000 ≤ a → Runs c s (fun t => t = { s with hst := { s.hst with qsOut := [0#32] } })) ∧
      (n = 1 → a < 0x10000 → regReadFx .host s a = (word, u) →
        (gap = true → Runs c s (fun t => t = { u with hst := { u.hst with qsOut := [word] } })) ∧
        (gap = false → Runs c s (fun t => ∃ x, t = { u with free := u.free + 1, hst := { u.hst with qsOut := [x] } })))) ∧
    (ready → ∀ c ∈ puts [word] false,
      (a < 0x10000 → Runs c s (fun t => t = regWrite .host s a word)) ∧
      (a % 8 = 0 → 0x10000 ≤ a → a < 0x10080 → Runs c s (fun t => t = sqDoorbell s ((a - 0x10000) / 8) word.toNat)) ∧
      (a % 8 = 4 → 0x10000 ≤ a → a < 0x10080 → Runs c s (fun t => t = fenceRun (cqDoorbell s ((a - 0x10000) / 8) word.toNat))) ∧
      (a = 0x10100 → Runs c s (fun t => t = eqDoorbell s word.toNat)) ∧
      (0x20000 ≤ a → a < 0x30000 → Runs c s (fun t =>
        t = { s with hst := { s.hst with mem := memWrite s.hst.mem (a - 0x20000) (leBytes 4 word.toNat) } })) ∧
      ((0x10080 ≤ a ∧ a < 0x20000 ∧ a ≠ 0x10100) ∨ 0x30000 ≤ a → Runs c s (fun t => t = s))) ∧
    (ready → ∀ c ∈ puts [] true, Runs c s (fun t => t = err)) ∧
    (s.hst.qspi = false → Runs .hostRdsr s (fun t => t = s)) ∧
    (s.hst.qspi = true → Runs .hostRdsr s (fun t => t = { s with hst := { s.hst with
      rdsrErr := false
      qsOut := [BitVec.ofNat 32 (b2n (!s.on F.clkStat_cfgDone) + 2 * b2n (qsIrq s) + 4 * b2n s.hst.rdsrErr)] } }))

/-- A trained link comes up with its peer's role and ID, a lost one takes its port down and marks its ring link; a cell
received in order is acknowledged and joins its frame, one out of order, damaged or stomped does not; ACK releases
cells, NAK and the timeout replay and the fourth replay loses the link; CRED returns credit; LSTAT is applied once and
relayed three times; ENUM gives a member its ID and closes the ring at the head; an idle slot is released. (R535, R536,
R538, R539, R540, R541, R543, R544, R546, R547, R552, R555) -/
def Obligations.CascadeLinks : Prop :=
  ∀ (s : State) (l role id dir n : Nat) (hdr data crc : List Byte) (endd up : Bool) (req : Req) (x : PlSlot),
    let k := plLink s l
    let o := plLink s (1 - l)
    let c := plCellOf hdr data
    let bs := (if c.first then [] else k.rx.getD c.cls []) ++ c.data
    let org := if c.first then c.origin else k.rxOrg.getD c.cls 0
    let up1 := l < 2 ∧ plUp s l = true ∧ s.pl.links.length = 2
    let setL := fun (y : PlLink) => { s with pl := { s.pl with links := s.pl.links.modify l fun _ => y } }
    let good := plCrcOk hdr data crc
    let takes := up1 ∧ good = true ∧ c.lseq = k.rxSeq ∧ plHeld s l c.cls = false ∧ k.rx.length = 4 ∧ k.rxOrg.length = 4 ∧ k.freed.length = 4
    let mine := plInRing s = false ∨ leAt bs 7 1 % 64 = thisDev s
    let dev := leAt (if c.first then data else k.rx.getD c.cls []) 7 1 % 64
    let through := c.lseq = k.rxSeq ∧ dev ≠ thisDev s ∧ plHeld s l c.cls = false ∧ o.fwding = none ∧ o.credit.getD c.cls 0 ≠ 0 ∧
      (∀ y ∈ o.waiting, y.cls ≠ c.cls) ∧ o.open_.getD c.cls 0 = (if c.first then 0 else 2) ∧ (c.first = true ∨ k.brk.getD c.cls false = false)
    let replays := fun (y : PlLink) (t : State) => t = (setL { y with replays := y.replays + 1, sent := y.sent ++ y.unacked.map fun z => .cell (plWire z) }).bump F.plCnt0_replay 1
    (2 ≤ l ∨ plUp s l = true ∨ plRuns s = false → Runs (.plLinkUp l role id) s (fun t => t = s)) ∧
    (l < 2 → plUp s l = false → plRuns s = true → role < 4 → id < 64 → Runs (.plLinkUp l role id) s (fun t => plUp t l = true ∧
      t.get (plPeerF l) = id ∧ t.get (plPeerRoleF l) = role ∧ t.get (evField (108 + l) 0) = 1 ∧
      (s.on (F.swPCtrl_en (9 + l)) = true → portDown t (9 + l) = false) ∧
      (s.pl.links.length = 2 → plInRing s = false → plRole s = 1 → s.pl.enumed = false → l = 1 → t.on F.plStat_enumerating = true ∧
        (plLink t 1).sent = k.sent ++ [.enum 1 0 false (plNdevCfg s)]))) ∧
    (2 ≤ l ∨ plUp s l = false → Runs (.plLinkDown l) s (fun t => t = s) ∧ Runs (.plCellReceived l hdr data crc up) s (fun t => t = s) ∧
      Runs (.plCred l dir n) s (fun t => t = s) ∧ Runs (.plLstat l n up) s (fun t => t = s) ∧ Runs (.plSocReceived l hdr data) s (fun t => t = s)) ∧
    (up1 →
      Runs (.plLinkDown l) s (fun t => plUp t l = false ∧ portDown t (9 + l) = true ∧ t.get (evField (108 + l) 0) = 1 ∧
        plLink t l = { PlLink.fresh with sent := k.sent } ∧
        t.get F.plCnt1_unacked = min (2 ^ 16 - 1) (s.get F.plCnt1_unacked + (k.unacked.filter fun y => y.last).length) ∧
        (plInRing s = true → t.pl.down.contains (plLinkNo s l) = true)) ∧
      (o.fwding = none →
        Runs (.plCellReceived l hdr data crc true) s (fun t => t = s) ∧
        (good = false → Runs (.plCellReceived l hdr data crc false) s (fun t =>
          t = (setL { k with sent := k.sent ++ [.nak k.rxSeq] }).bump F.plCnt0_crcerr 1)) ∧
        (good = true → c.lseq ≠ k.rxSeq → Runs (.plCellReceived l hdr data crc false) s (fun t => t = s))) ∧
      (good = true → c.lseq = k.rxSeq → plHeld s l c.cls = true → Runs (.plCellReceived l hdr data crc false) s (fun t =>
        t = setL { k with rxSeq := (k.rxSeq + 1) % 256, sent := k.sent ++ [.ack c.lseq], held := k.held ++ [c] }))) ∧
    (takes →
      Runs (.plCellReceived l hdr data crc false) s (fun t => (plLink t l).rxSeq = (k.rxSeq + 1) % 256 ∧ .ack c.lseq ∈ (plLink t l).sent) ∧
      (mine → c.last = false → Runs (.plCellReceived l hdr data crc false) s (fun t => t = setL { k with
        rxSeq := (k.rxSeq + 1) % 256
        rx := k.rx.set c.cls bs
        rxOrg := if c.first then k.rxOrg.set c.cls c.origin else k.rxOrg
        freed := k.freed.modify c.cls fun y => (y + 1) % 256
        sent := k.sent ++ [.ack c.lseq, .cred c.cls ((k.freed.getD c.cls 0 + 1) % 256)] })) ∧
      (mine → c.last = true → hdrOk bs = true → noNewWork s 36 = false → 0x80 ≤ (frameOf bs).typ ∨ (frameOf bs).typ = 0x40 →
        Runs (.plCellReceived l hdr data crc false) s (fun t =>
          ∃ p, t.sw = (swIngress { s with pl := p } (9 + l) 255 org (hdrRsvOk bs) (frameOf bs)).sw)) ∧
      (mine → c.last = true → hdrOk bs = false → Runs (.plCellReceived l hdr data crc false) s (fun t =>
        t.sw = s.sw ∧ t.get (evField (63 + l) 8) = 1 ∧ t.get F.swCnt0_hcrc = min (2 ^ 16 - 1) (s.get F.swCnt0_hcrc + 1)))) ∧
    (up1 → plUp s (1 - l) = true → plInRing s = true →
      (through → Runs (.plSocReceived l hdr data) s (fun t => t = { s with pl := { s.pl with links := s.pl.links.modify (1 - l) fun y =>
        { y with fwding := some c.cls, credit := y.credit.modify c.cls (· - 1) } } })) ∧
      (¬ through → Runs (.plSocReceived l hdr data) s (fun t => t = s))) ∧
    ((∀ y ∈ k.unacked, y.lseq ≠ n) → Runs (.plAck l n) s (fun t => t = s) ∧ Runs (.plNak l n) s (fun t => t = s)) ∧
    (up1 →
      (k.unacked.findIdx? (fun y => y.lseq == n) = some id →
        Runs (.plAck l n) s (fun t => t = setL { k with unacked := k.unacked.drop (id + 1), replays := 0 }) ∧
        ((if id = 0 then k.replays else 0) < 3 → Runs (.plNak l n) s
          (replays { k with unacked := k.unacked.drop id, replays := if id = 0 then k.replays else 0 })) ∧
        (3 ≤ (if id = 0 then k.replays else 0) → Runs (.plNak l n) s (fun t => plUp t l = false ∧ portDown t (9 + l) = true))) ∧
      (k.unacked = [] → Runs (.plReplayTimeout l) s (fun t => t = s)) ∧
      (k.unacked ≠ [] → k.replays < 3 → Runs (.plReplayTimeout l) s (replays k)) ∧
      (k.unacked ≠ [] → 3 ≤ k.replays → Runs (.plReplayTimeout l) s (fun t => plUp t l = false ∧ portDown t (9 + l) = true)) ∧
      (dir < 4 → k.waiting = [] → Runs (.plCred l dir n) s (fun t => t = setL { k with
        credit := k.credit.modify dir (· + (n + 256 - k.credIn.getD dir 0) % 256), credIn := k.credIn.set dir (n % 256) })) ∧
      (plInRing s = false ∨ (up = s.pl.down.contains n → False) → Runs (.plLstat l n up) s (fun t => t = s)) ∧
      (plInRing s = true → up = s.pl.down.contains n → Runs (.plLstat l n up) s (fun t => t.get (evField 110 0) = 1 ∧
        t.pl.down = (if up then s.pl.down.filter (· != n) else n :: s.pl.down) ∧
        (plUp s (1 - l) = true → (plLink t (1 - l)).sent = o.sent ++ List.replicate 3 (.lstat n up))))) ∧
    (2 ≤ l ∨ plRole s = 0 ∨ plUp s l = false → Runs (.plEnum l id dir endd n) s (fun t => t = s)) ∧
    (up1 → plRole s = 2 →
      Runs (.plEnum l id dir true n) s (fun t => t = plSend s (1 - l) (.enum id dir true n)) ∧
      (id = 0 ∨ n ≤ id → Runs (.plEnum l id dir false n) s (fun t => t.get F.plStat_fault = 4 ∧ t.get (evField 111 0) = 1)) ∧
      (0 < id → id < n → n ≤ 64 → (s.pl.hasId = true ∧ id = thisDev s) ∨ l ≠ dir → Runs (.plEnum l id dir false n) s (fun t => t = s)) ∧
      (0 < id → id < n → n ≤ 64 → l = dir → s.pl.hasId = false ∨ id ≠ thisDev s → Runs (.plEnum l id dir false n) s (fun t =>
        thisDev t = id ∧ plNdev t = n ∧ t.on F.plStat_ringOk = true ∧ t.pl.hasId = true ∧ t.get (evField 110 0) = 1 ∧
        (plUp s (1 - l) = true → .enum (if dir = 0 then id + 1 else id - 1) dir false n ∈ (plLink t (1 - l)).sent) ∧
        (plUp s (1 - l) = false → .enum id dir true n ∈ (plLink t l).sent)))) ∧
    (up1 → plRole s = 1 →
      (s.on F.plStat_enumerating = false → Runs (.plEnum l id dir endd n) s (fun t => t.get F.plStat_fault = 1 ∧ t.get (evField 111 0) = 1)) ∧
      (s.on F.plStat_enumerating = true → l = 0 → dir = 0 → Runs (.plEnum l id dir false n) s (fun t =>
        t.on F.plStat_enumerating = false ∧ t.on F.plStat_ringOk = true ∧ plNdev t = plNdevCfg s ∧ t.get (evField 110 0) = 1 ∧
        (id ≠ plNdevCfg s → t.get F.plStat_fault = 2 ∧ t.get (evField 111 0) = 1)))) ∧
    (s.on F.plStat_enumerating = false → Runs .plEnumTimeout s (fun t => t = s)) ∧
    (s.on F.plStat_enumerating = true → Runs .plEnumTimeout s (fun t => t.on F.plStat_enumerating = false ∧ t.get F.plStat_fault = 3 ∧
      t.get (evField 111 0) = 1 ∧ t.pl = s.pl)) ∧
    (sget s.pl.slots n = none ∨ (sget s.pl.slots n = some x ∧ x.open_ ≠ 0) → Runs (.plSlotRelease n) s (fun t => t = s)) ∧
    (sget s.pl.slots n = some x → x.open_ = 0 → s.pl.slotWait = [] → (plLink s 0).held = [] → (plLink s 1).held = [] →
      Runs (.plSlotRelease n) s (fun t => t = { s with pl := { s.pl with slots := sdel s.pl.slots n } }.set F.plSlots_bound (sdel s.pl.slots n).length)) ∧
    Runs (.plEventFwd req data) s (fun t => t = eqPost s ⟨leAt data 0 1, leAt data 1 1 % 64, (leAt data 3 1).testBit 0, leAt data 2 1,
      leAt data 4 4, leAt data 8 4, leAt data 12 4⟩) ∧
    (plRole s ≠ 1 → Runs .plEnumCmd s (fun t => t = s) ∧ Runs .plReroute s (fun t => t = s)) ∧
    (plRole s = 1 →
      (plUp s 1 = true → Runs .plEnumCmd s (fun t => t = plSend { s.set F.plStat_enumerating 1 with
        pl := { s.pl with enumed := true, enumDn := false, enumUp := false } } 1 (.enum 1 0 false (plNdevCfg s)))) ∧
      (plUp s 1 = false → plUp s 0 = false → Runs .plEnumCmd s (fun t => t.on F.plStat_enumerating = false ∧ t.on F.plStat_ringOk = true ∧
        plNdev t = plNdevCfg s)) ∧
      (plInRing s = true → n < plNdev s → n < 64 → n ≠ thisDev s → Runs .plReroute s (fun t =>
        plRoute t n = (plChoose s true n).map (9 + ·) ∧ t.pl = s.pl))) ∧
    Runs .plClrCnt s (fun t => t.getW W.plCnt0 = 0#32 ∧ t.getW W.plCnt1 = 0#32 ∧ t.get F.plSlots_waits = 0 ∧ t = { s with regs := t.regs })

/-- A frame for an enabled ring with room is written whole at TAIL, one longer than the ring is discarded, any other
waits; GO takes the bytes and the end of the engine sends them; the watchdog warns and resets while it counts; RUN 0
resets the core; an interrupt above IPL pushes PC and CORESTAT and raises IPL. SAVE queues record 0x0043, OCC_CLR clears
one source, timers raise their flag, an armed trigger on SYSPLL takes the 64 words and any other is counted missed, and
a budget cut revokes C2 grants latest first. (R590, R592, R597, R599, R601, R602, R683, R690, R691, R693, R697, R700) -/
def Obligations.CoreControlEventsSnapshots : Prop :=
  ∀ (s : State) (n level len queue key : Nat) (f : Frame) (src : Src) (word : W32) (gs : List Grant) (g : Grant),
    let bs := frameBytes f
    let size := ivcRing s n
    let total := bs.length + (16 - bs.length % 16) % 16
    let tail := s.get (F.ivcQTail_tail n) % size
    let a := s.get F.ivcTxaddr_addr / 4 * 4
    let i := len % 65536
    let plain := s.iv.slot = none ∧ s.iv.rep_ = none ∧ s.iv.rs.length ≤ 62
    let entered := fun (vec : W32) (t : State) => t.iv.pc = vec ∧ ∃ core, t.iv = ivRunning { s.iv with
      core, rs := ⟨s.iv.core, 2⟩ :: ⟨s.iv.pc, 1⟩ :: s.iv.rs, waiting := false, warn := false } t.iv
    let coreReset := fun (c : Nat) (t : State) => t.get F.ivcStat_resetCause = c ∧ portDown t 12 = true ∧ t.on F.ivcWdt_lock = false ∧
      t.iv = { State.reset.iv with w := s.iv.w, sram := s.iv.sram, bits := s.iv.bits, halted := s.iv.halted, kicked := s.now } ∧
      ∀ j, j < 16 → t.on (F.ivcQCfg_en j) = false
    let e := s.get F.evOccidx_src
    let p := s.get (if n = 0 then F.evTmr_period0 else F.evTmr_period1)
    let snaps := fun (c : Instr) (why : Nat) =>
      (s.on F.snpStat_armed = true → s.on F.clkStat_onPll = true → Runs c s (fun t => t.on F.snpStat_valid = true ∧ t.on F.snpStat_armed = false ∧
        t.get F.snpStat_cause = why ∧ t.get F.snpStat_seq = (s.get F.snpStat_seq + 1) % 2 ^ 16 ∧ t.get (evField 124 0) = 1 ∧
        t.get F.snpCnt_taken = min (2 ^ 16 - 1) (s.get F.snpCnt_taken + 1) ∧ (∀ k, k < 64 → t.getW (W.snpData k) = snapWord s k) ∧
        t.ev.snapOut = s.ev.snapOut + (if s.on F.snpCtrl_outEn = true ∧ why ≠ 2 then 1 else 0))) ∧
      (s.on F.snpStat_armed = false ∨ s.on F.clkStat_onPll = false → Runs c s (fun t => t.get (evField 124 1) = 1 ∧
        t.get F.snpCnt_missed = min (2 ^ 16 - 1) (s.get F.snpCnt_missed + 1) ∧ t.get F.snpStat_seq = s.get F.snpStat_seq))
    (16 ≤ n ∨ portDown s 12 = true → Runs (.ivcFwQueueFrame n f) s (fun t => t = s)) ∧
    (n < 16 → portDown s 12 = false → s.iv.qWait = [] →
      (s.on (F.ivcQCfg_en n) = false ∨ (bs.length ≤ size ∧ size ≤ qUsed s n + total) → Runs (.ivcFwQueueFrame n f) s (fun t =>
        t = { s with iv := { s.iv with qWait := [(n, f)] } })) ∧
      (s.on (F.ivcQCfg_en n) = true → size < bs.length →
        (f.mc = true ∨ 0x80 ≤ f.typ → Runs (.ivcFwQueueFrame n f) s (fun t => t = s)) ∧
        (f.mc = false → f.typ < 0x80 → Runs (.ivcFwQueueFrame n f) s (fun t => t.iv = s.iv ∧
          ∃ v, v.sw = s.sw ∧ v.regs = s.regs ∧ t.sw = (complete v 12 n (frameReq f) f.typ [byte St.badDescriptor]).sw))) ∧
      (s.on (F.ivcQCfg_en n) = true → bs.length ≤ size → qUsed s n + total < size → inSram (ivcBase s n) size = true →
        Runs (.ivcFwQueueFrame n f) s (fun t =>
          let ring := ivcBase s n - 0x10000000
          t.get (F.ivcQTail_tail n) = (tail + total) % size ∧
          (∀ j, j < bs.length → memGet t.iv.sram (ring + (tail + j) % size) = bs.getD j 0#8) ∧
          (∀ o, o < ring ∨ ring + size ≤ o → memGet t.iv.sram o = memGet s.iv.sram o) ∧
          t = { s with free := t.free, regs := t.regs, iv := { s.iv with sram := t.iv.sram } }))) ∧
    (s.iv.tx.isSome = true → Runs (.ivcTxGo len queue) s (fun t => t = s.set F.ivcStat_overrun 1)) ∧
    (s.iv.tx = none →
      (i < 16 ∨ inSram a i = false → Runs (.ivcTxGo len queue) s (fun t => t = s.set F.ivcStat_txerr 1)) ∧
      (16 ≤ i → inSram a i = true → Runs (.ivcTxGo len queue) s (fun t => t = { (s.set F.ivcStat_txerr 0).set F.ivcStat_overrun 0 with
        iv := { s.iv with tx := some (queue % 16, memRead s.iv.sram (a - 0x10000000) i) } })) ∧
      Runs .ivcTransmitEngineDone s (fun t => t = s)) ∧
    (∀ q b, s.iv.tx = some (q, b) → Runs .ivcTransmitEngineDone s (fun t =>
      t = swIngress { s with iv := { s.iv with tx := none } } 12 q (thisDev s) (hdrRsvOk b) (frameOf b))) ∧
    Runs (.ivcWdkick key) s (fun t => t = if key % 256 = 0x5A then { s with iv := { s.iv with kicked := s.now } } else s) ∧
    (wdtRuns s = false → Runs .ivcWdtWarn s (fun t => t = s) ∧ Runs .ivcWdtReset s (fun t => t = s)) ∧
    (wdtRuns s = true →
      (csBit s.iv.core Cs.nmi = true → Runs .ivcWdtWarn s (fun t => t.get (evField 125 0) = 1 ∧ t.iv = s.iv)) ∧
      (csBit s.iv.core Cs.nmi = false → s.iv.slot.isSome = true → Runs .ivcWdtWarn s (fun t => t.get (evField 125 0) = 1 ∧
        t.iv = { s.iv with warn := true })) ∧
      (csBit s.iv.core Cs.nmi = false → plain → Runs .ivcWdtWarn s (fun t => t.get (evField 125 0) = 1 ∧ entered (s.iv.vbase + 120#32) t ∧
        csBit t.iv.core Cs.nmi = true ∧ csBit t.iv.core Cs.ie = false ∧
        ∀ j, j ≠ Cs.nmi → j ≠ Cs.ie → csBit t.iv.core j = csBit s.iv.core j)) ∧
      Runs .ivcWdtReset s (fun t => t.get (evField 125 1) = 1 ∧ coreReset 2 t)) ∧
    (srcIsHost src = false → ∀ b, Runs (.ivcRun src b) s (fun t => t = s)) ∧
    (srcIsHost src = true →
      Runs (.ivcRun src (s.on F.ivcCtrl_run)) s (fun t => t = s) ∧
      (s.on F.ivcCtrl_run = false → Runs (.ivcRun src true) s (fun t => t = s.set F.ivcCtrl_run 1)) ∧
      (s.on F.ivcCtrl_run = true → Runs (.ivcRun src false) s (fun t => t.on F.ivcCtrl_run = false ∧ coreReset 1 t))) ∧
    (s.iv.load = none →
      (irqDue s = none → Runs .ivcInterruptEntry s (fun t => t = s)) ∧
      (irqDue s = some (n, level) → plain → s.iv.warn = false → Runs .ivcInterruptEntry s (fun t =>
        entered (s.iv.vbase + BitVec.ofNat 32 (0x100 + 8 * n)) t ∧ ivIpl t = level % 8 ∧
        (∀ j, j < 5 ∨ 8 ≤ j → csBit t.iv.core j = csBit s.iv.core j) ∧ t = { s with iv := t.iv }))) ∧
    (NvTakes s false (.record recEvents []) → Runs (.evSave src) s (fun t =>
      t = withOrd s [nvJob (.record recEvents (wordsBytes s ((List.range 128).map W.evSrc))) false false (srcPort src) .none])) ∧
    Runs .evOccClr s (fun t => t = { s with ev := { s.ev with occ := t.ev.occ } } ∧
      ∀ k, evOcc t k = if k = 4096 + e ∨ (k / 16 = e ∧ k < 4096) then 0 else evOcc s k) ∧
    Runs (.evTmrWrite word) s (fun t => t = { s.setW W.evTmr word with ev := { s.ev with tmrStart := [s.now, s.now] } }) ∧
    (2 ≤ n ∨ p = 0 ∨ evRuns s = false → Runs (.evTimerExpiry n) s (fun t => t = s)) ∧
    (n < 2 → p ≠ 0 → evRuns s = true → Runs (.evTimerExpiry n) s (fun t => t.get (evField 127 n) = 1 ∧ t.ev.tmrStart = s.ev.tmrStart.set n s.now)) ∧
    snaps .evSnpTrig 1 ∧ (s.on F.snpCtrl_inEn = true → snaps .evSnapIn 2) ∧ (s.on F.snpCtrl_inEn = false → Runs .evSnapIn s (fun t => t = s)) ∧
    Runs .evSnpArm s (fun t => t = s.set F.snpStat_armed 1) ∧
    Runs .evSnpStatRead s (fun t => t = if s.on F.snpCtrl_autoarm = true ∧ s.on F.snpStat_valid = true then s.set F.snpStat_armed 1 else s) ∧
    Runs .evSnpClrCnt s (fun t => t = s.setW W.snpCnt 0#32) ∧
    Runs (.evBudgetWrite true word) s (fun t => t = s.set F.arbSysbud_budget (wBits word 8 0)) ∧
    (let cut := min 1200 (wBits word 10 0)
     let kept := fun (l : List Grant) => unitsOf (l.filter fun x => !x.revoked)
     (kept s.ev.grants ≤ cut → Runs (.evBudgetWrite false word) s (fun t => t.get F.arbCoilbud_budget = wBits word 10 0 ∧ t.ev = s.ev)) ∧
     (s.ev.grants = gs ++ [g] → g.cls = 2 → g.revoked = false → cut < kept (gs ++ [g]) → kept gs ≤ cut →
       Runs (.evBudgetWrite false word) s (fun t => t.ev = { s.ev with grants := gs ++ [{ g with revoked := true }] } ∧
         t.get F.arbCnt_revoked = min (2 ^ 16 - 1) (s.get F.arbCnt_revoked + 1)))) ∧
    Runs .evArbClr s (fun t => t = (s.setW W.arbCnt 0#32).setW W.arbPeak 0#32)

/-- TARGET of another value, or of LISTEN while Saddle forbids it, is refused; 5 and 6 are taken at once on the system
clock, 4 after a drain. SLEEP is refused, abandoned at AP1 by a tamper input, or begins its entry, which drains,
checkpoints, and ends in its mode or at an abort point. A wake from STANDBY goes on, from HIBERNATE and KEEPER resets. A
sniff beyond THR and the alarm wake. HOLDUP stops the blocks and saves the keep set; its end resets, or enters KEEPER or
OFF. (R634, R635, R637, R639, R640, R641, R647, R648, R651, R654, R655, R691) -/
def Obligations.PowerModesAndHoldup : Prop :=
  ∀ (s : State) (m v w c cause us vbat : Nat) (temp : Int) (word : W32) (short test clear : Bool),
    let target := v % 8
    let cur := s.get F.pmStat_current
    let held := s.get F.pmMode_target ≠ 4
    let ev := fun (b : Nat) (t : State) => t.get (evField 123 b) = 1
    let entry := fun (n : Nat) (t : State) => t.pm.entry = n
    let result := fun (r wsrc : Nat) (t : State) => t.get F.pmLastentry_result = r ∧ t.get F.pmLastentry_wakesrc = wsrc
    let wakes := wakeOn s w = true ∧ (wakeModes w).contains cur = true
    let fires := fun (t : State) => t.ev.alarmSet = false ∧ t.get (evField 126 0) = 1
    let out := fun (k : Nat) (cur_ : Nat) => Runs (.pmSniffRound [(k, cur_)]) s
    let driven := sniffing s = true ∧ c < 48 ∧ bitOf ((s.getW W.pmLsnmaskLo).toNat + 2 ^ 32 * s.get F.pmLsnmaskHi_mask) c = true ∧
      coilChDown s c = false ∧ coilGrpDown s c = false
    let ready := chargerOn s && !s.on F.pmStat_holdFault && (decide (130 ≤ min 255 v) || (s.on F.pmStat_holdReady && decide (125 ≤ min 255 v)))
    let charge := Runs (.pmCaptest v test) s
    (target < 4 ∨ 6 < target ∨ (target = 4 ∧ sadBars s = true) → Runs (.pmTargetWrite v) s (fun t => ev 2 t ∧ t.pm = s.pm ∧
      t.get F.pmMode_target = s.get F.pmMode_target ∧ t.get F.pmStat_current = cur)) ∧
    (target = 5 ∨ target = 6 →
      (s.on F.clkStat_onPll = true → s.pm.entry = 0 ∨ s.pm.entry = 3 → cur = 4 ∨ cur = 5 ∨ cur = 6 → Runs (.pmTargetWrite v) s (fun t =>
        t.get F.pmMode_target = target ∧ t.get F.pmStat_current = target ∧ entry 0 t ∧ (cur ≠ target → ev 3 t))) ∧
      (s.on F.clkStat_onPll = false → s.pm.entry ≠ 3 → Runs (.pmTargetWrite v) s (fun t => t = s.set F.pmMode_target target))) ∧
    (target = 4 → sadBars s = false →
      (s.pm.entry = 0 → cur = 5 ∨ cur = 6 → Runs (.pmTargetWrite v) s (fun t => t = { s.set F.pmMode_target 4 with pm := { s.pm with entry := 3 } })) ∧
      (s.pm.entry ≠ 0 ∨ cur < 5 ∨ cur = 7 → Runs (.pmTargetWrite v) s (fun t => t = s.set F.pmMode_target 4))) ∧
    (IvPlain s short → 1 ≤ m → m ≤ 3 → held →
      (sadBars s = true → Runs (.ivSleep m short) s (fun t => ev 2 t ∧ t.get F.pmLastentry_result = 6 ∧ t.get F.pmLastentry_mode = m ∧ t.pm = s.pm ∧
        t.iv = ivRunning s.iv t.iv ∧ t.iv.pc = ivNext s short)) ∧
      (sadBars s = false → tamperActive s = true → Runs (.ivSleep m short) s (fun t => ev 0 t ∧ ev 1 t ∧ result 1 0 t ∧ entry 0 t ∧
        t.iv = ivRunning s.iv t.iv ∧ t.iv.pc = ivNext s short)) ∧
      (sadBars s = false → tamperActive s = false → Runs (.ivSleep m short) s (fun t => t.iv.pc = ivNext s short ∧
        t = { s.set F.pmLastentry_mode m with
          iv := ivRunning s.iv t.iv, pm := { s.pm with entry := 1, wake := none, mode := m, ckpt := false } }))) ∧
    (pmDrained s = false ∨ (s.pm.entry ≠ 1 ∧ s.pm.entry ≠ 3) → Runs .pmSleepDrainDone s (fun t => t = s)) ∧
    (pmDrained s = true →
      (s.pm.entry = 3 → Runs .pmSleepDrainDone s (fun t => entry 0 t ∧ t.get F.pmStat_current = 4 ∧ t.on F.clkStat_onPll = false ∧
        t.on F.swStat_parked = true ∧ t.on F.bsnStat_ready = false ∧ (cur ≠ 4 → ev 3 t))) ∧
      (s.pm.entry = 1 → s.pm.mode = 3 → Runs .pmSleepDrainDone s (fun t => t = { s with pm := { s.pm with entry := 2 } })) ∧
      (s.pm.entry = 1 → s.pm.mode ≠ 3 → Runs .pmSleepDrainDone s (fun t => entry 2 t ∧ t.pm.ckpt = t.on F.ledStat_ckptBusy ∧
        (s.on F.ledStat_ckptBusy = false → s.get F.nvProt_bp ≠ 3 → t.pm.ckpt = true)))) ∧
    (s.pm.entry ≠ 1 → Runs .pmDrainTimeout s (fun t => t = s)) ∧
    (s.pm.entry = 1 → held → Runs .pmDrainTimeout s (fun t => ev 1 t ∧ result 2 0xFF t ∧ entry 0 t)) ∧
    (s.pm.entry ≠ 2 ∨ s.pm.ckpt = true → Runs .pmEntryComplete s (fun t => t = s)) ∧
    (s.pm.entry = 2 → s.pm.ckpt = false → 1 ≤ s.pm.mode → s.pm.mode ≤ 3 →
      (s.pm.wake = none → plUp s 0 = false → plUp s 1 = false → s.sw.frames = [] → Runs .pmEntryComplete s (fun t => t.get F.pmStat_current = s.pm.mode ∧ result 5 0xFF t ∧ entry 0 t ∧
        t.on F.clkStat_onPll = false ∧ (s.pm.mode ≠ 3 → t.sw.frames = [] ∧ t.bsn.mem = [] ∧ t.dir.entries = [] ∧ t.on F.clkStat_xtalOk = false))) ∧
      (s.pm.wake = some w → w < 19 → Runs .pmEntryComplete s (fun t => t.get F.pmStat_current = 4 ∧ result 4 w t ∧ ev 1 t ∧ entry 0 t))) ∧
    (wakeOn s w = false → Runs (.pmWakeEvent w) s (fun t => t = s)) ∧
    (wakeOn s w = true → w ≤ 18 →
      (s.pm.entry = 1 → w = 18 ∨ (wakeModes w).contains s.pm.mode = true → held → Runs (.pmWakeEvent w) s (fun t => ev 0 t ∧ ev 1 t ∧
        bitOf (t.get F.pmWakesrc_src) w = true ∧ result 2 w t ∧ entry 0 t)) ∧
      (s.pm.entry = 2 → w = 18 ∨ (wakeModes w).contains s.pm.mode = true → s.pm.wake = none → Runs (.pmWakeEvent w) s (fun t => ev 0 t ∧
        bitOf (t.get F.pmWakesrc_src) w = true ∧ t.pm = { s.pm with wake := some w })) ∧
      (s.pm.entry ≠ 1 → s.pm.entry ≠ 2 → (wakeModes w).contains cur = false → Runs (.pmWakeEvent w) s (fun t => t = s))) ∧
    (wakes → s.pm.entry = 0 →
      (cur = 3 → Runs (.pmWakeEvent w) s (fun t => t.get F.pmStat_current = 4 ∧ result 5 w t ∧ ev 0 t ∧ ev 3 t ∧ t.on F.bsnStat_retained = true ∧
        bitOf (t.get F.pmWakesrc_src) w = true)) ∧
      (cur = 1 ∨ cur = 2 → Runs (.pmWakeEvent w) s (fun t => t = deviceReset { s with pm := { s.pm with
        wake := some w, wakeN := s.pm.wakeN || (!s.hst.qspi && s.on F.pmCtrl_wakenEn) } } (if cur = 2 then 4 else 5))) ∧
      (cur = 4 → ¬ held → Runs (.pmWakeEvent w) s (fun t => ev 0 t ∧ bitOf (t.get F.pmWakesrc_src) w = true ∧
        t.pm = { s.pm with wakeN := s.pm.wakeN || (!s.hst.qspi && s.on F.pmCtrl_wakenEn) })) ∧
      (cur = 4 → held → Runs (.pmWakeEvent w) s (fun t => t = s))) ∧
    (sniffing s = false → Runs (.pmSniffRound [(c, v)]) s (fun t => t = s) ∧ Runs (.pmSniffRfSync temp) s (fun t => t = s)) ∧
    (driven → s.pm.entry = 0 → wakeOn s 9 = true →
      (sget s.pm.sniffRef c = none → out c v (fun t => t = { s with pm := { s.pm with sniffRef := sput s.pm.sniffRef c v } })) ∧
      (∀ r, sget s.pm.sniffRef c = some r →
        (100 * (max r v - min r v) ≤ s.get F.pmLsncfg_thr * r → out c v (fun t => t = s)) ∧
        (s.get F.pmLsncfg_thr * r < 100 * (max r v - min r v) → out c v (fun t => ev 0 t ∧ bitOf (t.get F.pmWakesrc_src) 9 = true)))) ∧
    (sniffing s = true → s.pm.entry = 0 → s.on F.pmLsncfg_rfEn = true → wakeOn s 9 = true → Runs (.pmSniffRfSync temp) s (fun t => ev 0 t ∧
      bitOf (t.get F.pmWakesrc_src) 9 = true)) ∧
    (cur = 0 ∨ cur = 7 ∨ cause = 0 ∨ 3 < cause ∨ (cause = 2 ∧ s.on F.pmCtrl_pfailEn = false) → Runs (.pmHoldupEntry cause) s (fun t => t = s)) ∧
    (cur ≠ 0 → cur ≠ 7 → 1 ≤ cause → cause ≤ 3 → (cause = 2 → s.on F.pmCtrl_pfailEn = true) → Runs (.pmHoldupEntry cause) s (fun t =>
      t.get F.pmStat_current = 7 ∧ t.get F.pmStat_lastcause = cause ∧ t.coil.running = [] ∧ t.pl.hasId = false ∧ t.bsn.mem = [] ∧
      t.dir.entries = [] ∧ t.nv.ord = [] ∧ t.sec.queue = [] ∧ (sadState s = SS.released → sadState t = SS.locked) ∧
      (s.get F.nvProt_bp = 3 → t.on F.pmHoldinfo_skipped = true ∧ (s.pt.run = none → t.nv.cust = [])) ∧
      (s.get F.nvProt_bp ≠ 3 → s.on F.pmStat_keepDirty = true → t.nv.keeper = true))) ∧
    (cur ≠ 7 ∨ (s.nv.cur = none ∧ s.nv.keeper = false) → Runs .pmKeeperCut s (fun t => t = s)) ∧
    (cur = 7 → s.nv.cur.isSome = true ∨ s.nv.keeper = true → Runs .pmKeeperCut s (fun t => t.on F.pmHoldinfo_cut = true ∧ t.pm.cut = true ∧
      t.nv.cur = none ∧ t.nv.keeper = false ∧ t.nv.cust = [] ∧ t.nv.ord = [])) ∧
    (cur ≠ 7 ∨ s.nv.cur.isSome = true ∨ s.nv.keeper = true → Runs (.pmHoldupExit us v vbat clear) s (fun t => t = s)) ∧
    (cur = 7 → s.nv.cur = none → s.nv.keeper = false →
      (clear = true → pmVbo s + 5 ≤ vbat → Runs (.pmHoldupExit us v vbat clear) s (fun t => t.get F.clkRstcause_cause = 3 ∧
        t.get F.pmHoldinfo_timeUs = min 8191 us ∧ t.get F.pmHoldinfo_vend = min 255 v ∧ t.nv.cells = s.nv.cells)) ∧
      (clear = false ∨ vbat < pmVbo s + 5 →
        (40 ≤ vbat → Runs (.pmHoldupExit us v vbat clear) s (fun t => t.get F.pmStat_current = 1 ∧ t.pm.holdSeen = true ∧ t.keep = s.keep)) ∧
        (vbat < 40 → Runs (.pmHoldupExit us v vbat clear) s (fun t => t.get F.pmStat_current = 0 ∧ t.keep = [] ∧ t.rtc = 0 ∧ t.nv.cells = s.nv.cells)))) ∧
    Runs (.pmHoldReadyChange v) s (fun t => t.get F.pmVhold_vhold = min 255 v ∧ t.on F.pmStat_holdReady = ready ∧
      t.on F.pmStat_charging = (chargerOn s && decide (min 255 v < 140)) ∧
      (ready ≠ s.on F.pmStat_holdReady → evRuns s = true → t.get (evField 122 0) = 1)) ∧
    (chargerOn s = false ∨ (test = true ∧ s.on F.pmCtrl_captestEn = false) → charge (fun t => t = s)) ∧
    (chargerOn s = true → (test = true → s.on F.pmCtrl_captestEn = true) → charge (fun t => t.get F.pmHoldcap_cap = min 1023 v ∧
      t.on F.pmStat_holdFault = decide (min 1023 v < s.get F.pmHoldcap_cmin) ∧ (evRuns s = true → t.get (evField 122 3) = 1 ∧
        (min 1023 v < s.get F.pmHoldcap_cmin → t.get (evField 122 1) = 1)))) ∧
    (word = 0#32 ∨ s.rtcSec < word.toNat → Runs (.pmAlarmWrite word) s (fun t =>
      t = { s.setW W.pmAlarm word with ev := { s.ev with alarmSet := word != 0#32 } })) ∧
    (evRuns s = true →
      (word ≠ 0#32 → word.toNat ≤ s.rtcSec → Runs (.pmAlarmWrite word) s fires) ∧
      (s.ev.alarmSet = true → s.get F.pmAlarm_time ≤ s.rtcSec → Runs .pmRtcAlarm s fires)) ∧
    (s.ev.alarmSet = false ∨ s.rtcSec < s.get F.pmAlarm_time → Runs .pmRtcAlarm s (fun t => t = s)) ∧
    Runs .pmPerstNRise s (fun t => t = { s with pm := { s.pm with wakeN := false }, hst := { s.hst with perstN := true } })

/-- SYSPLL_EN and SEL act with XTAL_OK and PLL_LOCK and otherwise set SEL_ERR; SEL unparks the switch once Basin is
ready and lets CURRENT follow TARGET; a crystal failure stops the system clock, voids every grant and takes POLL and RUN
to LISTEN; a start that waits for its crystal goes on at XTAL_OK; the RTC follows its crystal; DEVRST with its key resets unless Saddle forbids it; a reset keeps the NV array,
and but for power-on the RTC and the keep set, cause 4 SRAM; a start samples HOSTSEL after causes 1 and 2, scans the
headers and loads the configuration. That the strap is sampled after causes 1 and 2 is the reading of R487 in log entry
95. (R403, R448, R484, R487, R664, R666, R667, R669, R670, R671) -/
def Obligations.ClocksResetsStart : Prop :=
  ∀ (s : State) (key cause unfed : Nat) (ppm : Int) (strap xtal : Bool),
    let cur := s.get F.pmStat_current
    let target := s.get F.pmMode_target
    let osc := fun (b : Bool) => { s with pm := { s.pm with rtcOsc := b } }
    let sourced := fun (b : Bool) (t : State) => t.on F.clkStat_rtcXtal = b ∧ t.pm.rtcOsc = b ∧ (evRuns s = true → t.get (evField 122 6) = 1)
    (s.on F.clkStat_xtalOk = true → Runs .clkSyspllEn s (fun t => t = (s.set F.clkCtrl_syspllEn 1).set F.clkStat_selErr 0)) ∧
    (s.on F.clkStat_xtalOk = false → Runs .clkSyspllEn s (fun t => t = s.set F.clkStat_selErr 1)) ∧
    (s.on F.clkCtrl_syspllEn = false → Runs .clkPllLock s (fun t => t = s) ∧ Runs .clkBasinReady s (fun t => t = s)) ∧
    (s.on F.clkCtrl_syspllEn = true → Runs .clkPllLock s (fun t => t.on F.clkStat_pllLock = true ∧ t = { s with regs := t.regs })) ∧
    (s.on F.clkStat_pllLock = false → Runs .clkSel s (fun t => t = s.set F.clkStat_selErr 1)) ∧
    (s.on F.clkStat_pllLock = true → Runs .clkSel s (fun t => t.on F.clkStat_onPll = true ∧ t.on F.clkCtrl_sel = true ∧ t.on F.clkStat_selErr = false ∧
      (s.on F.bsnStat_ready = true → t.on F.swStat_parked = false) ∧
      (target = 5 ∨ target = 6 → s.pm.entry = 0 → 4 ≤ cur → cur ≤ 6 → t.get F.pmStat_current = target))) ∧
    (s.on F.bsnStat_ready = true → Runs .clkBasinReady s (fun t => t = s)) ∧
    (s.on F.clkCtrl_syspllEn = true → s.on F.bsnStat_ready = false → s.dir.waits = [] → s.cld.txns = [] → s.cld.held = [] → s.prx.held = [] →
      noNewWork s 20 = true ∨ s.rf.queue = [] → Runs .clkBasinReady s (fun t =>
      t.on F.bsnStat_ready = true ∧ t = { s with regs := t.regs } ∧ (s.on F.clkStat_onPll = true → t.on F.swStat_parked = false))) ∧
    (s.on F.clkStat_xtalOk = false → Runs .clkXtalFail s (fun t => t = s)) ∧
    (s.on F.clkStat_xtalOk = true → Runs .clkXtalFail s (fun t => t.on F.clkStat_xtalOk = false ∧ t.on F.clkStat_xtalFail = true ∧
      t.on F.clkStat_onPll = false ∧ t.on F.clkStat_pllLock = false ∧ t.on F.swStat_parked = true ∧ t.ev.grants = [] ∧
      (cur = 5 ∨ cur = 6 → t.get F.pmStat_current = 4) ∧ (evRuns s = true → t.get (evField 122 4) = 1))) ∧
    (chargerOn s = true → s.pm.clkDue = false → Runs .clkXtalOk s (fun t => t = (s.set F.clkStat_xtalOk 1).set F.clkStat_xtalFail 0)) ∧
    (chargerOn s = true → s.pm.clkDue = true → Runs .clkXtalOk s (fun t =>
      (target = 4 → t = { (s.set F.clkStat_xtalOk 1).set F.clkStat_xtalFail 0 with pm := { s.pm with clkDue := false } }) ∧
      (target ≠ 4 → cur = 4 → s.pm.entry = 0 → t = startClock ((s.set F.clkStat_xtalOk 1).set F.clkStat_xtalFail 0)))) ∧
    (chargerOn s = false → Runs .clkXtalOk s (fun t => t = s)) ∧
    (s.on F.clkStat_rtcXtal = true → Runs .clkRtcCrystalStop s (sourced false)) ∧
    (s.on F.clkStat_rtcXtal = false → Runs .clkRtcCrystalStop s (fun t => t = osc false)) ∧
    (s.on F.clkStat_rtcXtal = false → s.on F.clkCtrl_rtcLfrc = false → Runs .clkRtcCrystalRunning s (sourced true)) ∧
    (s.on F.clkStat_rtcXtal = !s.on F.clkCtrl_rtcLfrc → Runs .clkRtcCrystalRunning s (fun t => t = osc true)) ∧
    Runs (.clkLfrcCalibration ppm) s (fun t => t = if s.on F.clkStat_xtalOk then s.set F.clkLfrc_ppm (unsigned 16 ppm) else s) ∧
    (key ≠ 0x3C → Runs (.clkDevrst key) s (fun t => t = s)) ∧
    (sadBars s = true → Runs (.clkDevrst 0x3C) s (fun t => t.get (evField 123 2) = 1 ∧ t.pm = s.pm ∧ t.iv = s.iv)) ∧
    (sadBars s = false → Runs (.clkDevrst 0x3C) s (fun t => t = deviceReset s 6)) ∧
    (cause = 0 ∨ 7 < cause → Runs (.clkDeviceReset cause) s (fun t => t = s)) ∧
    (cause = 6 ∨ cause = 7 → sadBars s = true → Runs (.clkDeviceReset cause) s (fun t => t.get (evField 123 2) = 1 ∧ t.pm = s.pm ∧ t.iv = s.iv)) ∧
    (1 ≤ cause → cause ≤ 7 → (6 ≤ cause → sadBars s = false) → Runs (.clkDeviceReset cause) s (fun t => t.get F.clkRstcause_cause = cause ∧ t.get F.pmStat_current = 4 ∧
      t.on F.clkStat_cfgDone = false ∧ t.now = 0 ∧ t.pending = s.pending ∧ t.hst.qspi = s.hst.qspi ∧ t.sw.frames = [] ∧ t.sec.k = s.sec.k ∧
      (s.nv.cur = none → t.nv.cells = s.nv.cells) ∧
      (cause = 1 → t.keep = [] ∧ t.rtc = 0) ∧ (cause ≠ 1 → t.keep = keepSynced s ∧ t.rtc = s.rtc) ∧
      (cause = 4 → t.iv.sram = s.iv.sram ∧ t.iv.bits = s.iv.bits) ∧ (cause ≠ 4 → t.iv.sram = [] ∧ t.iv.bits = []))) ∧
    (s.on F.clkStat_cfgDone = true ∨ cur ≠ 4 → Runs (.clkDeviceStart strap xtal unfed) s (fun t => t = s)) ∧
    (s.on F.clkStat_cfgDone = false → cur = 4 → Runs (.clkDeviceStart strap xtal unfed) s (fun t => t.on F.clkStat_cfgDone = true ∧
      t.on F.nvStat_scanDone = true ∧ t.hst.qspi = (if s.get F.clkRstcause_cause ≤ 2 then strap else s.hst.qspi) ∧ t.pending = s.pending))

/-- With no command under way, a malformed one completes BAD_DESCRIPTOR and each of the others follows its chapter:
PROVISION and DEPLOY blow the next fuse; KEY_INSTALL draws its masks and stores the key; an authorisation is checked for
form, key, MAC and AUTHSEQ, saves AUTHSEQ and is carried out; an install opens, writes, verifies and seals. A command
whose image is being written waits for that write, one that needs masks waits for them, and ends RNG_FATAL under the
fatal alarm. A tamper input latches with its force cause, and CLEAR empties the latches in BLANK and PROVISIONED only.
(R708, R709, R711, R712, R713, R714, R717, R719, R720, R722, R723, R724) -/
def Obligations.SecurityAndLifecycle : Prop :=
  ∀ (s u : State) (req : Req) (p b key : List Byte) (n st : Nat) (src : Src),
    let rows := [(0x10, Instr.secProvision req p), (0x11, .secKeyInstall req p), (0x12, .secDeploy req p), (0x13, .secAuthTransfer req p),
      (0x13, .secAuthRetire req p), (0x13, .secAuthTamperClear req p), (0x13, .secAuthDebug req p), (0x14, .secFwBegin req p),
      (0x15, .secFwWrite req p), (0x16, .secFwCommit req p), (0x17, .secFwReseal req p)]
    let op := leAt p 0 1
    let lc := s.get F.secStat_lc
    let w : SecWait := ⟨some req, p⟩
    let a := slice p 16 48
    let seq := leAt a 20 8
    let epoch := leAt p 8 4
    let answer := fun (st : Nat) (v : State) => complete (secFwNote v op st) 15 40 req 0x41 [byte st, byte op, 0#8, 0#8]
    let ends := fun (st : Nat) (t : State) => t = answer st s
    let endsIn := fun (st : Nat) (t : State) => ∃ v, v.sw = s.sw ∧ t.sw = (answer st v).sw
    let queued := fun (custody : Bool) (j : NvJob) (t : State) => t.sec.queue = [w] ∧ t.sec.busy = true ∧ t.sw = s.sw ∧
      (if custody then t.nv.cust = s.nv.cust ++ [j] ∧ t.nv.ord = s.nv.ord else t.nv.ord = s.nv.ord ++ [j] ∧ t.nv.cust = s.nv.cust)
    let header := if op = 0x16 then slice p 16 96 else memRead s.nv.cells 0xC0000 128
    let blown := fun (k : Nat) (r : Bool) (t : State) => t.sec.k = k ∧ t.sec.retired = r ∧ t.get F.secStat_lc = lcOf k r ∧ t.get F.secStat_dbgLevel = 0
    let installed := if leAt p 4 1 = 0 then some (slice p 16 32) else
      keyUnwrap (kdf (s.cph.domain.getD []) (kdfLabel "LSSR" "XFER" (devIdentity s) epoch) 256) (slice p 16 40)
    let mac := (lessorKey s "LCAU").map fun k => cmac k (a.take 32)
    let rejected := fun (t : State) => t.get (evField 105 0) = 1 ∧ t.get F.secTamp_latch = s.get F.secTamp_latch
    (s.sec.queue = [] → s.sec.busy = false → secNvBusy s p = true → ∀ q ∈ rows, op = q.1 → Runs q.2 s (fun t =>
      t = { s with sec := { s.sec with queue := [w] } })) ∧
    (s.sec.queue = [] → s.sec.busy = false → secNvBusy s p = false → ∀ q ∈ rows, op = q.1 →
      (secFormOk w = false → Runs q.2 s (ends St.badDescriptor)) ∧
      (secFormOk w = true →
        (op = 0x10 → lc = 0 → s.on F.secStat_rootOk = true → Runs q.2 s (fun t => blown (s.sec.k + 1) s.sec.retired t ∧ endsIn St.ok t)) ∧
        (op = 0x10 → lc ≠ 0 ∨ s.on F.secStat_rootOk = false → Runs q.2 s (ends St.cfgReject)) ∧
        (op = 0x12 → lc = 1 → s.cph.domain.isSome = true → s.sec.regLock = true → Runs q.2 s (fun t =>
          blown (s.sec.k + 1) s.sec.retired t ∧ endsIn St.ok t)) ∧
        (op = 0x12 → lc = 3 → s.on F.secStat_newkey = true → NvTakes s true (.record recSec []) → Runs q.2 s (fun t =>
          blown (s.sec.k + 1) s.sec.retired t ∧ t.on F.secStat_newkey = false ∧ t.getW W.ledSeqLo = 0#32 ∧ t.getW W.ledSeqHi = 0#32 ∧
          kGet t K.decom 1 = 0 ∧ queued false (nvJob (.record recSec (recSecBytes t)) false true req.port (.sec 1 St.ok)) t)) ∧
        (op = 0x12 → (lc = 1 ∧ (s.cph.domain = none ∨ s.sec.regLock = false)) ∨ (lc = 3 ∧ s.on F.secStat_newkey = false) ∨ (lc ≠ 1 ∧ lc ≠ 3) →
          Runs q.2 s (ends St.cfgReject)) ∧
        (op = 0x11 → secKeyOk s p = false → Runs q.2 s (ends St.cfgReject)) ∧
        (op = 0x11 → secKeyOk s p = true → maskDraws (secOps p) s = .bits b u →
          (installed = none → Runs q.2 s (endsIn St.authFail)) ∧
          (installed = some key → nvProtected s false (.record recDomain []) = true → Runs q.2 s (endsIn St.nvProtected)) ∧
          (installed = some key → NvTakes s false (.record recDomain []) → Runs q.2 s (fun t => t.rng = u.rng ∧
            queued true (nvJob (.record recDomain (domainRecord s key epoch)) true false req.port (.domain req true 0 epoch key)) t))) ∧
        (op = 0x13 → authFormOk s a = false → Runs q.2 s (ends St.tokenInvalid)) ∧
        (op = 0x13 → authFormOk s a = true → s.cph.domain = none → Runs q.2 s (ends St.keyUnavailable)) ∧
        (op = 0x13 → authFormOk s a = true → s.cph.domain.isSome = true → maskDraws (secOps p) s = .bits b u →
          (mac ≠ some (slice a 32 16) → Runs q.2 s (endsIn St.authFail)) ∧
          (mac = some (slice a 32 16) →
            (seq ≤ get64 s W.secAuthseqLo W.secAuthseqHi → Runs q.2 s (endsIn St.tokenReplay)) ∧
            (get64 s W.secAuthseqLo W.secAuthseqHi < seq →
              (NvTakes s true (.record recSec []) → Runs q.2 s (fun t => get64 t W.secAuthseqLo W.secAuthseqHi = seq ∧ t.rng = u.rng ∧
                queued false (nvJob (.record recSec (recSecBytes t)) false true 15 (.sec 0 0)) t)) ∧
              (s.get F.nvProt_bp = 3 → authOpOk s a = false → Runs q.2 s (endsIn St.cfgReject)) ∧
              (s.get F.nvProt_bp = 3 → authOpOk s a = true →
                (leAt a 1 1 = 1 → Runs q.2 s (fun t => t.sec.k = s.sec.k + 1 ∧ t.on F.ledStat_open = false)) ∧
                (leAt a 1 1 = 2 → Runs q.2 s (fun t => t.sec.retired = true ∧ t.get F.secStat_lc = 4 ∧ t.on F.ledStat_open = false)) ∧
                (leAt a 1 1 = 3 → Runs q.2 s (fun t => t.get F.secTamp_latch = 0 ∧ kGet t K.tamper 1 = 0 ∧ endsIn St.ok t)) ∧
                (leAt a 1 1 = 4 → Runs q.2 s (fun t => t.get F.secStat_dbgLevel = leAt a 2 1 ∧ endsIn St.ok t)))))) ∧
        (op = 0x14 → fwBarred s (leAt p 4 4) = some st → Runs q.2 s (ends st)) ∧
        (op = 0x14 → fwBarred s (leAt p 4 4) = none → NvTakes s false (.raw 0xC0000 (zeros 128)) → Runs q.2 s (fun t =>
          t.get F.secFw_state = 1 ∧ t.sec.fwLen = leAt p 4 4 ∧ queued false (nvJob (.raw 0xC0000 (zeros 128)) false false req.port (.sec 2 St.ok)) t)) ∧
        (op = 0x15 → fwWriteOk s p = some st → Runs q.2 s (ends st)) ∧
        (op = 0x15 → fwWriteOk s p = none → NvTakes s false (.raw (0xC0080 + leAt p 4 4) (p.drop 8)) → Runs q.2 s
          (queued false (nvJob (.raw (0xC0080 + leAt p 4 4) (p.drop 8)) false false req.port (.sec 2 St.ok)))) ∧
        (op = 0x16 → s.get F.secFw_state ≠ 1 → Runs q.2 s (ends St.cfgReject)) ∧
        (op = 0x17 → fwBarred s (leAt header 4 4) = some st → Runs q.2 s (ends st)) ∧
        (op = 0x17 → fwBarred s (leAt header 4 4) = none → s.get F.secFw_state ≠ 0 → Runs q.2 s (ends St.cfgReject)) ∧
        ((op = 0x16 ∧ s.get F.secFw_state = 1) ∨ (op = 0x17 ∧ fwBarred s (leAt header 4 4) = none ∧ s.get F.secFw_state = 0) →
          (fwCheck s header = some st → Runs q.2 s (ends st)) ∧
          (fwCheck s header = none → maskDraws (secOps p) s = .bits b u → s.on F.secStat_rootOk = false → Runs q.2 s (endsIn St.keyUnavailable)) ∧
          (fwCheck s header = none → maskDraws (secOps p) s = .bits b u → s.on F.secStat_rootOk = true → NvTakes s false (.raw 0xC0000 (zeros 128)) → Runs q.2 s (fun t =>
            t.sec.svn = (if op = 0x16 ∧ (leAt header 17 1).testBit 2 = true then max s.sec.svn (leAt header 16 1) else s.sec.svn) ∧
            queued false (nvJob (.raw 0xC0000 (fit 128 (header.take 96 ++ fwSeal s header))) false false req.port (.sec 3 St.ok)) t))) ∧
        ((op = 0x11 ∧ secKeyOk s p = true) ∨ (op = 0x13 ∧ authFormOk s a = true ∧ s.cph.domain.isSome = true) ∨
            (fwCheck s header = none ∧
              ((op = 0x16 ∧ s.get F.secFw_state = 1) ∨ (op = 0x17 ∧ fwBarred s (leAt header 4 4) = none ∧ s.get F.secFw_state = 0))) →
          (maskDraws (secOps p) s = .fatal → Runs q.2 s (ends St.rngFatal)) ∧
          (maskDraws (secOps p) s = .wait u → Runs q.2 s (fun t => t = { u with sec := { u.sec with queue := [w] } }))))) ∧
    (s.sec.busy = true → ∀ q ∈ rows, Runs q.2 s (fun t => t = { s with sec := { s.sec with queue := s.sec.queue ++ [w] } })) ∧
    (4 ≤ n ∨ s.get F.pmStat_current = 0 ∨ bitOf (s.get F.secTampcfg_en) n = false → Runs (.secTamperDetect n) s (fun t => t = s)) ∧
    (n < 4 → evRuns s = true → s.pm.entry = 0 → bitOf (s.get F.secTampcfg_en) n = true → Runs (.secTamperDetect n) s (fun t =>
      bitOf t.vio.tamp n = true ∧ bitOf (t.get F.secTamp_latch) n = true ∧ bitOf (t.get F.secTamp_level) n = true ∧ kGet t K.tamper 1 = 1 ∧
      (bitOf s.vio.tamp n = false → t.get (evField (116 + n) 0) = 1))) ∧
    (4 ≤ n ∨ bitOf s.vio.tamp n = false → Runs (.secTamperInactive n) s (fun t => t = s)) ∧
    (n < 4 → bitOf s.vio.tamp n = true → Runs (.secTamperInactive n) s (fun t => bitOf t.vio.tamp n = false ∧
      bitOf (t.get F.secTamp_level) n = false ∧ t.get F.secTamp_latch = s.get F.secTamp_latch ∧ (evRuns s = true → t.get (evField (116 + n) 1) = 1))) ∧
    (lc ≤ 1 → tamperActive s = false → Runs (.secTamperClearWrite src) s (fun t => t.get F.secTamp_latch = 0 ∧ kGet t K.tamper 1 = 0 ∧
      kGet t K.tampIn 1 = 0)) ∧
    (1 < lc ∨ tamperActive s = true → Runs (.secTamperClearWrite src) s rejected)

/-- A port that does not answer changes nothing, and a command above the open level replies CFG_REJECT. ID replies the
identity, LC, AUTHSEQ and the level; AUTH judges its authorisation as AUTHORISE does and replies the status; CLOSE ends
the authorised level; RD replies the words or BAD_DESCRIPTOR and waits for a busy NV page or for its random bits; WR
writes as firmware does, CFG_REJECT when a write was refused; HALT, RUN and STEP reply PC; RESET with its key is cause 7
unless Saddle forbids it; TEST sets WLOCK, WIDE and TEST in BLANK only. The statuses of misplaced reads and writes and of a
wrong KEY are choices of log entry 115. (R725, R726, R727, R670, R715, R717) -/
def Obligations.DebugPort : Prop :=
  ∀ (s u : State) (addr n key : Nat) (auth b : List Byte) (ws : List W32) (word : W32),
    let s0 : State := { s with sec := { s.sec with dbgRd := none }, rng := { s.rng with waits := s.rng.waits.filter fun w => !(w matches .debug _) } }
    let rows := [(0, Instr.dbgId), (0, .dbgAuth auth), (0, .dbgClose), (1, .dbgRd addr n), (2, .dbgWr addr ws), (2, .dbgHalt),
      (2, .dbgRun), (2, .dbgStep), (2, .dbgReset key), (2, .dbgTest)]
    let replied := fun (v : State) (bs : List Byte) => { v with sec := { v.sec with dbg := bs } }
    let tells := fun (st : Nat) (t : State) => t.sec.dbg = [byte st]
    let answers := fun (c : Instr) (st : Nat) => Runs c s (fun t => t = replied s0 [byte st])
    let level := dbgLevel s
    let a := addr % 2 ^ 32
    let auth48 := fit 48 auth
    let w : SecWait := ⟨none, [0x13#8] ++ zeros 15 ++ auth48⟩
    let seq := leAt auth48 20 8
    let mac := (lessorKey s "LCAU").map fun k => cmac k (auth48.take 32)
    let busy := ivRegion a 4 = .nv ∧ nvPageBusy s (a - 0x30000000) 4 = true
    let pc := leBytes 4 s.iv.pc.toNat
    let held := fun (h : Bool) (t : State) => t = { s0 with iv := { s.iv with halted := h }, sec := { s0.sec with dbg := byte St.ok :: pc } }
    (regOpen s = false → ∀ q ∈ rows, Runs q.2 s (fun t => t = s)) ∧
    (regOpen s = true → (∀ q ∈ rows, level < q.1 → answers q.2 St.cfgReject) ∧
      Runs .dbgId s (fun t => t = replied s0 (devIdentity s ++ [byte (s.get F.secStat_lc)] ++
        leBytes 8 (get64 s W.secAuthseqLo W.secAuthseqHi) ++ [byte level])) ∧
      Runs .dbgClose s (fun t => t = { replied s0 [byte St.ok] with regs := (s.set F.secStat_dbgLevel 0).regs }) ∧
      (s.sec.busy = true → Runs (.dbgAuth auth) s (fun t => t = { s0 with
        sec := { s0.sec with dbg := [], queue := s.sec.queue ++ [w] } })) ∧
      (s.sec.queue = [] → s.sec.busy = false →
        (authFormOk s auth48 = false → Runs (.dbgAuth auth) s (tells St.tokenInvalid)) ∧
        (authFormOk s auth48 = true → s.cph.domain = none → Runs (.dbgAuth auth) s (tells St.keyUnavailable)) ∧
        (authFormOk s auth48 = true → s.cph.domain.isSome = true →
          (maskDraws 2 s0 = .fatal → Runs (.dbgAuth auth) s (tells St.rngFatal)) ∧
          (maskDraws 2 s0 = .wait u → Runs (.dbgAuth auth) s (fun t => t = { u with sec := { u.sec with dbg := [], queue := [w] } })) ∧
          (maskDraws 2 s0 = .bits b u →
            (mac ≠ some (slice auth48 32 16) → Runs (.dbgAuth auth) s (tells St.authFail)) ∧
            (mac = some (slice auth48 32 16) → seq ≤ get64 s W.secAuthseqLo W.secAuthseqHi → Runs (.dbgAuth auth) s (tells St.tokenReplay)) ∧
            (mac = some (slice auth48 32 16) → get64 s W.secAuthseqLo W.secAuthseqHi < seq →
              (NvTakes s true (.record recSec []) → Runs (.dbgAuth auth) s (fun t => get64 t W.secAuthseqLo W.secAuthseqHi = seq ∧
                t.sec.busy = true ∧ t.sec.queue = [w] ∧ t.sec.dbg = [] ∧
                t.nv.ord = s.nv.ord ++ [nvJob (.record recSec (recSecBytes t)) false true 15 (.sec 0 0)])) ∧
              (s.get F.nvProt_bp = 3 → authOpOk s auth48 = false → Runs (.dbgAuth auth) s (tells St.cfgReject)) ∧
              (s.get F.nvProt_bp = 3 → authOpOk s auth48 = true → leAt auth48 1 1 = 4 → Runs (.dbgAuth auth) s (fun t =>
                tells St.ok t ∧ t.get F.secStat_dbgLevel = leAt auth48 2 1)))))) ∧
      (1 ≤ level → n < 65536 →
        (0 < n → busy → Runs (.dbgRd addr n) s (fun t => t = { s0 with sec := { s0.sec with dbg := [], dbgRd := some (a, n, []) } })) ∧
        (∀ raw, dbgRng a = some raw →
          (n = 1 → rngWord s0 raw 4 = some (b, u) → Runs (.dbgRd addr n) s (fun t => t = replied u (byte St.ok :: b))) ∧
          (0 < n → rngWord s0 raw 4 = none → Runs (.dbgRd addr n) s (fun t => t = { s0 with
            sec := { s0.sec with dbg := [], dbgRd := some (a, n, []) }, rng := { s0.rng with waits := s0.rng.waits ++ [.debug raw] } }))) ∧
        (¬ busy → 0 < n → (a % 4 ≠ 0 ∨ dbgReaches a = false) → answers (.dbgRd addr n) St.badDescriptor) ∧
        (a % 4 = 0 → 0x10000000 ≤ a → a + 4 * n ≤ 0x10080000 → Runs (.dbgRd addr n) s (fun t =>
          t = replied s0 (byte St.ok :: memRead s.iv.sram (a - 0x10000000) (4 * n)))) ∧
        (n = 1 → a % 4 = 0 → ivRegion a 4 = .window → dbgReaches a = true → dbgRng a = none → Runs (.dbgRd addr n) s (fun t =>
          t = replied (regReadFx .debug s0 (a - 0x40000000)).2 (byte St.ok :: leBytes 4 (regReadFx .debug s0 (a - 0x40000000)).1.toNat)))) ∧
      (level = 2 →
        (a % 4 = 0 → 0x10000000 ≤ a → a + 4 * ws.length ≤ 0x10080000 → Runs (.dbgWr addr ws) s (fun t =>
          t = { s0 with iv := { s.iv with sram := t.iv.sram }, sec := { s0.sec with dbg := [byte St.ok] } } ∧
          (∀ i, i < ws.length → memRead t.iv.sram (a - 0x10000000 + 4 * i) 4 = leBytes 4 (ws.getD i 0#32).toNat) ∧
          ∀ o, o < a - 0x10000000 ∨ a - 0x10000000 + 4 * ws.length ≤ o → memGet t.iv.sram o = memGet s.iv.sram o)) ∧
        (ws ≠ [] → a % 4 ≠ 0 ∨ dbgReaches a = false ∨ ivRegion a 4 = .rom ∨ ivRegion a 4 = .nv →
          answers (.dbgWr addr ws) St.badDescriptor) ∧
        (ws = [word] → a % 4 = 0 → ivRegion a 4 = .window → dbgReaches a = true →
          let v := regWrite .debug s0 (a - 0x40000000) word
          Runs (.dbgWr addr ws) s (fun t => t = replied v [byte (if v.hst.rejNo ≠ s.hst.rejNo then St.cfgReject else St.ok)])) ∧
        Runs .dbgHalt s (held true) ∧ Runs .dbgRun s (held false) ∧
        (s.iv.halted = false ∨ ivcRunning s = false → Runs .dbgStep s (fun t => t = replied s0 (byte St.cfgReject :: pc))) ∧
        (s.iv.halted = true → ivcRunning s = true →
          let v := ivStep true s0 (codeAt s).1 (codeAt s).2 (ivDec (codeAt s).2 (codeAt s).1)
          Runs .dbgStep s (fun t => t = replied v (byte St.ok :: leBytes 4 v.iv.pc.toNat))) ∧
        (key ≠ 0x3C → answers (.dbgReset key) St.badDescriptor) ∧
        (key = 0x3C → sadBars s = true → Runs (.dbgReset key) s (fun t => tells St.cfgReject t ∧ t.get (evField 123 2) = 1 ∧ t.iv = s.iv)) ∧
        (key = 0x3C → sadBars s = false → Runs (.dbgReset key) s (fun t => tells St.ok t ∧ t.get F.clkRstcause_cause = 7 ∧
          t.get F.pmStat_current = 4 ∧ t.on F.clkStat_cfgDone = false)) ∧
        (s.get F.secStat_lc ≠ 0 → answers .dbgTest St.cfgReject) ∧
        (s.get F.secStat_lc = 0 → Runs .dbgTest s (fun t => tells St.ok t ∧ t.on F.secStat_test = true ∧
          t.iv = { s.iv with core := t.iv.core } ∧ csBit t.iv.core Cs.wlock = true ∧ csBit t.iv.core Cs.wide = true ∧
          ∀ i, i ≠ Cs.wlock → i ≠ Cs.wide → csBit t.iv.core i = csBit s.iv.core i))))

/-- A frame on a controller that does not run or is in bus-off, or of another identifier, is ignored; a malformed one is
counted in BAD; one that cannot be verified raises AUTH_FAIL, a repeat of the last one accepted is counted in DUP, one
whose counter is not greater raises REPLAY, and an accepted one stores its counter and leaves P11 as a VEHICLE frame of
class C0. Bus-off, recovery and error-passive set STATE and raise their flags. Meter edges and qualified pulses count
and raise as R739 says; a pad fault sets REL_FAULT; CLR_CNT clears the counters. (R730, R731, R732, R733, R734, R735,
R736, R739, R741, R742) -/
def Obligations.VehicleAndMeterIo : Prop :=
  ∀ (s u : State) (n id tec rxc k : Nat) (ide fd c active : Bool) (data b key : List Byte),
    let frame := Instr.vioCanFrame n ide id fd data
    let sts := s.get (F.vioCanSid_id n) = id ∧ s.on (F.vioCanSid_ide n) = ide
    let known := sts ∨ (s.get (F.vioCanRid_id n) = id ∧ s.on (F.vioCanRid_ide n) = ide)
    let heard := n < 2 ∧ canRuns s n = true ∧ s.get (F.vioCanStat_state n) ≠ 3 ∧ s.on (F.vioCanCfg_veh n) = true ∧ known
    let rq := !decide sts
    let formed := fd = true ∧ data.length = 16 ∧ canDataOk rq data = true
    let word := id % 2 ^ 29 + (if ide then 2 ^ 31 else 0)
    let x : VioCan := ⟨n, rq, word, data, s.rtcSec, rfTstamp s⟩
    let ctr := beNat (slice data 4 4)
    let ctrF := if rq then F.vioReqctr_ctr else F.vioStsctr_ctr
    let last := if rq then s.vio.lastReq else s.vio.lastSts
    let out := mkFrame 0x08 0 14 0 (thisDev s) 0 ([byte (if rq then leAt data 0 1 + 1 else 1), byte n, 0#8, 0#8] ++
      leBytes 4 s.rtcSec ++ leBytes 4 (rfTstamp s) ++ zeros 4 ++ fit 16 data)
    let f : Frame := if rq = false ∧ s.on F.vioDest_mc = true then { out with mc := true, dport := 0, mgrp := s.get F.vioDest_mgrp } else out
    let discards := fun (bit : Nat) (t : State) => t.get (evField (112 + n) bit) = 1 ∧ t.get ctrF = s.get ctrF ∧ t.vio = s.vio ∧ t.sw = s.sw
    let errs := fun (st tec rxc bit : Nat) (t : State) => t.get (F.vioCanStat_state n) = st ∧ t.get (F.vioCanStat_tec n) = min 255 tec ∧
      t.get (F.vioCanStat_rec n) = min 255 rxc ∧ t.get (evField (112 + n) bit) = 1 ∧ t.vio = s.vio
    let runs := n < 2 ∧ canRuns s n = true
    let m := s.vio.meters.getD (b2n c) ⟨false, 0, 0, false, false⟩
    let cur := s.get F.pmStat_current
    let cnt := if c then F.vioEpccnt_count else F.vioEpdcnt_count
    let meter := fun (m' : VioMeter) (t : State) => t.vio.meters = s.vio.meters.set (b2n c) m' ∧
      t.vio = { s.vio with meters := t.vio.meters } ∧ t.keep = s.keep ∧ t.led = s.led
    let flagged := fun (due : Bool) (bit : Nat) (t : State) => evRuns s = true → due = true → t.get (evField (114 + b2n c) bit) = 1
    let rate := decide (s.rtc < m.offAt + 1000 * max 2 (min 100 (s.get F.vioMtrcfg_minoff)))
    let glitch := if m.rate then decide (s.rtc < m.since + 1000 * max 2 (min 100 (s.get F.vioMtrcfg_minon))) else !m.qual
    (¬ heard → Runs frame s (fun t => t = s)) ∧
    (heard → ¬ formed → Runs frame s (fun t => t.get (F.vioCanCnt_bad n) = min 255 (s.get (F.vioCanCnt_bad n) + 1) ∧
      t = { s with regs := t.regs })) ∧
    (heard → formed →
      (s.cph.domain = none ∨ maskDraws 2 s = .fatal → Runs frame s (discards 0)) ∧
      (canKey s = some key → maskDraws 2 s = .wait u → Runs frame s (fun t => t = { u with vio := { u.vio with waits := u.vio.waits ++ [x] } })) ∧
      (canKey s = some key → maskDraws 2 s = .bits b u →
        let macOk := canMac key word data = slice data 8 8
        (¬ macOk → Runs frame s (discards 0)) ∧
        (macOk → last = some (word, data) → Runs frame s (fun t => t.get (F.vioCanCnt_dup n) = min 255 (s.get (F.vioCanCnt_dup n) + 1) ∧
          t = { u with regs := t.regs } ∧ t.get ctrF = s.get ctrF)) ∧
        (macOk → last ≠ some (word, data) → ctr ≤ s.get ctrF → Runs frame s (discards 1)) ∧
        (macOk → last ≠ some (word, data) → s.get ctrF < ctr → Runs frame s (fun t => t.get ctrF = ctr ∧
          t.get (F.vioCanCnt_ok n) = min (2 ^ 16 - 1) (s.get (F.vioCanCnt_ok n) + 1) ∧ t.on F.pmStat_keepDirty = true ∧
          t.vio = (if rq then { s.vio with lastReq := some (word, data) } else { s.vio with lastSts := some (word, data) }) ∧
          ∃ v : State, v.sw = s.sw ∧ v.hst = s.hst ∧ (∀ o, 0x3000 ≤ o → o < 0x3800 → v.getW o = s.getW o) ∧ t.sw = (sendFrame v 11 n f).sw)))) ∧
    (¬ runs → Runs (.vioBusoff n tec rxc) s (fun t => t = s) ∧ Runs (.vioBusoffRecovery n) s (fun t => t = s) ∧
      Runs (.vioErrorPassive n tec rxc) s (fun t => t = s)) ∧
    (runs → Runs (.vioBusoff n tec rxc) s (errs 3 tec rxc 2)) ∧
    (runs → s.get (F.vioCanStat_state n) = 3 → Runs (.vioBusoffRecovery n) s (errs 1 0 0 4) ∧ Runs (.vioErrorPassive n tec rxc) s (fun t => t = s)) ∧
    (runs → s.get (F.vioCanStat_state n) ≠ 3 → Runs (.vioErrorPassive n tec rxc) s (errs 2 tec rxc 3) ∧ Runs (.vioBusoffRecovery n) s (fun t => t = s)) ∧
    (cur = 0 ∨ m.active = active → Runs (.vioMeterEdge c active) s (fun t => t = s)) ∧
    (cur ≠ 0 → m.active = false → Runs (.vioMeterEdge c true) s (fun t =>
      meter { m with active := true, since := s.rtc, qual := false, rate := rate } t ∧ flagged rate 2 t ∧ t.get cnt = s.get cnt)) ∧
    (cur ≠ 0 → m.active = true → Runs (.vioMeterEdge c false) s (fun t =>
      meter { m with active := false, offAt := s.rtc } t ∧ flagged glitch 1 t ∧ t.get cnt = s.get cnt)) ∧
    (cur = 0 ∨ m.active = false ∨ m.qual = true ∨ m.rate = true → Runs (.vioMeterPulse c) s (fun t => t = s)) ∧
    (cur ≠ 0 → m.active = true → m.qual = false → m.rate = false → Runs (.vioMeterPulse c) s (fun t => meter { m with qual := true } t ∧
      t.get cnt = (s.get cnt + 1) % 2 ^ 32 ∧ flagged true 0 t ∧ flagged (decide (s.get cnt = 2 ^ 32 - 1)) 3 t)) ∧
    Runs (.vioRelFault c) s (fun t => t.on F.vioStat_relFault = true ∧ t.get (evField 112 5) = 1 ∧ t.sad = s.sad ∧
      t.vio = (if c then { s.vio with badB := true } else { s.vio with badA := true })) ∧
    (k < 2 → Runs .vioClrCnt s (fun t => t.getW (W.vioCanCnt k) = 0#32 ∧ t = { s with regs := t.regs }))

/-- With command c in front, a step is exec of c on the state with the rest of the queue; with an empty queue, by the
choice of log entry 1, it lets 10 microseconds pass on the microsecond counter in modes 3 to 6 and on the RTC in every
mode but OFF and changes nothing else; every command answers a next state, none faults or is refused; after reset no
command waits and every memory is in canonical form. (00_scope.md, R794, 18_power_modes_holdup.md Table 18.1) -/
def Obligations.StepTakesFront : Prop :=
  ∀ (s : State) (c : Instr) (cs : List Instr),
    step { s with pending := c :: cs } = exec c { s with pending := cs } ∧
    (s.pending = [] → step s = .next { s with
      now := (if 3 ≤ s.get F.pmStat_current ∧ s.get F.pmStat_current ≤ 6 then s.now + 10 else s.now)
      rtc := (if s.get F.pmStat_current = 0 then s.rtc else s.rtc + 10) }) ∧
    Runs c s (fun _ => True) ∧
    State.reset.pending = [] ∧ MemoriesCanonical State.reset

/-- At an offset that no register occupies every read, whatever its source, gives 0 and changes nothing, and every
whole-word write changes nothing, so that it raises no CFG_REJECT; every offset from 0xB000 is such an offset. (R788) -/
def Obligations.UnoccupiedOffsets : Prop :=
  ∀ (s : State) (src : Src) (off : Nat) (v : W32),
    (regSpec off = none → regRead src s off = 0#32 ∧ regReadFx src s off = (0#32, s) ∧ regWrite src s off v = s ∧
      Runs (.registerWrite src off 15 v) s (fun t => t = s)) ∧
    (0xB000 ≤ off → regSpec off = none)

/-- A write while the set-up registers do not answer, or unaligned, changes nothing; one at BAR0 with fewer than four
byte enables changes only HR_REJ and raises CFG_REJECT. Of EV_SRC, PM_WAKEEN, SW_Pn_Q01, VIO_MTRCFG, VIO_CANn_CFG,
VIO_CANn_EVF and SEC_TAMPCFG, each field follows its access code on its own: RW takes the value, SO takes it only while
its block is stopped, W1C clears by 1, RO and RSV keep theirs, and SEC_TAMPCFG outside BLANK and PROVISIONED is refused.
With no field refused no other register changes; with one refused CFG_REJECT is raised with its offset and source. (R11,
R13, R525, R728, R789, 00_scope.md Table 0.1) -/
def Obligations.RegisterWrites : Prop :=
  ∀ (s : State) (src : Src) (off be n : Nat) (v : W32) (r : RegSpec) (f : FieldSpec),
    let c := Instr.registerWrite src off be v
    let rejects := fun (k : Nat) (t : State) => t.get (evField 105 0) = 1 ∧ t.get F.hrRej_offset = off ∧ t.get F.hrRej_src = k
    let plain := off = W.evSrc n ∧ n < 128 ∨ off = W.pmWakeen ∨ off = W.swPQ01 n ∧ n < 16 ∨ off = W.vioMtrcfg ∨
      off = W.vioCanCfg n ∧ n < 2 ∨ off = W.vioCanEvf n ∧ n < 2 ∨ off = W.secTampcfg
    let refused := fun (g : FieldSpec) => (g.acc = .so ∧ isStopped s (offBlk off) = false) ∨ (off = W.secTampcfg ∧ 1 < s.get F.secStat_lc)
    let old := wBits (s.getW off) f.hi f.lo
    let new := wBits v f.hi f.lo
    (regOpen s = false ∨ off % 4 ≠ 0 → Runs c s (fun t => t = s)) ∧
    (regOpen s = true → off % 4 = 0 →
      (src = .host → be ≠ 15 → off < 2 ^ 16 → Runs c s (fun t => rejects 0 t ∧
        t = { s with regs := t.regs, ev := t.ev, hst := t.hst, nv := t.nv })) ∧
      (src ≠ .host ∨ be = 15 → plain → regSpec off = some r →
        (f ∈ r.flds → Runs c s (fun t => t.get ⟨off, f.hi, f.lo⟩ =
          (if refused f then old
           else match f.acc with
             | .rw | .so => new
             | .w1c => old - (old &&& new)
             | .w1s => old ||| new
             | .ro | .wo | .rsv => old))) ∧
        (¬ (∃ g ∈ r.flds, refused g) → Runs c s (fun t => t = { s with regs := t.regs } ∧ ∀ o, o ≠ off → t.getW o = s.getW o)) ∧
        ((∃ g ∈ r.flds, refused g) → Runs c s (fun t => rejects (rejSrc src) t ∧
          t = { s with regs := t.regs, ev := t.ev, hst := t.hst, nv := t.nv }))))

/-- If in a state the NV array, Basin, keep RAM, the Ivler SRAM and bit RAM, the coil program, the regulatory image and
block and the host memory stand with their addresses strictly rising and no byte listed that an unlisted address reads
as, then they do in the state that a step answers, whatever command is in front. (R8, 11_nv_store.md,
13_basin_directory.md, 16_ivler_core.md Table 16.3) -/
def Obligations.MemoriesStayCanonical : Prop :=
  ∀ (s t : State), MemoriesCanonical s → step s = .next t → MemoriesCanonical t
end

