-- ==== Sys2Proof/Laws/Bits.lean ====
section
/-! SUPPORT. Bit ranges of a word: what reading a range gives after a range was written. -/

namespace Sys2Proof.Machine

theorem testBit_natBits (x hi lo i : Nat) : (natBits x hi lo).testBit i = (decide (i < hi - lo + 1) && x.testBit (lo + i)) := by
  simp [natBits, Nat.testBit_mod_two_pow, Nat.testBit_shiftRight]

theorem natBits_lt (x hi lo : Nat) : natBits x hi lo < 2 ^ (hi - lo + 1) := Nat.mod_lt _ (Nat.two_pow_pos _)

theorem wBits_lt (w : W32) (hi lo : Nat) : wBits w hi lo < 2 ^ (hi - lo + 1) := natBits_lt _ _ _

theorem testBit_wBits (w : W32) (hi lo i : Nat) :
    (wBits w hi lo).testBit i = (decide (i < hi - lo + 1) && w.getLsbD (lo + i)) := by
  simp [wBits, testBit_natBits, BitVec.getLsbD]

theorem getLsbD_wMask (hi lo i : Nat) : (wMask hi lo).getLsbD i = (decide (i < 32) && decide (lo ≤ i) && decide (i - lo < hi - lo + 1)) := by
  simp only [wMask, BitVec.getLsbD_ofNat, Nat.testBit_shiftLeft, Nat.testBit_two_pow_sub_one, ge_iff_le, Bool.and_assoc]

/-- A bit of a word with a range replaced. -/
theorem getLsbD_wPut (w : W32) (hi lo v i : Nat) (h : lo ≤ hi) :
    (wPut w hi lo v).getLsbD i =
      (decide (i < 32) && if lo ≤ i ∧ i ≤ hi then v.testBit (i - lo) else w.getLsbD i) := by
  simp only [wPut, BitVec.getLsbD_or, BitVec.getLsbD_and, BitVec.getLsbD_not, BitVec.getLsbD_ofNat, Nat.testBit_shiftLeft, getLsbD_wMask]
  by_cases hi32 : i < 32
  · by_cases h1 : lo ≤ i
    · by_cases h2 : i ≤ hi
      · have : i - lo < hi - lo + 1 := by omega
        simp [hi32, h1, h2, this]
      · have : ¬ i - lo < hi - lo + 1 := by omega
        simp [hi32, h1, h2, this]
    · simp [hi32, h1]
  · simp [hi32, BitVec.getLsbD_of_ge w i (by omega)]

/-- Reading the range that was written gives the value, cut to the range. -/
theorem wBits_wPut (w : W32) (hi lo v : Nat) (h : lo ≤ hi) (h32 : hi < 32) :
    wBits (wPut w hi lo v) hi lo = v % 2 ^ (hi - lo + 1) := by
  apply Nat.eq_of_testBit_eq
  intro i
  rw [testBit_wBits, getLsbD_wPut _ _ _ _ _ h, Nat.testBit_mod_two_pow]
  by_cases hi' : i < hi - lo + 1
  · have h1 : lo + i < 32 := by omega
    have h2 : lo ≤ lo + i ∧ lo + i ≤ hi := by omega
    simp [hi', h1, h2]
  · simp [hi']

/-- Reading a range apart from the one written gives what it gave before. -/
theorem wBits_wPut_of_disjoint (w : W32) (hi lo v hi' lo' : Nat) (h : lo ≤ hi) (h' : lo' ≤ hi') (h32 : hi' < 32)
    (hd : hi' < lo ∨ hi < lo') : wBits (wPut w hi lo v) hi' lo' = wBits w hi' lo' := by
  apply Nat.eq_of_testBit_eq
  intro i
  rw [testBit_wBits, testBit_wBits, getLsbD_wPut _ _ _ _ _ h]
  by_cases hi' : i < hi' - lo' + 1
  · have h1 : lo' + i < 32 := by omega
    have h2 : ¬ (lo ≤ lo' + i ∧ lo' + i ≤ hi) := by omega
    simp [hi', h1, h2]
  · simp [hi']

theorem testBit_wPut_bit (w : W32) (i : Nat) (b : Bool) (h : i < 32) : (wPut w i i (b2n b)).toNat.testBit i = b := by
  have : (wPut w i i (b2n b)).getLsbD i = b := by
    rw [getLsbD_wPut _ _ _ _ _ (Nat.le_refl i)]
    cases b <;> simp [h, b2n]
  simpa [BitVec.getLsbD] using this

theorem testBit_wPut_bit_ne (w : W32) (i j : Nat) (b : Bool) (h : j < 32) (hne : j ≠ i) :
    (wPut w i i (b2n b)).toNat.testBit j = w.toNat.testBit j := by
  have : (wPut w i i (b2n b)).getLsbD j = w.getLsbD j := by
    rw [getLsbD_wPut _ _ _ _ _ (Nat.le_refl i)]
    have : ¬ (i ≤ j ∧ j ≤ i) := by omega
    simp [h, this]
  simpa [BitVec.getLsbD] using this

theorem b2n_lt (b : Bool) : b2n b < 2 := by cases b <;> decide

end Sys2Proof.Machine
end

