-- ==== Sys2Proof/Laws/Crypto.lean ====
section
/-! SUPPORT. Lengths of the outputs of AES, CMAC and the key derivation. -/

namespace Sys2Proof.Machine

theorem length_slice (bs : List Byte) (o n : Nat) : (slice bs o n).length = n := by simp [slice]

theorem length_leBytes (n x : Nat) : (leBytes n x).length = n := by
  induction n generalizing x with
  | zero => rfl
  | succ n ih => simp [leBytes, ih]

theorem length_beBytes (n x : Nat) : (beBytes n x).length = n := by simp [beBytes, length_leBytes]

theorem length_xorBytes (a b : List Byte) : (xorBytes a b).length = min a.length b.length := by simp [xorBytes]

theorem length_shiftRows (b : List Byte) : (shiftRows b).length = 16 := by simp [shiftRows]

theorem length_mixColumns (c b : List Byte) : (mixColumns c b).length = 16 := by
  simp [mixColumns, mixColumn, List.length_flatMap] <;> rfl

theorem length_getD_of_mem (l : List (List Byte)) (i n : Nat) (hi : i < l.length) (h : ∀ w ∈ l, w.length = n) : (l.getD i []).length = n := by
  rw [List.getD_eq_getElem?_getD, List.getElem?_eq_getElem hi]; exact h _ (List.getElem_mem _)

/-- Every word of a schedule has four bytes. -/
theorem expandKey_words (n nk i : Nat) (rc : Byte) (ws : List (List Byte)) (hk : 0 < nk) (hl : nk ≤ ws.length)
    (h : ∀ w ∈ ws, w.length = 4) :
    (∀ w ∈ expandKey n nk i rc ws, w.length = 4) ∧ (expandKey n nk i rc ws).length = ws.length + n := by
  induction n generalizing i rc ws with
  | zero => exact ⟨h, rfl⟩
  | succ n ih =>
    simp only [expandKey]
    have hb : (ws.getD (nk - 1) []).length = 4 := length_getD_of_mem _ _ _ (by omega) h
    have hp : (ws.headD []).length = 4 := by
      cases ws with
      | nil => simp at hl; omega
      | cons w ws => exact h w (by simp)
    refine (ih (i + 1) _ _ ?_ ?_).imp id fun e => e.trans (by simp; omega)
    · simp; omega
    · intro w hw
      rcases List.mem_cons.1 hw with rfl | hw
      · rw [length_xorBytes, hb]
        have hr : ((ws.headD []).drop 1 ++ (ws.headD []).take 1).length = 4 := by rw [List.length_append, List.length_drop, List.length_take, hp]; rfl
        split
        · rw [List.length_cons, List.length_drop, List.length_map, hr]; rfl
        · split
          · rw [List.length_map, hp]; rfl
          · rw [hp]; rfl
      · exact h w hw

theorem length_flatten_four (ws : List (List Byte)) (h : ∀ w ∈ ws, w.length = 4) : ws.flatten.length = 4 * ws.length := by
  induction ws with
  | nil => rfl
  | cons w ws ih => simp [ih fun x hx => h x (by simp [hx]), h w (by simp)]; omega

/-- A key of 16 or 32 bytes has round keys of 16 bytes, more than one. -/
theorem roundKeys_lengths (key : List Byte) (h : key.length = 16 ∨ key.length = 32) :
    1 < (roundKeys key).length ∧ ∀ rk ∈ roundKeys key, rk.length = 16 := by
  have hn : key.length / 4 = 4 ∨ key.length / 4 = 8 := by omega
  unfold roundKeys
  simp only
  obtain ⟨nk, hnk⟩ : ∃ nk, nk = key.length / 4 := ⟨_, rfl⟩
  rw [← hnk] at hn ⊢
  have hw := expandKey_words (4 * (nk + 6 + 1) - nk) nk nk 1#8 (((List.range nk).map fun i => slice key (4 * i) 4).reverse) (by omega)
    (by simp) (by intro w hw; simp at hw; obtain ⟨i, _, rfl⟩ := hw; exact length_slice _ _ _)
  refine ⟨by simp, ?_⟩
  intro rk hrk
  obtain ⟨r, hr, rfl⟩ := List.mem_map.1 hrk
  rw [length_flatten_four]
  · simp only [List.length_take, List.length_drop, List.length_reverse, hw.2, List.length_map, List.length_range]
    have := List.mem_range.1 hr
    omega
  · intro w hw'
    exact hw.1 w (List.mem_reverse.1 (List.mem_of_mem_drop (List.mem_of_mem_take hw')))

/-- A block encrypted under a key of 16 or 32 bytes has 16 bytes. -/
theorem length_aesEncRk (key b : List Byte) (h : key.length = 16 ∨ key.length = 32) : (aesEncRk (roundKeys key) b).length = 16 := by
  obtain ⟨h1, h2⟩ := roundKeys_lengths key h
  simp only [aesEncRk, length_xorBytes, length_shiftRows]
  rw [length_getD_of_mem _ _ 16 (by omega) h2]; rfl

/-- CMAC has 16 bytes. -/
theorem length_cmac (key bs : List Byte) (h : key.length = 16 ∨ key.length = 32) : (cmac key bs).length = 16 := by
  simp only [cmac, cmacLast]
  split <;> (split <;> exact length_aesEncRk _ _ h)

/-- A derived key has 16 bytes to the 128 bits. -/
theorem length_kdf (kb label : List Byte) (bits : Nat) (h : kb.length = 16 ∨ kb.length = 32) : (kdf kb label bits).length = 16 * (bits / 128) := by
  simp only [kdf, List.length_flatMap, length_cmac _ _ h]
  generalize bits / 128 = n
  induction n with
  | zero => rfl
  | succ n ih => simp only [List.range_succ, List.map_append, List.sum_append, ih]; simp; omega

/-- The tail of a message that carries its CMAC. -/
theorem slice_append_tail (a m : List Byte) (n : Nat) (h : m.length = n) : slice (a ++ m) a.length n = m := by
  apply List.ext_getElem
  · simp [slice, h]
  · intro i h1 h2
    simp [slice, List.getElem?_append_right, List.getElem?_eq_getElem h2]

/-- A message sealed with its own tag opens. -/
theorem gcmOpen_gcmTag (key iv aad ct : List Byte) :
    gcmOpen key iv aad ct (gcmTag (roundKeys key) iv (ghash (ghKey (roundKeys key)) (ghash (ghKey (roundKeys key)) 0#128 aad) ct)
      aad.length ct.length) = some (gcmCrypt (roundKeys key) iv 0 ct) := by
  simp [gcmOpen]

end Sys2Proof.Machine
end

