-- ==== Sys2Proof/Laws/Tables.lean ====
section
/-! SUPPORT. The sparse tables and the memories: a read after a write, writes elsewhere, and the canonical form, which every
operation keeps. -/

namespace Sys2Proof.Machine

variable {α : Type}

-- Tables -------------------------------------------------------------------------------------------------------------------------

@[simp] theorem sget_sput_same (l : List (Nat × α)) (a : Nat) (x : α) : sget (sput l a x) a = some x := by
  induction l with
  | nil => simp [sput, sget]
  | cons c l ih =>
    obtain ⟨k, v⟩ := c
    simp only [sput]
    split
    · simp [sget]
    · split
      · simp [sget]
      · simp [sget, *]

theorem sget_sput_ne (l : List (Nat × α)) (a b : Nat) (x : α) (h : b ≠ a) : sget (sput l a x) b = sget l b := by
  induction l with
  | nil => simp [sput, sget, Ne.symm h]
  | cons c l ih =>
    obtain ⟨k, v⟩ := c
    simp only [sput]
    split
    · rename_i hk; subst hk; simp [sget, Ne.symm h]
    · split
      · simp [sget, Ne.symm h]
      · simp only [sget]; split <;> simp [ih]

@[simp] theorem sget_sdel_same (l : List (Nat × α)) (a : Nat) : sget (sdel l a) a = none := by
  induction l with
  | nil => rfl
  | cons c l ih =>
    obtain ⟨k, v⟩ := c
    simp only [sdel]
    split
    · exact ih
    · simp [sget, *]

theorem sget_sdel_ne (l : List (Nat × α)) (a b : Nat) (h : b ≠ a) : sget (sdel l a) b = sget l b := by
  induction l with
  | nil => rfl
  | cons c l ih =>
    obtain ⟨k, v⟩ := c
    simp only [sdel]
    split
    · rename_i hk; subst hk; simp [sget, ih, Ne.symm h]
    · simp only [sget]; split <;> simp [ih]

theorem sget_sputD_same [DecidableEq α] (d : α) (l : List (Nat × α)) (a : Nat) (x : α) : (sget (sputD d l a x) a).getD d = x := by
  unfold sputD
  split
  · simp [*]
  · simp

theorem sget_sputD_ne [DecidableEq α] (d : α) (l : List (Nat × α)) (a b : Nat) (x : α) (h : b ≠ a) :
    sget (sputD d l a x) b = sget l b := by
  unfold sputD
  split
  · exact sget_sdel_ne l a b h
  · exact sget_sput_ne l a b x h

-- Memories ------------------------------------------------------------------------------------------------------------------------

@[simp] theorem memGet_memPut_same (m : List Host.Cell) (a : Nat) (b : Byte) : memGet (memPut m a b) a = b :=
  sget_sputD_same 0#8 m a b

theorem memGet_memPut_ne (m : List Host.Cell) (a x : Nat) (b : Byte) (h : x ≠ a) : memGet (memPut m a b) x = memGet m x := by
  simp [memGet, memPut, sget_sputD_ne _ _ _ _ _ h]

/-- A byte outside the bytes written. -/
theorem memGet_memWrite_of_outside (bs : List Byte) (m : List Host.Cell) (a x : Nat) (h : x < a ∨ a + bs.length ≤ x) :
    memGet (memWrite m a bs) x = memGet m x := by
  induction bs generalizing m a with
  | nil => rfl
  | cons b bs ih =>
    simp only [memWrite, List.length_cons] at h ⊢
    rw [ih _ _ (by omega), memGet_memPut_ne _ _ _ _ (by omega)]

/-- A byte among the bytes written. -/
theorem memGet_memWrite (bs : List Byte) (m : List Host.Cell) (a i : Nat) (h : i < bs.length) :
    memGet (memWrite m a bs) (a + i) = bs[i] := by
  induction bs generalizing m a i with
  | nil => simp at h
  | cons b bs ih =>
    cases i with
    | zero => simp [memWrite, memGet_memWrite_of_outside]
    | succ i =>
      have := ih (memPut m a b) (a + 1) i (by simpa using h)
      simpa [memWrite, Nat.add_assoc, Nat.add_comm 1 i] using this

/-- Reading back what was written. -/
theorem memRead_memWrite (m : List Host.Cell) (a : Nat) (bs : List Byte) : memRead (memWrite m a bs) a bs.length = bs := by
  apply List.ext_getElem
  · simp [memRead]
  · intro i h1 h2
    simp [memRead, memGet_memWrite bs m a i h2]

-- The canonical form ----------------------------------------------------------------------------------------------------------------

/-- Every key is above `a`. -/
def keysAbove (a : Nat) (l : List (Nat × α)) : Prop := ∀ c ∈ l, a < c.1

theorem srising_cons_iff (k : Nat) (v : α) (l : List (Nat × α)) : srising ((k, v) :: l) = true ↔ keysAbove k l ∧ srising l = true := by
  induction l generalizing k v with
  | nil => simp [srising, keysAbove]
  | cons c l ih =>
    obtain ⟨k', v'⟩ := c
    simp only [srising, Bool.and_eq_true, decide_eq_true_eq, ih]
    constructor
    · rintro ⟨h, hl, hs⟩
      refine ⟨fun c hc => ?_, hl, hs⟩
      rcases List.mem_cons.1 hc with rfl | hc
      · exact h
      · exact Nat.lt_trans h (hl c hc)
    · rintro ⟨h, hl, hs⟩
      exact ⟨h (k', v') (by simp), hl, hs⟩

theorem mem_sput (l : List (Nat × α)) (a : Nat) (x : α) (c : Nat × α) (h : c ∈ sput l a x) : c = (a, x) ∨ c ∈ l := by
  induction l with
  | nil => simpa [sput] using h
  | cons d l ih =>
    obtain ⟨k, v⟩ := d
    simp only [sput] at h
    split at h
    · rcases List.mem_cons.1 h with rfl | h
      · exact .inl rfl
      · exact .inr (List.mem_cons_of_mem _ h)
    · split at h
      · rcases List.mem_cons.1 h with rfl | h
        · exact .inl rfl
        · exact .inr h
      · rcases List.mem_cons.1 h with rfl | h
        · exact .inr (by simp)
        · exact (ih h).imp_right (List.mem_cons_of_mem _)

theorem mem_sdel (l : List (Nat × α)) (a : Nat) (c : Nat × α) (h : c ∈ sdel l a) : c ∈ l := by
  induction l with
  | nil => simp [sdel] at h
  | cons d l ih =>
    obtain ⟨k, v⟩ := d
    simp only [sdel] at h
    split at h
    · exact List.mem_cons_of_mem _ (ih h)
    · rcases List.mem_cons.1 h with rfl | h
      · simp
      · exact List.mem_cons_of_mem _ (ih h)

theorem srising_sput (l : List (Nat × α)) (a : Nat) (x : α) (h : srising l = true) : srising (sput l a x) = true := by
  induction l with
  | nil => rfl
  | cons c l ih =>
    obtain ⟨k, v⟩ := c
    obtain ⟨ha, hs⟩ := (srising_cons_iff k v l).1 h
    simp only [sput]
    split
    · rename_i hk; subst hk; exact (srising_cons_iff _ _ _).2 ⟨ha, hs⟩
    · split
      · rename_i hlt
        refine (srising_cons_iff _ _ _).2 ⟨fun d hd => ?_, h⟩
        rcases List.mem_cons.1 hd with rfl | hd
        · exact hlt
        · exact Nat.lt_trans hlt (ha d hd)
      · refine (srising_cons_iff _ _ _).2 ⟨fun d hd => ?_, ih hs⟩
        rcases mem_sput l a x d hd with rfl | hd
        · show k < a; omega
        · exact ha d hd

theorem srising_sdel (l : List (Nat × α)) (a : Nat) (h : srising l = true) : srising (sdel l a) = true := by
  induction l with
  | nil => rfl
  | cons c l ih =>
    obtain ⟨k, v⟩ := c
    obtain ⟨ha, hs⟩ := (srising_cons_iff k v l).1 h
    simp only [sdel]
    split
    · exact ih hs
    · exact (srising_cons_iff _ _ _).2 ⟨fun d hd => ha d (mem_sdel l a d hd), ih hs⟩

/-- Writing a byte keeps the canonical form. -/
theorem memPut_wf (m : List Host.Cell) (a : Nat) (b : Byte) (h : Memory.wf m = true) : Memory.wf (memPut m a b) = true := by
  simp only [Memory.wf, Bool.and_eq_true, List.all_eq_true] at h ⊢
  unfold memPut sputD
  split
  · exact ⟨srising_sdel m a h.1, fun c hc => h.2 c (mem_sdel m a c hc)⟩
  · rename_i hb
    refine ⟨srising_sput m a b h.1, fun c hc => ?_⟩
    rcases mem_sput m a b c hc with rfl | hc
    · simpa using hb
    · exact h.2 c hc

/-- Writing bytes keeps the canonical form. -/
theorem memWrite_wf (bs : List Byte) (m : List Host.Cell) (a : Nat) (h : Memory.wf m = true) : Memory.wf (memWrite m a bs) = true := by
  induction bs generalizing m a with
  | nil => exact h
  | cons b bs ih => exact ih _ _ (memPut_wf m a b h)

theorem memory_nil_wf : Memory.wf [] = true := rfl

end Sys2Proof.Machine
end

