-- ==== Sys2Proof/Laws/Registers.lean ====
section
/-! SUPPORT. The register file: what a register and a field hold after one was written. -/

namespace Sys2Proof.Machine

@[simp] theorem getW_setW_same (s : State) (o : Nat) (w : W32) : (s.setW o w).getW o = w :=
  sget_sputD_same (resetWord o) s.regs o w

theorem getW_setW_ne (s : State) (o p : Nat) (w : W32) (h : p ≠ o) : (s.setW o w).getW p = s.getW p := by
  simp [State.getW, State.setW, sget_sputD_ne _ _ _ _ _ h]

/-- A field after it was set. -/
theorem get_set_same (s : State) (f : Fd) (v : Nat) (h : f.lo ≤ f.hi) (h32 : f.hi < 32) :
    (s.set f v).get f = v % 2 ^ (f.hi - f.lo + 1) := by
  simp [State.get, State.set, wBits_wPut _ _ _ _ h h32]

/-- A field of another register. -/
theorem get_set_off_ne (s : State) (f g : Fd) (v : Nat) (h : g.off ≠ f.off) : (s.set f v).get g = s.get g := by
  simp [State.get, State.set, getW_setW_ne _ _ _ _ h]

/-- Another field of the same register. -/
theorem get_set_disjoint (s : State) (f g : Fd) (v : Nat) (hf : f.lo ≤ f.hi) (hg : g.lo ≤ g.hi) (h32 : g.hi < 32)
    (ho : g.off = f.off) (hd : g.hi < f.lo ∨ f.hi < g.lo) : (s.set f v).get g = s.get g := by
  simp [State.get, State.set, ho, wBits_wPut_of_disjoint _ _ _ _ _ _ hf hg h32 hd]

/-- A field apart from the one set, in the same or another register. -/
theorem get_set_ne (s : State) (f g : Fd) (v : Nat) (hf : f.lo ≤ f.hi) (hg : g.lo ≤ g.hi) (h32 : g.hi < 32)
    (hd : g.off ≠ f.off ∨ g.hi < f.lo ∨ f.hi < g.lo) : (s.set f v).get g = s.get g := by
  by_cases ho : g.off = f.off
  · exact get_set_disjoint s f g v hf hg h32 ho (hd.resolve_left (fun hn => hn ho))
  · exact get_set_off_ne s f g v ho

theorem get_lt (s : State) (f : Fd) : s.get f < 2 ^ (f.hi - f.lo + 1) := wBits_lt _ _ _

theorem getW_set_ne (s : State) (f : Fd) (v o : Nat) (h : o ≠ f.off) : (s.set f v).getW o = s.getW o := getW_setW_ne s f.off o _ h

theorem get_setW_ne (s : State) (o : Nat) (w : W32) (g : Fd) (h : g.off ≠ o) : (s.setW o w).get g = s.get g := by
  simp [State.get, getW_setW_ne _ _ _ _ h]

theorem get_setW_same (s : State) (o : Nat) (w : W32) (hi lo : Nat) : (s.setW o w).get ⟨o, hi, lo⟩ = wBits w hi lo := by
  simp [State.get]

/-- A one-bit field after it was set from a truth value. -/
theorem on_setB_same (s : State) (f : Fd) (b : Bool) (h : f.hi = f.lo) (h32 : f.hi < 32) : (s.setB f b).on f = b := by
  have : f.lo ≤ f.hi := by omega
  simp only [State.on, State.setB, get_set_same s f _ this h32, h, Nat.sub_self]
  cases b <;> rfl

/-- A saturating counter after a count. -/
theorem get_bump_same (s : State) (f : Fd) (n : Nat) (h : f.lo ≤ f.hi) (h32 : f.hi < 32) :
    (s.bump f n).get f = min (2 ^ (f.hi - f.lo + 1) - 1) (s.get f + n) := by
  rw [State.bump, get_set_same s f _ h h32, satAdd, Nat.mod_eq_of_lt]
  have := Nat.two_pow_pos (f.hi - f.lo + 1)
  omega

/-- A wrapping counter after one more. -/
theorem get_wrapInc_same (s : State) (f : Fd) (h : f.lo ≤ f.hi) (h32 : f.hi < 32) :
    (s.wrapInc f).get f = (s.get f + 1) % 2 ^ (f.hi - f.lo + 1) := get_set_same s f _ h h32

theorem resetWord_eq_getW_reset (o : Nat) (h : o ≠ 0x2108) : State.reset.getW o = resetWord o := by
  simp [State.getW, State.reset, sget, Ne.symm h]

end Sys2Proof.Machine
end

