-- ==== Sys2Proof/Laws/State.lean ====
section
/-! SUPPORT. One lemma per field per update of State: what the update leaves and what it writes, so that no later proof unfolds a
record update. -/

namespace Sys2Proof.Machine

-- Register operations change the register file alone ---------------------------------------------------------------------------

@[simp] theorem State.setW_pending (s : State) (o : Nat) (w : W32) : (s.setW o w).pending = s.pending := rfl
@[simp] theorem State.setW_now (s : State) (o : Nat) (w : W32) : (s.setW o w).now = s.now := rfl
@[simp] theorem State.setW_rtc (s : State) (o : Nat) (w : W32) : (s.setW o w).rtc = s.rtc := rfl
@[simp] theorem State.setW_free (s : State) (o : Nat) (w : W32) : (s.setW o w).free = s.free := rfl
@[simp] theorem State.setW_sw (s : State) (o : Nat) (w : W32) : (s.setW o w).sw = s.sw := rfl
@[simp] theorem State.setW_ev (s : State) (o : Nat) (w : W32) : (s.setW o w).ev = s.ev := rfl
@[simp] theorem State.setW_hst (s : State) (o : Nat) (w : W32) : (s.setW o w).hst = s.hst := rfl
@[simp] theorem State.setW_nv (s : State) (o : Nat) (w : W32) : (s.setW o w).nv = s.nv := rfl
@[simp] theorem State.setW_stops (s : State) (o : Nat) (w : W32) : (s.setW o w).stops = s.stops := rfl
@[simp] theorem State.setW_keep (s : State) (o : Nat) (w : W32) : (s.setW o w).keep = s.keep := rfl
@[simp] theorem State.setW_sad (s : State) (o : Nat) (w : W32) : (s.setW o w).sad = s.sad := rfl
@[simp] theorem State.setW_led (s : State) (o : Nat) (w : W32) : (s.setW o w).led = s.led := rfl
@[simp] theorem State.setW_coil (s : State) (o : Nat) (w : W32) : (s.setW o w).coil = s.coil := rfl
@[simp] theorem State.setW_cld (s : State) (o : Nat) (w : W32) : (s.setW o w).cld = s.cld := rfl
@[simp] theorem State.setW_pt (s : State) (o : Nat) (w : W32) : (s.setW o w).pt = s.pt := rfl
@[simp] theorem State.setW_rf (s : State) (o : Nat) (w : W32) : (s.setW o w).rf = s.rf := rfl
@[simp] theorem State.setW_prx (s : State) (o : Nat) (w : W32) : (s.setW o w).prx = s.prx := rfl
@[simp] theorem State.setW_cph (s : State) (o : Nat) (w : W32) : (s.setW o w).cph = s.cph := rfl
@[simp] theorem State.setW_rng (s : State) (o : Nat) (w : W32) : (s.setW o w).rng = s.rng := rfl
@[simp] theorem State.setW_bsn (s : State) (o : Nat) (w : W32) : (s.setW o w).bsn = s.bsn := rfl
@[simp] theorem State.setW_dir (s : State) (o : Nat) (w : W32) : (s.setW o w).dir = s.dir := rfl
@[simp] theorem State.setW_pl (s : State) (o : Nat) (w : W32) : (s.setW o w).pl = s.pl := rfl
@[simp] theorem State.setW_iv (s : State) (o : Nat) (w : W32) : (s.setW o w).iv = s.iv := rfl
@[simp] theorem State.setW_pm (s : State) (o : Nat) (w : W32) : (s.setW o w).pm = s.pm := rfl
@[simp] theorem State.setW_sec (s : State) (o : Nat) (w : W32) : (s.setW o w).sec = s.sec := rfl
@[simp] theorem State.setW_vio (s : State) (o : Nat) (w : W32) : (s.setW o w).vio = s.vio := rfl
@[simp] theorem State.set_pending (s : State) (f : Fd) (v : Nat) : (s.set f v).pending = s.pending := rfl
@[simp] theorem State.set_now (s : State) (f : Fd) (v : Nat) : (s.set f v).now = s.now := rfl
@[simp] theorem State.set_rtc (s : State) (f : Fd) (v : Nat) : (s.set f v).rtc = s.rtc := rfl
@[simp] theorem State.set_free (s : State) (f : Fd) (v : Nat) : (s.set f v).free = s.free := rfl
@[simp] theorem State.set_sw (s : State) (f : Fd) (v : Nat) : (s.set f v).sw = s.sw := rfl
@[simp] theorem State.set_ev (s : State) (f : Fd) (v : Nat) : (s.set f v).ev = s.ev := rfl
@[simp] theorem State.set_hst (s : State) (f : Fd) (v : Nat) : (s.set f v).hst = s.hst := rfl
@[simp] theorem State.set_nv (s : State) (f : Fd) (v : Nat) : (s.set f v).nv = s.nv := rfl
@[simp] theorem State.set_stops (s : State) (f : Fd) (v : Nat) : (s.set f v).stops = s.stops := rfl
@[simp] theorem State.set_keep (s : State) (f : Fd) (v : Nat) : (s.set f v).keep = s.keep := rfl
@[simp] theorem State.set_sad (s : State) (f : Fd) (v : Nat) : (s.set f v).sad = s.sad := rfl
@[simp] theorem State.set_led (s : State) (f : Fd) (v : Nat) : (s.set f v).led = s.led := rfl
@[simp] theorem State.set_coil (s : State) (f : Fd) (v : Nat) : (s.set f v).coil = s.coil := rfl
@[simp] theorem State.set_cld (s : State) (f : Fd) (v : Nat) : (s.set f v).cld = s.cld := rfl
@[simp] theorem State.set_pt (s : State) (f : Fd) (v : Nat) : (s.set f v).pt = s.pt := rfl
@[simp] theorem State.set_rf (s : State) (f : Fd) (v : Nat) : (s.set f v).rf = s.rf := rfl
@[simp] theorem State.set_prx (s : State) (f : Fd) (v : Nat) : (s.set f v).prx = s.prx := rfl
@[simp] theorem State.set_cph (s : State) (f : Fd) (v : Nat) : (s.set f v).cph = s.cph := rfl
@[simp] theorem State.set_rng (s : State) (f : Fd) (v : Nat) : (s.set f v).rng = s.rng := rfl
@[simp] theorem State.set_bsn (s : State) (f : Fd) (v : Nat) : (s.set f v).bsn = s.bsn := rfl
@[simp] theorem State.set_dir (s : State) (f : Fd) (v : Nat) : (s.set f v).dir = s.dir := rfl
@[simp] theorem State.set_pl (s : State) (f : Fd) (v : Nat) : (s.set f v).pl = s.pl := rfl
@[simp] theorem State.set_iv (s : State) (f : Fd) (v : Nat) : (s.set f v).iv = s.iv := rfl
@[simp] theorem State.set_pm (s : State) (f : Fd) (v : Nat) : (s.set f v).pm = s.pm := rfl
@[simp] theorem State.set_sec (s : State) (f : Fd) (v : Nat) : (s.set f v).sec = s.sec := rfl
@[simp] theorem State.set_vio (s : State) (f : Fd) (v : Nat) : (s.set f v).vio = s.vio := rfl
@[simp] theorem State.setB_pending (s : State) (f : Fd) (b : Bool) : (s.setB f b).pending = s.pending := rfl
@[simp] theorem State.setB_now (s : State) (f : Fd) (b : Bool) : (s.setB f b).now = s.now := rfl
@[simp] theorem State.setB_rtc (s : State) (f : Fd) (b : Bool) : (s.setB f b).rtc = s.rtc := rfl
@[simp] theorem State.setB_free (s : State) (f : Fd) (b : Bool) : (s.setB f b).free = s.free := rfl
@[simp] theorem State.setB_sw (s : State) (f : Fd) (b : Bool) : (s.setB f b).sw = s.sw := rfl
@[simp] theorem State.setB_ev (s : State) (f : Fd) (b : Bool) : (s.setB f b).ev = s.ev := rfl
@[simp] theorem State.setB_hst (s : State) (f : Fd) (b : Bool) : (s.setB f b).hst = s.hst := rfl
@[simp] theorem State.setB_nv (s : State) (f : Fd) (b : Bool) : (s.setB f b).nv = s.nv := rfl
@[simp] theorem State.setB_stops (s : State) (f : Fd) (b : Bool) : (s.setB f b).stops = s.stops := rfl
@[simp] theorem State.setB_keep (s : State) (f : Fd) (b : Bool) : (s.setB f b).keep = s.keep := rfl
@[simp] theorem State.setB_sad (s : State) (f : Fd) (b : Bool) : (s.setB f b).sad = s.sad := rfl
@[simp] theorem State.setB_led (s : State) (f : Fd) (b : Bool) : (s.setB f b).led = s.led := rfl
@[simp] theorem State.setB_coil (s : State) (f : Fd) (b : Bool) : (s.setB f b).coil = s.coil := rfl
@[simp] theorem State.setB_cld (s : State) (f : Fd) (b : Bool) : (s.setB f b).cld = s.cld := rfl
@[simp] theorem State.setB_pt (s : State) (f : Fd) (b : Bool) : (s.setB f b).pt = s.pt := rfl
@[simp] theorem State.setB_rf (s : State) (f : Fd) (b : Bool) : (s.setB f b).rf = s.rf := rfl
@[simp] theorem State.setB_prx (s : State) (f : Fd) (b : Bool) : (s.setB f b).prx = s.prx := rfl
@[simp] theorem State.setB_cph (s : State) (f : Fd) (b : Bool) : (s.setB f b).cph = s.cph := rfl
@[simp] theorem State.setB_rng (s : State) (f : Fd) (b : Bool) : (s.setB f b).rng = s.rng := rfl
@[simp] theorem State.setB_bsn (s : State) (f : Fd) (b : Bool) : (s.setB f b).bsn = s.bsn := rfl
@[simp] theorem State.setB_dir (s : State) (f : Fd) (b : Bool) : (s.setB f b).dir = s.dir := rfl
@[simp] theorem State.setB_pl (s : State) (f : Fd) (b : Bool) : (s.setB f b).pl = s.pl := rfl
@[simp] theorem State.setB_iv (s : State) (f : Fd) (b : Bool) : (s.setB f b).iv = s.iv := rfl
@[simp] theorem State.setB_pm (s : State) (f : Fd) (b : Bool) : (s.setB f b).pm = s.pm := rfl
@[simp] theorem State.setB_sec (s : State) (f : Fd) (b : Bool) : (s.setB f b).sec = s.sec := rfl
@[simp] theorem State.setB_vio (s : State) (f : Fd) (b : Bool) : (s.setB f b).vio = s.vio := rfl
@[simp] theorem State.bump_pending (s : State) (f : Fd) (n : Nat) : (s.bump f n).pending = s.pending := rfl
@[simp] theorem State.bump_now (s : State) (f : Fd) (n : Nat) : (s.bump f n).now = s.now := rfl
@[simp] theorem State.bump_rtc (s : State) (f : Fd) (n : Nat) : (s.bump f n).rtc = s.rtc := rfl
@[simp] theorem State.bump_free (s : State) (f : Fd) (n : Nat) : (s.bump f n).free = s.free := rfl
@[simp] theorem State.bump_sw (s : State) (f : Fd) (n : Nat) : (s.bump f n).sw = s.sw := rfl
@[simp] theorem State.bump_ev (s : State) (f : Fd) (n : Nat) : (s.bump f n).ev = s.ev := rfl
@[simp] theorem State.bump_hst (s : State) (f : Fd) (n : Nat) : (s.bump f n).hst = s.hst := rfl
@[simp] theorem State.bump_nv (s : State) (f : Fd) (n : Nat) : (s.bump f n).nv = s.nv := rfl
@[simp] theorem State.bump_stops (s : State) (f : Fd) (n : Nat) : (s.bump f n).stops = s.stops := rfl
@[simp] theorem State.bump_keep (s : State) (f : Fd) (n : Nat) : (s.bump f n).keep = s.keep := rfl
@[simp] theorem State.bump_sad (s : State) (f : Fd) (n : Nat) : (s.bump f n).sad = s.sad := rfl
@[simp] theorem State.bump_led (s : State) (f : Fd) (n : Nat) : (s.bump f n).led = s.led := rfl
@[simp] theorem State.bump_coil (s : State) (f : Fd) (n : Nat) : (s.bump f n).coil = s.coil := rfl
@[simp] theorem State.bump_cld (s : State) (f : Fd) (n : Nat) : (s.bump f n).cld = s.cld := rfl
@[simp] theorem State.bump_pt (s : State) (f : Fd) (n : Nat) : (s.bump f n).pt = s.pt := rfl
@[simp] theorem State.bump_rf (s : State) (f : Fd) (n : Nat) : (s.bump f n).rf = s.rf := rfl
@[simp] theorem State.bump_prx (s : State) (f : Fd) (n : Nat) : (s.bump f n).prx = s.prx := rfl
@[simp] theorem State.bump_cph (s : State) (f : Fd) (n : Nat) : (s.bump f n).cph = s.cph := rfl
@[simp] theorem State.bump_rng (s : State) (f : Fd) (n : Nat) : (s.bump f n).rng = s.rng := rfl
@[simp] theorem State.bump_bsn (s : State) (f : Fd) (n : Nat) : (s.bump f n).bsn = s.bsn := rfl
@[simp] theorem State.bump_dir (s : State) (f : Fd) (n : Nat) : (s.bump f n).dir = s.dir := rfl
@[simp] theorem State.bump_pl (s : State) (f : Fd) (n : Nat) : (s.bump f n).pl = s.pl := rfl
@[simp] theorem State.bump_iv (s : State) (f : Fd) (n : Nat) : (s.bump f n).iv = s.iv := rfl
@[simp] theorem State.bump_pm (s : State) (f : Fd) (n : Nat) : (s.bump f n).pm = s.pm := rfl
@[simp] theorem State.bump_sec (s : State) (f : Fd) (n : Nat) : (s.bump f n).sec = s.sec := rfl
@[simp] theorem State.bump_vio (s : State) (f : Fd) (n : Nat) : (s.bump f n).vio = s.vio := rfl
@[simp] theorem State.wrapInc_pending (s : State) (f : Fd) : (s.wrapInc f).pending = s.pending := rfl
@[simp] theorem State.wrapInc_now (s : State) (f : Fd) : (s.wrapInc f).now = s.now := rfl
@[simp] theorem State.wrapInc_rtc (s : State) (f : Fd) : (s.wrapInc f).rtc = s.rtc := rfl
@[simp] theorem State.wrapInc_free (s : State) (f : Fd) : (s.wrapInc f).free = s.free := rfl
@[simp] theorem State.wrapInc_sw (s : State) (f : Fd) : (s.wrapInc f).sw = s.sw := rfl
@[simp] theorem State.wrapInc_ev (s : State) (f : Fd) : (s.wrapInc f).ev = s.ev := rfl
@[simp] theorem State.wrapInc_hst (s : State) (f : Fd) : (s.wrapInc f).hst = s.hst := rfl
@[simp] theorem State.wrapInc_nv (s : State) (f : Fd) : (s.wrapInc f).nv = s.nv := rfl
@[simp] theorem State.wrapInc_stops (s : State) (f : Fd) : (s.wrapInc f).stops = s.stops := rfl
@[simp] theorem State.wrapInc_keep (s : State) (f : Fd) : (s.wrapInc f).keep = s.keep := rfl
@[simp] theorem State.wrapInc_sad (s : State) (f : Fd) : (s.wrapInc f).sad = s.sad := rfl
@[simp] theorem State.wrapInc_led (s : State) (f : Fd) : (s.wrapInc f).led = s.led := rfl
@[simp] theorem State.wrapInc_coil (s : State) (f : Fd) : (s.wrapInc f).coil = s.coil := rfl
@[simp] theorem State.wrapInc_cld (s : State) (f : Fd) : (s.wrapInc f).cld = s.cld := rfl
@[simp] theorem State.wrapInc_pt (s : State) (f : Fd) : (s.wrapInc f).pt = s.pt := rfl
@[simp] theorem State.wrapInc_rf (s : State) (f : Fd) : (s.wrapInc f).rf = s.rf := rfl
@[simp] theorem State.wrapInc_prx (s : State) (f : Fd) : (s.wrapInc f).prx = s.prx := rfl
@[simp] theorem State.wrapInc_cph (s : State) (f : Fd) : (s.wrapInc f).cph = s.cph := rfl
@[simp] theorem State.wrapInc_rng (s : State) (f : Fd) : (s.wrapInc f).rng = s.rng := rfl
@[simp] theorem State.wrapInc_bsn (s : State) (f : Fd) : (s.wrapInc f).bsn = s.bsn := rfl
@[simp] theorem State.wrapInc_dir (s : State) (f : Fd) : (s.wrapInc f).dir = s.dir := rfl
@[simp] theorem State.wrapInc_pl (s : State) (f : Fd) : (s.wrapInc f).pl = s.pl := rfl
@[simp] theorem State.wrapInc_iv (s : State) (f : Fd) : (s.wrapInc f).iv = s.iv := rfl
@[simp] theorem State.wrapInc_pm (s : State) (f : Fd) : (s.wrapInc f).pm = s.pm := rfl
@[simp] theorem State.wrapInc_sec (s : State) (f : Fd) : (s.wrapInc f).sec = s.sec := rfl
@[simp] theorem State.wrapInc_vio (s : State) (f : Fd) : (s.wrapInc f).vio = s.vio := rfl

-- A free value advances the counter of free values alone --------------------------------------------------------------------------

@[simp] theorem State.draw_pending (s : State) : s.draw.2.pending = s.pending := rfl
@[simp] theorem State.draw_now (s : State) : s.draw.2.now = s.now := rfl
@[simp] theorem State.draw_rtc (s : State) : s.draw.2.rtc = s.rtc := rfl
@[simp] theorem State.draw_regs (s : State) : s.draw.2.regs = s.regs := rfl
@[simp] theorem State.draw_sw (s : State) : s.draw.2.sw = s.sw := rfl
@[simp] theorem State.draw_ev (s : State) : s.draw.2.ev = s.ev := rfl
@[simp] theorem State.draw_hst (s : State) : s.draw.2.hst = s.hst := rfl
@[simp] theorem State.draw_nv (s : State) : s.draw.2.nv = s.nv := rfl
@[simp] theorem State.draw_stops (s : State) : s.draw.2.stops = s.stops := rfl
@[simp] theorem State.draw_keep (s : State) : s.draw.2.keep = s.keep := rfl
@[simp] theorem State.draw_sad (s : State) : s.draw.2.sad = s.sad := rfl
@[simp] theorem State.draw_led (s : State) : s.draw.2.led = s.led := rfl
@[simp] theorem State.draw_coil (s : State) : s.draw.2.coil = s.coil := rfl
@[simp] theorem State.draw_cld (s : State) : s.draw.2.cld = s.cld := rfl
@[simp] theorem State.draw_pt (s : State) : s.draw.2.pt = s.pt := rfl
@[simp] theorem State.draw_rf (s : State) : s.draw.2.rf = s.rf := rfl
@[simp] theorem State.draw_prx (s : State) : s.draw.2.prx = s.prx := rfl
@[simp] theorem State.draw_cph (s : State) : s.draw.2.cph = s.cph := rfl
@[simp] theorem State.draw_rng (s : State) : s.draw.2.rng = s.rng := rfl
@[simp] theorem State.draw_bsn (s : State) : s.draw.2.bsn = s.bsn := rfl
@[simp] theorem State.draw_dir (s : State) : s.draw.2.dir = s.dir := rfl
@[simp] theorem State.draw_pl (s : State) : s.draw.2.pl = s.pl := rfl
@[simp] theorem State.draw_iv (s : State) : s.draw.2.iv = s.iv := rfl
@[simp] theorem State.draw_pm (s : State) : s.draw.2.pm = s.pm := rfl
@[simp] theorem State.draw_sec (s : State) : s.draw.2.sec = s.sec := rfl
@[simp] theorem State.draw_vio (s : State) : s.draw.2.vio = s.vio := rfl
@[simp] theorem State.draw_getW (s : State) (o : Nat) : s.draw.2.getW o = s.getW o := rfl
@[simp] theorem State.draw_get (s : State) (f : Fd) : s.draw.2.get f = s.get f := rfl

-- Updates of one part ---------------------------------------------------------------------------------------------------------------

@[simp] theorem hstUpd_pending (s : State) (f : Hst → Hst) : (hstUpd s f).pending = s.pending := rfl
@[simp] theorem hstUpd_now (s : State) (f : Hst → Hst) : (hstUpd s f).now = s.now := rfl
@[simp] theorem hstUpd_rtc (s : State) (f : Hst → Hst) : (hstUpd s f).rtc = s.rtc := rfl
@[simp] theorem hstUpd_free (s : State) (f : Hst → Hst) : (hstUpd s f).free = s.free := rfl
@[simp] theorem hstUpd_regs (s : State) (f : Hst → Hst) : (hstUpd s f).regs = s.regs := rfl
@[simp] theorem hstUpd_sw (s : State) (f : Hst → Hst) : (hstUpd s f).sw = s.sw := rfl
@[simp] theorem hstUpd_ev (s : State) (f : Hst → Hst) : (hstUpd s f).ev = s.ev := rfl
@[simp] theorem hstUpd_hst (s : State) (f : Hst → Hst) : (hstUpd s f).hst = f s.hst := rfl
@[simp] theorem hstUpd_nv (s : State) (f : Hst → Hst) : (hstUpd s f).nv = s.nv := rfl
@[simp] theorem hstUpd_stops (s : State) (f : Hst → Hst) : (hstUpd s f).stops = s.stops := rfl
@[simp] theorem hstUpd_keep (s : State) (f : Hst → Hst) : (hstUpd s f).keep = s.keep := rfl
@[simp] theorem hstUpd_sad (s : State) (f : Hst → Hst) : (hstUpd s f).sad = s.sad := rfl
@[simp] theorem hstUpd_led (s : State) (f : Hst → Hst) : (hstUpd s f).led = s.led := rfl
@[simp] theorem hstUpd_coil (s : State) (f : Hst → Hst) : (hstUpd s f).coil = s.coil := rfl
@[simp] theorem hstUpd_cld (s : State) (f : Hst → Hst) : (hstUpd s f).cld = s.cld := rfl
@[simp] theorem hstUpd_pt (s : State) (f : Hst → Hst) : (hstUpd s f).pt = s.pt := rfl
@[simp] theorem hstUpd_rf (s : State) (f : Hst → Hst) : (hstUpd s f).rf = s.rf := rfl
@[simp] theorem hstUpd_prx (s : State) (f : Hst → Hst) : (hstUpd s f).prx = s.prx := rfl
@[simp] theorem hstUpd_cph (s : State) (f : Hst → Hst) : (hstUpd s f).cph = s.cph := rfl
@[simp] theorem hstUpd_rng (s : State) (f : Hst → Hst) : (hstUpd s f).rng = s.rng := rfl
@[simp] theorem hstUpd_bsn (s : State) (f : Hst → Hst) : (hstUpd s f).bsn = s.bsn := rfl
@[simp] theorem hstUpd_dir (s : State) (f : Hst → Hst) : (hstUpd s f).dir = s.dir := rfl
@[simp] theorem hstUpd_pl (s : State) (f : Hst → Hst) : (hstUpd s f).pl = s.pl := rfl
@[simp] theorem hstUpd_iv (s : State) (f : Hst → Hst) : (hstUpd s f).iv = s.iv := rfl
@[simp] theorem hstUpd_pm (s : State) (f : Hst → Hst) : (hstUpd s f).pm = s.pm := rfl
@[simp] theorem hstUpd_sec (s : State) (f : Hst → Hst) : (hstUpd s f).sec = s.sec := rfl
@[simp] theorem hstUpd_vio (s : State) (f : Hst → Hst) : (hstUpd s f).vio = s.vio := rfl
@[simp] theorem hstUpd_getW (s : State) (f : Hst → Hst) (o : Nat) : (hstUpd s f).getW o = s.getW o := rfl
@[simp] theorem hstUpd_get (s : State) (f : Hst → Hst) (g : Fd) : (hstUpd s f).get g = s.get g := rfl
@[simp] theorem hstUpd_on (s : State) (f : Hst → Hst) (g : Fd) : (hstUpd s f).on g = s.on g := rfl
@[simp] theorem nvUpd_pending (s : State) (f : Nv → Nv) : (nvUpd s f).pending = s.pending := rfl
@[simp] theorem nvUpd_now (s : State) (f : Nv → Nv) : (nvUpd s f).now = s.now := rfl
@[simp] theorem nvUpd_rtc (s : State) (f : Nv → Nv) : (nvUpd s f).rtc = s.rtc := rfl
@[simp] theorem nvUpd_free (s : State) (f : Nv → Nv) : (nvUpd s f).free = s.free := rfl
@[simp] theorem nvUpd_regs (s : State) (f : Nv → Nv) : (nvUpd s f).regs = s.regs := rfl
@[simp] theorem nvUpd_sw (s : State) (f : Nv → Nv) : (nvUpd s f).sw = s.sw := rfl
@[simp] theorem nvUpd_ev (s : State) (f : Nv → Nv) : (nvUpd s f).ev = s.ev := rfl
@[simp] theorem nvUpd_hst (s : State) (f : Nv → Nv) : (nvUpd s f).hst = s.hst := rfl
@[simp] theorem nvUpd_nv (s : State) (f : Nv → Nv) : (nvUpd s f).nv = f s.nv := rfl
@[simp] theorem nvUpd_stops (s : State) (f : Nv → Nv) : (nvUpd s f).stops = s.stops := rfl
@[simp] theorem nvUpd_keep (s : State) (f : Nv → Nv) : (nvUpd s f).keep = s.keep := rfl
@[simp] theorem nvUpd_sad (s : State) (f : Nv → Nv) : (nvUpd s f).sad = s.sad := rfl
@[simp] theorem nvUpd_led (s : State) (f : Nv → Nv) : (nvUpd s f).led = s.led := rfl
@[simp] theorem nvUpd_coil (s : State) (f : Nv → Nv) : (nvUpd s f).coil = s.coil := rfl
@[simp] theorem nvUpd_cld (s : State) (f : Nv → Nv) : (nvUpd s f).cld = s.cld := rfl
@[simp] theorem nvUpd_pt (s : State) (f : Nv → Nv) : (nvUpd s f).pt = s.pt := rfl
@[simp] theorem nvUpd_rf (s : State) (f : Nv → Nv) : (nvUpd s f).rf = s.rf := rfl
@[simp] theorem nvUpd_prx (s : State) (f : Nv → Nv) : (nvUpd s f).prx = s.prx := rfl
@[simp] theorem nvUpd_cph (s : State) (f : Nv → Nv) : (nvUpd s f).cph = s.cph := rfl
@[simp] theorem nvUpd_rng (s : State) (f : Nv → Nv) : (nvUpd s f).rng = s.rng := rfl
@[simp] theorem nvUpd_bsn (s : State) (f : Nv → Nv) : (nvUpd s f).bsn = s.bsn := rfl
@[simp] theorem nvUpd_dir (s : State) (f : Nv → Nv) : (nvUpd s f).dir = s.dir := rfl
@[simp] theorem nvUpd_pl (s : State) (f : Nv → Nv) : (nvUpd s f).pl = s.pl := rfl
@[simp] theorem nvUpd_iv (s : State) (f : Nv → Nv) : (nvUpd s f).iv = s.iv := rfl
@[simp] theorem nvUpd_pm (s : State) (f : Nv → Nv) : (nvUpd s f).pm = s.pm := rfl
@[simp] theorem nvUpd_sec (s : State) (f : Nv → Nv) : (nvUpd s f).sec = s.sec := rfl
@[simp] theorem nvUpd_vio (s : State) (f : Nv → Nv) : (nvUpd s f).vio = s.vio := rfl
@[simp] theorem nvUpd_getW (s : State) (f : Nv → Nv) (o : Nat) : (nvUpd s f).getW o = s.getW o := rfl
@[simp] theorem nvUpd_get (s : State) (f : Nv → Nv) (g : Fd) : (nvUpd s f).get g = s.get g := rfl
@[simp] theorem nvUpd_on (s : State) (f : Nv → Nv) (g : Fd) : (nvUpd s f).on g = s.on g := rfl
@[simp] theorem sadUpd_pending (s : State) (f : Sad → Sad) : (sadUpd s f).pending = s.pending := rfl
@[simp] theorem sadUpd_now (s : State) (f : Sad → Sad) : (sadUpd s f).now = s.now := rfl
@[simp] theorem sadUpd_rtc (s : State) (f : Sad → Sad) : (sadUpd s f).rtc = s.rtc := rfl
@[simp] theorem sadUpd_free (s : State) (f : Sad → Sad) : (sadUpd s f).free = s.free := rfl
@[simp] theorem sadUpd_regs (s : State) (f : Sad → Sad) : (sadUpd s f).regs = s.regs := rfl
@[simp] theorem sadUpd_sw (s : State) (f : Sad → Sad) : (sadUpd s f).sw = s.sw := rfl
@[simp] theorem sadUpd_ev (s : State) (f : Sad → Sad) : (sadUpd s f).ev = s.ev := rfl
@[simp] theorem sadUpd_hst (s : State) (f : Sad → Sad) : (sadUpd s f).hst = s.hst := rfl
@[simp] theorem sadUpd_nv (s : State) (f : Sad → Sad) : (sadUpd s f).nv = s.nv := rfl
@[simp] theorem sadUpd_stops (s : State) (f : Sad → Sad) : (sadUpd s f).stops = s.stops := rfl
@[simp] theorem sadUpd_keep (s : State) (f : Sad → Sad) : (sadUpd s f).keep = s.keep := rfl
@[simp] theorem sadUpd_sad (s : State) (f : Sad → Sad) : (sadUpd s f).sad = f s.sad := rfl
@[simp] theorem sadUpd_led (s : State) (f : Sad → Sad) : (sadUpd s f).led = s.led := rfl
@[simp] theorem sadUpd_coil (s : State) (f : Sad → Sad) : (sadUpd s f).coil = s.coil := rfl
@[simp] theorem sadUpd_cld (s : State) (f : Sad → Sad) : (sadUpd s f).cld = s.cld := rfl
@[simp] theorem sadUpd_pt (s : State) (f : Sad → Sad) : (sadUpd s f).pt = s.pt := rfl
@[simp] theorem sadUpd_rf (s : State) (f : Sad → Sad) : (sadUpd s f).rf = s.rf := rfl
@[simp] theorem sadUpd_prx (s : State) (f : Sad → Sad) : (sadUpd s f).prx = s.prx := rfl
@[simp] theorem sadUpd_cph (s : State) (f : Sad → Sad) : (sadUpd s f).cph = s.cph := rfl
@[simp] theorem sadUpd_rng (s : State) (f : Sad → Sad) : (sadUpd s f).rng = s.rng := rfl
@[simp] theorem sadUpd_bsn (s : State) (f : Sad → Sad) : (sadUpd s f).bsn = s.bsn := rfl
@[simp] theorem sadUpd_dir (s : State) (f : Sad → Sad) : (sadUpd s f).dir = s.dir := rfl
@[simp] theorem sadUpd_pl (s : State) (f : Sad → Sad) : (sadUpd s f).pl = s.pl := rfl
@[simp] theorem sadUpd_iv (s : State) (f : Sad → Sad) : (sadUpd s f).iv = s.iv := rfl
@[simp] theorem sadUpd_pm (s : State) (f : Sad → Sad) : (sadUpd s f).pm = s.pm := rfl
@[simp] theorem sadUpd_sec (s : State) (f : Sad → Sad) : (sadUpd s f).sec = s.sec := rfl
@[simp] theorem sadUpd_vio (s : State) (f : Sad → Sad) : (sadUpd s f).vio = s.vio := rfl
@[simp] theorem sadUpd_getW (s : State) (f : Sad → Sad) (o : Nat) : (sadUpd s f).getW o = s.getW o := rfl
@[simp] theorem sadUpd_get (s : State) (f : Sad → Sad) (g : Fd) : (sadUpd s f).get g = s.get g := rfl
@[simp] theorem sadUpd_on (s : State) (f : Sad → Sad) (g : Fd) : (sadUpd s f).on g = s.on g := rfl
@[simp] theorem ledUpd_pending (s : State) (f : Led → Led) : (ledUpd s f).pending = s.pending := rfl
@[simp] theorem ledUpd_now (s : State) (f : Led → Led) : (ledUpd s f).now = s.now := rfl
@[simp] theorem ledUpd_rtc (s : State) (f : Led → Led) : (ledUpd s f).rtc = s.rtc := rfl
@[simp] theorem ledUpd_free (s : State) (f : Led → Led) : (ledUpd s f).free = s.free := rfl
@[simp] theorem ledUpd_regs (s : State) (f : Led → Led) : (ledUpd s f).regs = s.regs := rfl
@[simp] theorem ledUpd_sw (s : State) (f : Led → Led) : (ledUpd s f).sw = s.sw := rfl
@[simp] theorem ledUpd_ev (s : State) (f : Led → Led) : (ledUpd s f).ev = s.ev := rfl
@[simp] theorem ledUpd_hst (s : State) (f : Led → Led) : (ledUpd s f).hst = s.hst := rfl
@[simp] theorem ledUpd_nv (s : State) (f : Led → Led) : (ledUpd s f).nv = s.nv := rfl
@[simp] theorem ledUpd_stops (s : State) (f : Led → Led) : (ledUpd s f).stops = s.stops := rfl
@[simp] theorem ledUpd_keep (s : State) (f : Led → Led) : (ledUpd s f).keep = s.keep := rfl
@[simp] theorem ledUpd_sad (s : State) (f : Led → Led) : (ledUpd s f).sad = s.sad := rfl
@[simp] theorem ledUpd_led (s : State) (f : Led → Led) : (ledUpd s f).led = f s.led := rfl
@[simp] theorem ledUpd_coil (s : State) (f : Led → Led) : (ledUpd s f).coil = s.coil := rfl
@[simp] theorem ledUpd_cld (s : State) (f : Led → Led) : (ledUpd s f).cld = s.cld := rfl
@[simp] theorem ledUpd_pt (s : State) (f : Led → Led) : (ledUpd s f).pt = s.pt := rfl
@[simp] theorem ledUpd_rf (s : State) (f : Led → Led) : (ledUpd s f).rf = s.rf := rfl
@[simp] theorem ledUpd_prx (s : State) (f : Led → Led) : (ledUpd s f).prx = s.prx := rfl
@[simp] theorem ledUpd_cph (s : State) (f : Led → Led) : (ledUpd s f).cph = s.cph := rfl
@[simp] theorem ledUpd_rng (s : State) (f : Led → Led) : (ledUpd s f).rng = s.rng := rfl
@[simp] theorem ledUpd_bsn (s : State) (f : Led → Led) : (ledUpd s f).bsn = s.bsn := rfl
@[simp] theorem ledUpd_dir (s : State) (f : Led → Led) : (ledUpd s f).dir = s.dir := rfl
@[simp] theorem ledUpd_pl (s : State) (f : Led → Led) : (ledUpd s f).pl = s.pl := rfl
@[simp] theorem ledUpd_iv (s : State) (f : Led → Led) : (ledUpd s f).iv = s.iv := rfl
@[simp] theorem ledUpd_pm (s : State) (f : Led → Led) : (ledUpd s f).pm = s.pm := rfl
@[simp] theorem ledUpd_sec (s : State) (f : Led → Led) : (ledUpd s f).sec = s.sec := rfl
@[simp] theorem ledUpd_vio (s : State) (f : Led → Led) : (ledUpd s f).vio = s.vio := rfl
@[simp] theorem ledUpd_getW (s : State) (f : Led → Led) (o : Nat) : (ledUpd s f).getW o = s.getW o := rfl
@[simp] theorem ledUpd_get (s : State) (f : Led → Led) (g : Fd) : (ledUpd s f).get g = s.get g := rfl
@[simp] theorem ledUpd_on (s : State) (f : Led → Led) (g : Fd) : (ledUpd s f).on g = s.on g := rfl
@[simp] theorem coilUpd_pending (s : State) (f : Coil → Coil) : (coilUpd s f).pending = s.pending := rfl
@[simp] theorem coilUpd_now (s : State) (f : Coil → Coil) : (coilUpd s f).now = s.now := rfl
@[simp] theorem coilUpd_rtc (s : State) (f : Coil → Coil) : (coilUpd s f).rtc = s.rtc := rfl
@[simp] theorem coilUpd_free (s : State) (f : Coil → Coil) : (coilUpd s f).free = s.free := rfl
@[simp] theorem coilUpd_regs (s : State) (f : Coil → Coil) : (coilUpd s f).regs = s.regs := rfl
@[simp] theorem coilUpd_sw (s : State) (f : Coil → Coil) : (coilUpd s f).sw = s.sw := rfl
@[simp] theorem coilUpd_ev (s : State) (f : Coil → Coil) : (coilUpd s f).ev = s.ev := rfl
@[simp] theorem coilUpd_hst (s : State) (f : Coil → Coil) : (coilUpd s f).hst = s.hst := rfl
@[simp] theorem coilUpd_nv (s : State) (f : Coil → Coil) : (coilUpd s f).nv = s.nv := rfl
@[simp] theorem coilUpd_stops (s : State) (f : Coil → Coil) : (coilUpd s f).stops = s.stops := rfl
@[simp] theorem coilUpd_keep (s : State) (f : Coil → Coil) : (coilUpd s f).keep = s.keep := rfl
@[simp] theorem coilUpd_sad (s : State) (f : Coil → Coil) : (coilUpd s f).sad = s.sad := rfl
@[simp] theorem coilUpd_led (s : State) (f : Coil → Coil) : (coilUpd s f).led = s.led := rfl
@[simp] theorem coilUpd_coil (s : State) (f : Coil → Coil) : (coilUpd s f).coil = f s.coil := rfl
@[simp] theorem coilUpd_cld (s : State) (f : Coil → Coil) : (coilUpd s f).cld = s.cld := rfl
@[simp] theorem coilUpd_pt (s : State) (f : Coil → Coil) : (coilUpd s f).pt = s.pt := rfl
@[simp] theorem coilUpd_rf (s : State) (f : Coil → Coil) : (coilUpd s f).rf = s.rf := rfl
@[simp] theorem coilUpd_prx (s : State) (f : Coil → Coil) : (coilUpd s f).prx = s.prx := rfl
@[simp] theorem coilUpd_cph (s : State) (f : Coil → Coil) : (coilUpd s f).cph = s.cph := rfl
@[simp] theorem coilUpd_rng (s : State) (f : Coil → Coil) : (coilUpd s f).rng = s.rng := rfl
@[simp] theorem coilUpd_bsn (s : State) (f : Coil → Coil) : (coilUpd s f).bsn = s.bsn := rfl
@[simp] theorem coilUpd_dir (s : State) (f : Coil → Coil) : (coilUpd s f).dir = s.dir := rfl
@[simp] theorem coilUpd_pl (s : State) (f : Coil → Coil) : (coilUpd s f).pl = s.pl := rfl
@[simp] theorem coilUpd_iv (s : State) (f : Coil → Coil) : (coilUpd s f).iv = s.iv := rfl
@[simp] theorem coilUpd_pm (s : State) (f : Coil → Coil) : (coilUpd s f).pm = s.pm := rfl
@[simp] theorem coilUpd_sec (s : State) (f : Coil → Coil) : (coilUpd s f).sec = s.sec := rfl
@[simp] theorem coilUpd_vio (s : State) (f : Coil → Coil) : (coilUpd s f).vio = s.vio := rfl
@[simp] theorem coilUpd_getW (s : State) (f : Coil → Coil) (o : Nat) : (coilUpd s f).getW o = s.getW o := rfl
@[simp] theorem coilUpd_get (s : State) (f : Coil → Coil) (g : Fd) : (coilUpd s f).get g = s.get g := rfl
@[simp] theorem coilUpd_on (s : State) (f : Coil → Coil) (g : Fd) : (coilUpd s f).on g = s.on g := rfl
@[simp] theorem cldUpd_pending (s : State) (f : Cld → Cld) : (cldUpd s f).pending = s.pending := rfl
@[simp] theorem cldUpd_now (s : State) (f : Cld → Cld) : (cldUpd s f).now = s.now := rfl
@[simp] theorem cldUpd_rtc (s : State) (f : Cld → Cld) : (cldUpd s f).rtc = s.rtc := rfl
@[simp] theorem cldUpd_free (s : State) (f : Cld → Cld) : (cldUpd s f).free = s.free := rfl
@[simp] theorem cldUpd_regs (s : State) (f : Cld → Cld) : (cldUpd s f).regs = s.regs := rfl
@[simp] theorem cldUpd_sw (s : State) (f : Cld → Cld) : (cldUpd s f).sw = s.sw := rfl
@[simp] theorem cldUpd_ev (s : State) (f : Cld → Cld) : (cldUpd s f).ev = s.ev := rfl
@[simp] theorem cldUpd_hst (s : State) (f : Cld → Cld) : (cldUpd s f).hst = s.hst := rfl
@[simp] theorem cldUpd_nv (s : State) (f : Cld → Cld) : (cldUpd s f).nv = s.nv := rfl
@[simp] theorem cldUpd_stops (s : State) (f : Cld → Cld) : (cldUpd s f).stops = s.stops := rfl
@[simp] theorem cldUpd_keep (s : State) (f : Cld → Cld) : (cldUpd s f).keep = s.keep := rfl
@[simp] theorem cldUpd_sad (s : State) (f : Cld → Cld) : (cldUpd s f).sad = s.sad := rfl
@[simp] theorem cldUpd_led (s : State) (f : Cld → Cld) : (cldUpd s f).led = s.led := rfl
@[simp] theorem cldUpd_coil (s : State) (f : Cld → Cld) : (cldUpd s f).coil = s.coil := rfl
@[simp] theorem cldUpd_cld (s : State) (f : Cld → Cld) : (cldUpd s f).cld = f s.cld := rfl
@[simp] theorem cldUpd_pt (s : State) (f : Cld → Cld) : (cldUpd s f).pt = s.pt := rfl
@[simp] theorem cldUpd_rf (s : State) (f : Cld → Cld) : (cldUpd s f).rf = s.rf := rfl
@[simp] theorem cldUpd_prx (s : State) (f : Cld → Cld) : (cldUpd s f).prx = s.prx := rfl
@[simp] theorem cldUpd_cph (s : State) (f : Cld → Cld) : (cldUpd s f).cph = s.cph := rfl
@[simp] theorem cldUpd_rng (s : State) (f : Cld → Cld) : (cldUpd s f).rng = s.rng := rfl
@[simp] theorem cldUpd_bsn (s : State) (f : Cld → Cld) : (cldUpd s f).bsn = s.bsn := rfl
@[simp] theorem cldUpd_dir (s : State) (f : Cld → Cld) : (cldUpd s f).dir = s.dir := rfl
@[simp] theorem cldUpd_pl (s : State) (f : Cld → Cld) : (cldUpd s f).pl = s.pl := rfl
@[simp] theorem cldUpd_iv (s : State) (f : Cld → Cld) : (cldUpd s f).iv = s.iv := rfl
@[simp] theorem cldUpd_pm (s : State) (f : Cld → Cld) : (cldUpd s f).pm = s.pm := rfl
@[simp] theorem cldUpd_sec (s : State) (f : Cld → Cld) : (cldUpd s f).sec = s.sec := rfl
@[simp] theorem cldUpd_vio (s : State) (f : Cld → Cld) : (cldUpd s f).vio = s.vio := rfl
@[simp] theorem cldUpd_getW (s : State) (f : Cld → Cld) (o : Nat) : (cldUpd s f).getW o = s.getW o := rfl
@[simp] theorem cldUpd_get (s : State) (f : Cld → Cld) (g : Fd) : (cldUpd s f).get g = s.get g := rfl
@[simp] theorem cldUpd_on (s : State) (f : Cld → Cld) (g : Fd) : (cldUpd s f).on g = s.on g := rfl
@[simp] theorem ptUpd_pending (s : State) (f : Pt → Pt) : (ptUpd s f).pending = s.pending := rfl
@[simp] theorem ptUpd_now (s : State) (f : Pt → Pt) : (ptUpd s f).now = s.now := rfl
@[simp] theorem ptUpd_rtc (s : State) (f : Pt → Pt) : (ptUpd s f).rtc = s.rtc := rfl
@[simp] theorem ptUpd_free (s : State) (f : Pt → Pt) : (ptUpd s f).free = s.free := rfl
@[simp] theorem ptUpd_regs (s : State) (f : Pt → Pt) : (ptUpd s f).regs = s.regs := rfl
@[simp] theorem ptUpd_sw (s : State) (f : Pt → Pt) : (ptUpd s f).sw = s.sw := rfl
@[simp] theorem ptUpd_ev (s : State) (f : Pt → Pt) : (ptUpd s f).ev = s.ev := rfl
@[simp] theorem ptUpd_hst (s : State) (f : Pt → Pt) : (ptUpd s f).hst = s.hst := rfl
@[simp] theorem ptUpd_nv (s : State) (f : Pt → Pt) : (ptUpd s f).nv = s.nv := rfl
@[simp] theorem ptUpd_stops (s : State) (f : Pt → Pt) : (ptUpd s f).stops = s.stops := rfl
@[simp] theorem ptUpd_keep (s : State) (f : Pt → Pt) : (ptUpd s f).keep = s.keep := rfl
@[simp] theorem ptUpd_sad (s : State) (f : Pt → Pt) : (ptUpd s f).sad = s.sad := rfl
@[simp] theorem ptUpd_led (s : State) (f : Pt → Pt) : (ptUpd s f).led = s.led := rfl
@[simp] theorem ptUpd_coil (s : State) (f : Pt → Pt) : (ptUpd s f).coil = s.coil := rfl
@[simp] theorem ptUpd_cld (s : State) (f : Pt → Pt) : (ptUpd s f).cld = s.cld := rfl
@[simp] theorem ptUpd_pt (s : State) (f : Pt → Pt) : (ptUpd s f).pt = f s.pt := rfl
@[simp] theorem ptUpd_rf (s : State) (f : Pt → Pt) : (ptUpd s f).rf = s.rf := rfl
@[simp] theorem ptUpd_prx (s : State) (f : Pt → Pt) : (ptUpd s f).prx = s.prx := rfl
@[simp] theorem ptUpd_cph (s : State) (f : Pt → Pt) : (ptUpd s f).cph = s.cph := rfl
@[simp] theorem ptUpd_rng (s : State) (f : Pt → Pt) : (ptUpd s f).rng = s.rng := rfl
@[simp] theorem ptUpd_bsn (s : State) (f : Pt → Pt) : (ptUpd s f).bsn = s.bsn := rfl
@[simp] theorem ptUpd_dir (s : State) (f : Pt → Pt) : (ptUpd s f).dir = s.dir := rfl
@[simp] theorem ptUpd_pl (s : State) (f : Pt → Pt) : (ptUpd s f).pl = s.pl := rfl
@[simp] theorem ptUpd_iv (s : State) (f : Pt → Pt) : (ptUpd s f).iv = s.iv := rfl
@[simp] theorem ptUpd_pm (s : State) (f : Pt → Pt) : (ptUpd s f).pm = s.pm := rfl
@[simp] theorem ptUpd_sec (s : State) (f : Pt → Pt) : (ptUpd s f).sec = s.sec := rfl
@[simp] theorem ptUpd_vio (s : State) (f : Pt → Pt) : (ptUpd s f).vio = s.vio := rfl
@[simp] theorem ptUpd_getW (s : State) (f : Pt → Pt) (o : Nat) : (ptUpd s f).getW o = s.getW o := rfl
@[simp] theorem ptUpd_get (s : State) (f : Pt → Pt) (g : Fd) : (ptUpd s f).get g = s.get g := rfl
@[simp] theorem ptUpd_on (s : State) (f : Pt → Pt) (g : Fd) : (ptUpd s f).on g = s.on g := rfl
@[simp] theorem rfUpd_pending (s : State) (f : Rf → Rf) : (rfUpd s f).pending = s.pending := rfl
@[simp] theorem rfUpd_now (s : State) (f : Rf → Rf) : (rfUpd s f).now = s.now := rfl
@[simp] theorem rfUpd_rtc (s : State) (f : Rf → Rf) : (rfUpd s f).rtc = s.rtc := rfl
@[simp] theorem rfUpd_free (s : State) (f : Rf → Rf) : (rfUpd s f).free = s.free := rfl
@[simp] theorem rfUpd_regs (s : State) (f : Rf → Rf) : (rfUpd s f).regs = s.regs := rfl
@[simp] theorem rfUpd_sw (s : State) (f : Rf → Rf) : (rfUpd s f).sw = s.sw := rfl
@[simp] theorem rfUpd_ev (s : State) (f : Rf → Rf) : (rfUpd s f).ev = s.ev := rfl
@[simp] theorem rfUpd_hst (s : State) (f : Rf → Rf) : (rfUpd s f).hst = s.hst := rfl
@[simp] theorem rfUpd_nv (s : State) (f : Rf → Rf) : (rfUpd s f).nv = s.nv := rfl
@[simp] theorem rfUpd_stops (s : State) (f : Rf → Rf) : (rfUpd s f).stops = s.stops := rfl
@[simp] theorem rfUpd_keep (s : State) (f : Rf → Rf) : (rfUpd s f).keep = s.keep := rfl
@[simp] theorem rfUpd_sad (s : State) (f : Rf → Rf) : (rfUpd s f).sad = s.sad := rfl
@[simp] theorem rfUpd_led (s : State) (f : Rf → Rf) : (rfUpd s f).led = s.led := rfl
@[simp] theorem rfUpd_coil (s : State) (f : Rf → Rf) : (rfUpd s f).coil = s.coil := rfl
@[simp] theorem rfUpd_cld (s : State) (f : Rf → Rf) : (rfUpd s f).cld = s.cld := rfl
@[simp] theorem rfUpd_pt (s : State) (f : Rf → Rf) : (rfUpd s f).pt = s.pt := rfl
@[simp] theorem rfUpd_rf (s : State) (f : Rf → Rf) : (rfUpd s f).rf = f s.rf := rfl
@[simp] theorem rfUpd_prx (s : State) (f : Rf → Rf) : (rfUpd s f).prx = s.prx := rfl
@[simp] theorem rfUpd_cph (s : State) (f : Rf → Rf) : (rfUpd s f).cph = s.cph := rfl
@[simp] theorem rfUpd_rng (s : State) (f : Rf → Rf) : (rfUpd s f).rng = s.rng := rfl
@[simp] theorem rfUpd_bsn (s : State) (f : Rf → Rf) : (rfUpd s f).bsn = s.bsn := rfl
@[simp] theorem rfUpd_dir (s : State) (f : Rf → Rf) : (rfUpd s f).dir = s.dir := rfl
@[simp] theorem rfUpd_pl (s : State) (f : Rf → Rf) : (rfUpd s f).pl = s.pl := rfl
@[simp] theorem rfUpd_iv (s : State) (f : Rf → Rf) : (rfUpd s f).iv = s.iv := rfl
@[simp] theorem rfUpd_pm (s : State) (f : Rf → Rf) : (rfUpd s f).pm = s.pm := rfl
@[simp] theorem rfUpd_sec (s : State) (f : Rf → Rf) : (rfUpd s f).sec = s.sec := rfl
@[simp] theorem rfUpd_vio (s : State) (f : Rf → Rf) : (rfUpd s f).vio = s.vio := rfl
@[simp] theorem rfUpd_getW (s : State) (f : Rf → Rf) (o : Nat) : (rfUpd s f).getW o = s.getW o := rfl
@[simp] theorem rfUpd_get (s : State) (f : Rf → Rf) (g : Fd) : (rfUpd s f).get g = s.get g := rfl
@[simp] theorem rfUpd_on (s : State) (f : Rf → Rf) (g : Fd) : (rfUpd s f).on g = s.on g := rfl
@[simp] theorem prxUpd_pending (s : State) (f : Prx → Prx) : (prxUpd s f).pending = s.pending := rfl
@[simp] theorem prxUpd_now (s : State) (f : Prx → Prx) : (prxUpd s f).now = s.now := rfl
@[simp] theorem prxUpd_rtc (s : State) (f : Prx → Prx) : (prxUpd s f).rtc = s.rtc := rfl
@[simp] theorem prxUpd_free (s : State) (f : Prx → Prx) : (prxUpd s f).free = s.free := rfl
@[simp] theorem prxUpd_regs (s : State) (f : Prx → Prx) : (prxUpd s f).regs = s.regs := rfl
@[simp] theorem prxUpd_sw (s : State) (f : Prx → Prx) : (prxUpd s f).sw = s.sw := rfl
@[simp] theorem prxUpd_ev (s : State) (f : Prx → Prx) : (prxUpd s f).ev = s.ev := rfl
@[simp] theorem prxUpd_hst (s : State) (f : Prx → Prx) : (prxUpd s f).hst = s.hst := rfl
@[simp] theorem prxUpd_nv (s : State) (f : Prx → Prx) : (prxUpd s f).nv = s.nv := rfl
@[simp] theorem prxUpd_stops (s : State) (f : Prx → Prx) : (prxUpd s f).stops = s.stops := rfl
@[simp] theorem prxUpd_keep (s : State) (f : Prx → Prx) : (prxUpd s f).keep = s.keep := rfl
@[simp] theorem prxUpd_sad (s : State) (f : Prx → Prx) : (prxUpd s f).sad = s.sad := rfl
@[simp] theorem prxUpd_led (s : State) (f : Prx → Prx) : (prxUpd s f).led = s.led := rfl
@[simp] theorem prxUpd_coil (s : State) (f : Prx → Prx) : (prxUpd s f).coil = s.coil := rfl
@[simp] theorem prxUpd_cld (s : State) (f : Prx → Prx) : (prxUpd s f).cld = s.cld := rfl
@[simp] theorem prxUpd_pt (s : State) (f : Prx → Prx) : (prxUpd s f).pt = s.pt := rfl
@[simp] theorem prxUpd_rf (s : State) (f : Prx → Prx) : (prxUpd s f).rf = s.rf := rfl
@[simp] theorem prxUpd_prx (s : State) (f : Prx → Prx) : (prxUpd s f).prx = f s.prx := rfl
@[simp] theorem prxUpd_cph (s : State) (f : Prx → Prx) : (prxUpd s f).cph = s.cph := rfl
@[simp] theorem prxUpd_rng (s : State) (f : Prx → Prx) : (prxUpd s f).rng = s.rng := rfl
@[simp] theorem prxUpd_bsn (s : State) (f : Prx → Prx) : (prxUpd s f).bsn = s.bsn := rfl
@[simp] theorem prxUpd_dir (s : State) (f : Prx → Prx) : (prxUpd s f).dir = s.dir := rfl
@[simp] theorem prxUpd_pl (s : State) (f : Prx → Prx) : (prxUpd s f).pl = s.pl := rfl
@[simp] theorem prxUpd_iv (s : State) (f : Prx → Prx) : (prxUpd s f).iv = s.iv := rfl
@[simp] theorem prxUpd_pm (s : State) (f : Prx → Prx) : (prxUpd s f).pm = s.pm := rfl
@[simp] theorem prxUpd_sec (s : State) (f : Prx → Prx) : (prxUpd s f).sec = s.sec := rfl
@[simp] theorem prxUpd_vio (s : State) (f : Prx → Prx) : (prxUpd s f).vio = s.vio := rfl
@[simp] theorem prxUpd_getW (s : State) (f : Prx → Prx) (o : Nat) : (prxUpd s f).getW o = s.getW o := rfl
@[simp] theorem prxUpd_get (s : State) (f : Prx → Prx) (g : Fd) : (prxUpd s f).get g = s.get g := rfl
@[simp] theorem prxUpd_on (s : State) (f : Prx → Prx) (g : Fd) : (prxUpd s f).on g = s.on g := rfl
@[simp] theorem cphUpd_pending (s : State) (f : Cph → Cph) : (cphUpd s f).pending = s.pending := rfl
@[simp] theorem cphUpd_now (s : State) (f : Cph → Cph) : (cphUpd s f).now = s.now := rfl
@[simp] theorem cphUpd_rtc (s : State) (f : Cph → Cph) : (cphUpd s f).rtc = s.rtc := rfl
@[simp] theorem cphUpd_free (s : State) (f : Cph → Cph) : (cphUpd s f).free = s.free := rfl
@[simp] theorem cphUpd_regs (s : State) (f : Cph → Cph) : (cphUpd s f).regs = s.regs := rfl
@[simp] theorem cphUpd_sw (s : State) (f : Cph → Cph) : (cphUpd s f).sw = s.sw := rfl
@[simp] theorem cphUpd_ev (s : State) (f : Cph → Cph) : (cphUpd s f).ev = s.ev := rfl
@[simp] theorem cphUpd_hst (s : State) (f : Cph → Cph) : (cphUpd s f).hst = s.hst := rfl
@[simp] theorem cphUpd_nv (s : State) (f : Cph → Cph) : (cphUpd s f).nv = s.nv := rfl
@[simp] theorem cphUpd_stops (s : State) (f : Cph → Cph) : (cphUpd s f).stops = s.stops := rfl
@[simp] theorem cphUpd_keep (s : State) (f : Cph → Cph) : (cphUpd s f).keep = s.keep := rfl
@[simp] theorem cphUpd_sad (s : State) (f : Cph → Cph) : (cphUpd s f).sad = s.sad := rfl
@[simp] theorem cphUpd_led (s : State) (f : Cph → Cph) : (cphUpd s f).led = s.led := rfl
@[simp] theorem cphUpd_coil (s : State) (f : Cph → Cph) : (cphUpd s f).coil = s.coil := rfl
@[simp] theorem cphUpd_cld (s : State) (f : Cph → Cph) : (cphUpd s f).cld = s.cld := rfl
@[simp] theorem cphUpd_pt (s : State) (f : Cph → Cph) : (cphUpd s f).pt = s.pt := rfl
@[simp] theorem cphUpd_rf (s : State) (f : Cph → Cph) : (cphUpd s f).rf = s.rf := rfl
@[simp] theorem cphUpd_prx (s : State) (f : Cph → Cph) : (cphUpd s f).prx = s.prx := rfl
@[simp] theorem cphUpd_cph (s : State) (f : Cph → Cph) : (cphUpd s f).cph = f s.cph := rfl
@[simp] theorem cphUpd_rng (s : State) (f : Cph → Cph) : (cphUpd s f).rng = s.rng := rfl
@[simp] theorem cphUpd_bsn (s : State) (f : Cph → Cph) : (cphUpd s f).bsn = s.bsn := rfl
@[simp] theorem cphUpd_dir (s : State) (f : Cph → Cph) : (cphUpd s f).dir = s.dir := rfl
@[simp] theorem cphUpd_pl (s : State) (f : Cph → Cph) : (cphUpd s f).pl = s.pl := rfl
@[simp] theorem cphUpd_iv (s : State) (f : Cph → Cph) : (cphUpd s f).iv = s.iv := rfl
@[simp] theorem cphUpd_pm (s : State) (f : Cph → Cph) : (cphUpd s f).pm = s.pm := rfl
@[simp] theorem cphUpd_sec (s : State) (f : Cph → Cph) : (cphUpd s f).sec = s.sec := rfl
@[simp] theorem cphUpd_vio (s : State) (f : Cph → Cph) : (cphUpd s f).vio = s.vio := rfl
@[simp] theorem cphUpd_getW (s : State) (f : Cph → Cph) (o : Nat) : (cphUpd s f).getW o = s.getW o := rfl
@[simp] theorem cphUpd_get (s : State) (f : Cph → Cph) (g : Fd) : (cphUpd s f).get g = s.get g := rfl
@[simp] theorem cphUpd_on (s : State) (f : Cph → Cph) (g : Fd) : (cphUpd s f).on g = s.on g := rfl
@[simp] theorem rngUpd_pending (s : State) (f : Rng → Rng) : (rngUpd s f).pending = s.pending := rfl
@[simp] theorem rngUpd_now (s : State) (f : Rng → Rng) : (rngUpd s f).now = s.now := rfl
@[simp] theorem rngUpd_rtc (s : State) (f : Rng → Rng) : (rngUpd s f).rtc = s.rtc := rfl
@[simp] theorem rngUpd_free (s : State) (f : Rng → Rng) : (rngUpd s f).free = s.free := rfl
@[simp] theorem rngUpd_regs (s : State) (f : Rng → Rng) : (rngUpd s f).regs = s.regs := rfl
@[simp] theorem rngUpd_sw (s : State) (f : Rng → Rng) : (rngUpd s f).sw = s.sw := rfl
@[simp] theorem rngUpd_ev (s : State) (f : Rng → Rng) : (rngUpd s f).ev = s.ev := rfl
@[simp] theorem rngUpd_hst (s : State) (f : Rng → Rng) : (rngUpd s f).hst = s.hst := rfl
@[simp] theorem rngUpd_nv (s : State) (f : Rng → Rng) : (rngUpd s f).nv = s.nv := rfl
@[simp] theorem rngUpd_stops (s : State) (f : Rng → Rng) : (rngUpd s f).stops = s.stops := rfl
@[simp] theorem rngUpd_keep (s : State) (f : Rng → Rng) : (rngUpd s f).keep = s.keep := rfl
@[simp] theorem rngUpd_sad (s : State) (f : Rng → Rng) : (rngUpd s f).sad = s.sad := rfl
@[simp] theorem rngUpd_led (s : State) (f : Rng → Rng) : (rngUpd s f).led = s.led := rfl
@[simp] theorem rngUpd_coil (s : State) (f : Rng → Rng) : (rngUpd s f).coil = s.coil := rfl
@[simp] theorem rngUpd_cld (s : State) (f : Rng → Rng) : (rngUpd s f).cld = s.cld := rfl
@[simp] theorem rngUpd_pt (s : State) (f : Rng → Rng) : (rngUpd s f).pt = s.pt := rfl
@[simp] theorem rngUpd_rf (s : State) (f : Rng → Rng) : (rngUpd s f).rf = s.rf := rfl
@[simp] theorem rngUpd_prx (s : State) (f : Rng → Rng) : (rngUpd s f).prx = s.prx := rfl
@[simp] theorem rngUpd_cph (s : State) (f : Rng → Rng) : (rngUpd s f).cph = s.cph := rfl
@[simp] theorem rngUpd_rng (s : State) (f : Rng → Rng) : (rngUpd s f).rng = f s.rng := rfl
@[simp] theorem rngUpd_bsn (s : State) (f : Rng → Rng) : (rngUpd s f).bsn = s.bsn := rfl
@[simp] theorem rngUpd_dir (s : State) (f : Rng → Rng) : (rngUpd s f).dir = s.dir := rfl
@[simp] theorem rngUpd_pl (s : State) (f : Rng → Rng) : (rngUpd s f).pl = s.pl := rfl
@[simp] theorem rngUpd_iv (s : State) (f : Rng → Rng) : (rngUpd s f).iv = s.iv := rfl
@[simp] theorem rngUpd_pm (s : State) (f : Rng → Rng) : (rngUpd s f).pm = s.pm := rfl
@[simp] theorem rngUpd_sec (s : State) (f : Rng → Rng) : (rngUpd s f).sec = s.sec := rfl
@[simp] theorem rngUpd_vio (s : State) (f : Rng → Rng) : (rngUpd s f).vio = s.vio := rfl
@[simp] theorem rngUpd_getW (s : State) (f : Rng → Rng) (o : Nat) : (rngUpd s f).getW o = s.getW o := rfl
@[simp] theorem rngUpd_get (s : State) (f : Rng → Rng) (g : Fd) : (rngUpd s f).get g = s.get g := rfl
@[simp] theorem rngUpd_on (s : State) (f : Rng → Rng) (g : Fd) : (rngUpd s f).on g = s.on g := rfl
@[simp] theorem bsnUpd_pending (s : State) (f : Bsn → Bsn) : (bsnUpd s f).pending = s.pending := rfl
@[simp] theorem bsnUpd_now (s : State) (f : Bsn → Bsn) : (bsnUpd s f).now = s.now := rfl
@[simp] theorem bsnUpd_rtc (s : State) (f : Bsn → Bsn) : (bsnUpd s f).rtc = s.rtc := rfl
@[simp] theorem bsnUpd_free (s : State) (f : Bsn → Bsn) : (bsnUpd s f).free = s.free := rfl
@[simp] theorem bsnUpd_regs (s : State) (f : Bsn → Bsn) : (bsnUpd s f).regs = s.regs := rfl
@[simp] theorem bsnUpd_sw (s : State) (f : Bsn → Bsn) : (bsnUpd s f).sw = s.sw := rfl
@[simp] theorem bsnUpd_ev (s : State) (f : Bsn → Bsn) : (bsnUpd s f).ev = s.ev := rfl
@[simp] theorem bsnUpd_hst (s : State) (f : Bsn → Bsn) : (bsnUpd s f).hst = s.hst := rfl
@[simp] theorem bsnUpd_nv (s : State) (f : Bsn → Bsn) : (bsnUpd s f).nv = s.nv := rfl
@[simp] theorem bsnUpd_stops (s : State) (f : Bsn → Bsn) : (bsnUpd s f).stops = s.stops := rfl
@[simp] theorem bsnUpd_keep (s : State) (f : Bsn → Bsn) : (bsnUpd s f).keep = s.keep := rfl
@[simp] theorem bsnUpd_sad (s : State) (f : Bsn → Bsn) : (bsnUpd s f).sad = s.sad := rfl
@[simp] theorem bsnUpd_led (s : State) (f : Bsn → Bsn) : (bsnUpd s f).led = s.led := rfl
@[simp] theorem bsnUpd_coil (s : State) (f : Bsn → Bsn) : (bsnUpd s f).coil = s.coil := rfl
@[simp] theorem bsnUpd_cld (s : State) (f : Bsn → Bsn) : (bsnUpd s f).cld = s.cld := rfl
@[simp] theorem bsnUpd_pt (s : State) (f : Bsn → Bsn) : (bsnUpd s f).pt = s.pt := rfl
@[simp] theorem bsnUpd_rf (s : State) (f : Bsn → Bsn) : (bsnUpd s f).rf = s.rf := rfl
@[simp] theorem bsnUpd_prx (s : State) (f : Bsn → Bsn) : (bsnUpd s f).prx = s.prx := rfl
@[simp] theorem bsnUpd_cph (s : State) (f : Bsn → Bsn) : (bsnUpd s f).cph = s.cph := rfl
@[simp] theorem bsnUpd_rng (s : State) (f : Bsn → Bsn) : (bsnUpd s f).rng = s.rng := rfl
@[simp] theorem bsnUpd_bsn (s : State) (f : Bsn → Bsn) : (bsnUpd s f).bsn = f s.bsn := rfl
@[simp] theorem bsnUpd_dir (s : State) (f : Bsn → Bsn) : (bsnUpd s f).dir = s.dir := rfl
@[simp] theorem bsnUpd_pl (s : State) (f : Bsn → Bsn) : (bsnUpd s f).pl = s.pl := rfl
@[simp] theorem bsnUpd_iv (s : State) (f : Bsn → Bsn) : (bsnUpd s f).iv = s.iv := rfl
@[simp] theorem bsnUpd_pm (s : State) (f : Bsn → Bsn) : (bsnUpd s f).pm = s.pm := rfl
@[simp] theorem bsnUpd_sec (s : State) (f : Bsn → Bsn) : (bsnUpd s f).sec = s.sec := rfl
@[simp] theorem bsnUpd_vio (s : State) (f : Bsn → Bsn) : (bsnUpd s f).vio = s.vio := rfl
@[simp] theorem bsnUpd_getW (s : State) (f : Bsn → Bsn) (o : Nat) : (bsnUpd s f).getW o = s.getW o := rfl
@[simp] theorem bsnUpd_get (s : State) (f : Bsn → Bsn) (g : Fd) : (bsnUpd s f).get g = s.get g := rfl
@[simp] theorem bsnUpd_on (s : State) (f : Bsn → Bsn) (g : Fd) : (bsnUpd s f).on g = s.on g := rfl
@[simp] theorem dirUpd_pending (s : State) (f : Dir → Dir) : (dirUpd s f).pending = s.pending := rfl
@[simp] theorem dirUpd_now (s : State) (f : Dir → Dir) : (dirUpd s f).now = s.now := rfl
@[simp] theorem dirUpd_rtc (s : State) (f : Dir → Dir) : (dirUpd s f).rtc = s.rtc := rfl
@[simp] theorem dirUpd_free (s : State) (f : Dir → Dir) : (dirUpd s f).free = s.free := rfl
@[simp] theorem dirUpd_regs (s : State) (f : Dir → Dir) : (dirUpd s f).regs = s.regs := rfl
@[simp] theorem dirUpd_sw (s : State) (f : Dir → Dir) : (dirUpd s f).sw = s.sw := rfl
@[simp] theorem dirUpd_ev (s : State) (f : Dir → Dir) : (dirUpd s f).ev = s.ev := rfl
@[simp] theorem dirUpd_hst (s : State) (f : Dir → Dir) : (dirUpd s f).hst = s.hst := rfl
@[simp] theorem dirUpd_nv (s : State) (f : Dir → Dir) : (dirUpd s f).nv = s.nv := rfl
@[simp] theorem dirUpd_stops (s : State) (f : Dir → Dir) : (dirUpd s f).stops = s.stops := rfl
@[simp] theorem dirUpd_keep (s : State) (f : Dir → Dir) : (dirUpd s f).keep = s.keep := rfl
@[simp] theorem dirUpd_sad (s : State) (f : Dir → Dir) : (dirUpd s f).sad = s.sad := rfl
@[simp] theorem dirUpd_led (s : State) (f : Dir → Dir) : (dirUpd s f).led = s.led := rfl
@[simp] theorem dirUpd_coil (s : State) (f : Dir → Dir) : (dirUpd s f).coil = s.coil := rfl
@[simp] theorem dirUpd_cld (s : State) (f : Dir → Dir) : (dirUpd s f).cld = s.cld := rfl
@[simp] theorem dirUpd_pt (s : State) (f : Dir → Dir) : (dirUpd s f).pt = s.pt := rfl
@[simp] theorem dirUpd_rf (s : State) (f : Dir → Dir) : (dirUpd s f).rf = s.rf := rfl
@[simp] theorem dirUpd_prx (s : State) (f : Dir → Dir) : (dirUpd s f).prx = s.prx := rfl
@[simp] theorem dirUpd_cph (s : State) (f : Dir → Dir) : (dirUpd s f).cph = s.cph := rfl
@[simp] theorem dirUpd_rng (s : State) (f : Dir → Dir) : (dirUpd s f).rng = s.rng := rfl
@[simp] theorem dirUpd_bsn (s : State) (f : Dir → Dir) : (dirUpd s f).bsn = s.bsn := rfl
@[simp] theorem dirUpd_dir (s : State) (f : Dir → Dir) : (dirUpd s f).dir = f s.dir := rfl
@[simp] theorem dirUpd_pl (s : State) (f : Dir → Dir) : (dirUpd s f).pl = s.pl := rfl
@[simp] theorem dirUpd_iv (s : State) (f : Dir → Dir) : (dirUpd s f).iv = s.iv := rfl
@[simp] theorem dirUpd_pm (s : State) (f : Dir → Dir) : (dirUpd s f).pm = s.pm := rfl
@[simp] theorem dirUpd_sec (s : State) (f : Dir → Dir) : (dirUpd s f).sec = s.sec := rfl
@[simp] theorem dirUpd_vio (s : State) (f : Dir → Dir) : (dirUpd s f).vio = s.vio := rfl
@[simp] theorem dirUpd_getW (s : State) (f : Dir → Dir) (o : Nat) : (dirUpd s f).getW o = s.getW o := rfl
@[simp] theorem dirUpd_get (s : State) (f : Dir → Dir) (g : Fd) : (dirUpd s f).get g = s.get g := rfl
@[simp] theorem dirUpd_on (s : State) (f : Dir → Dir) (g : Fd) : (dirUpd s f).on g = s.on g := rfl
@[simp] theorem plUpd_pending (s : State) (f : Pl → Pl) : (plUpd s f).pending = s.pending := rfl
@[simp] theorem plUpd_now (s : State) (f : Pl → Pl) : (plUpd s f).now = s.now := rfl
@[simp] theorem plUpd_rtc (s : State) (f : Pl → Pl) : (plUpd s f).rtc = s.rtc := rfl
@[simp] theorem plUpd_free (s : State) (f : Pl → Pl) : (plUpd s f).free = s.free := rfl
@[simp] theorem plUpd_regs (s : State) (f : Pl → Pl) : (plUpd s f).regs = s.regs := rfl
@[simp] theorem plUpd_sw (s : State) (f : Pl → Pl) : (plUpd s f).sw = s.sw := rfl
@[simp] theorem plUpd_ev (s : State) (f : Pl → Pl) : (plUpd s f).ev = s.ev := rfl
@[simp] theorem plUpd_hst (s : State) (f : Pl → Pl) : (plUpd s f).hst = s.hst := rfl
@[simp] theorem plUpd_nv (s : State) (f : Pl → Pl) : (plUpd s f).nv = s.nv := rfl
@[simp] theorem plUpd_stops (s : State) (f : Pl → Pl) : (plUpd s f).stops = s.stops := rfl
@[simp] theorem plUpd_keep (s : State) (f : Pl → Pl) : (plUpd s f).keep = s.keep := rfl
@[simp] theorem plUpd_sad (s : State) (f : Pl → Pl) : (plUpd s f).sad = s.sad := rfl
@[simp] theorem plUpd_led (s : State) (f : Pl → Pl) : (plUpd s f).led = s.led := rfl
@[simp] theorem plUpd_coil (s : State) (f : Pl → Pl) : (plUpd s f).coil = s.coil := rfl
@[simp] theorem plUpd_cld (s : State) (f : Pl → Pl) : (plUpd s f).cld = s.cld := rfl
@[simp] theorem plUpd_pt (s : State) (f : Pl → Pl) : (plUpd s f).pt = s.pt := rfl
@[simp] theorem plUpd_rf (s : State) (f : Pl → Pl) : (plUpd s f).rf = s.rf := rfl
@[simp] theorem plUpd_prx (s : State) (f : Pl → Pl) : (plUpd s f).prx = s.prx := rfl
@[simp] theorem plUpd_cph (s : State) (f : Pl → Pl) : (plUpd s f).cph = s.cph := rfl
@[simp] theorem plUpd_rng (s : State) (f : Pl → Pl) : (plUpd s f).rng = s.rng := rfl
@[simp] theorem plUpd_bsn (s : State) (f : Pl → Pl) : (plUpd s f).bsn = s.bsn := rfl
@[simp] theorem plUpd_dir (s : State) (f : Pl → Pl) : (plUpd s f).dir = s.dir := rfl
@[simp] theorem plUpd_pl (s : State) (f : Pl → Pl) : (plUpd s f).pl = f s.pl := rfl
@[simp] theorem plUpd_iv (s : State) (f : Pl → Pl) : (plUpd s f).iv = s.iv := rfl
@[simp] theorem plUpd_pm (s : State) (f : Pl → Pl) : (plUpd s f).pm = s.pm := rfl
@[simp] theorem plUpd_sec (s : State) (f : Pl → Pl) : (plUpd s f).sec = s.sec := rfl
@[simp] theorem plUpd_vio (s : State) (f : Pl → Pl) : (plUpd s f).vio = s.vio := rfl
@[simp] theorem plUpd_getW (s : State) (f : Pl → Pl) (o : Nat) : (plUpd s f).getW o = s.getW o := rfl
@[simp] theorem plUpd_get (s : State) (f : Pl → Pl) (g : Fd) : (plUpd s f).get g = s.get g := rfl
@[simp] theorem plUpd_on (s : State) (f : Pl → Pl) (g : Fd) : (plUpd s f).on g = s.on g := rfl
@[simp] theorem ivUpd_pending (s : State) (f : Iv → Iv) : (ivUpd s f).pending = s.pending := rfl
@[simp] theorem ivUpd_now (s : State) (f : Iv → Iv) : (ivUpd s f).now = s.now := rfl
@[simp] theorem ivUpd_rtc (s : State) (f : Iv → Iv) : (ivUpd s f).rtc = s.rtc := rfl
@[simp] theorem ivUpd_free (s : State) (f : Iv → Iv) : (ivUpd s f).free = s.free := rfl
@[simp] theorem ivUpd_regs (s : State) (f : Iv → Iv) : (ivUpd s f).regs = s.regs := rfl
@[simp] theorem ivUpd_sw (s : State) (f : Iv → Iv) : (ivUpd s f).sw = s.sw := rfl
@[simp] theorem ivUpd_ev (s : State) (f : Iv → Iv) : (ivUpd s f).ev = s.ev := rfl
@[simp] theorem ivUpd_hst (s : State) (f : Iv → Iv) : (ivUpd s f).hst = s.hst := rfl
@[simp] theorem ivUpd_nv (s : State) (f : Iv → Iv) : (ivUpd s f).nv = s.nv := rfl
@[simp] theorem ivUpd_stops (s : State) (f : Iv → Iv) : (ivUpd s f).stops = s.stops := rfl
@[simp] theorem ivUpd_keep (s : State) (f : Iv → Iv) : (ivUpd s f).keep = s.keep := rfl
@[simp] theorem ivUpd_sad (s : State) (f : Iv → Iv) : (ivUpd s f).sad = s.sad := rfl
@[simp] theorem ivUpd_led (s : State) (f : Iv → Iv) : (ivUpd s f).led = s.led := rfl
@[simp] theorem ivUpd_coil (s : State) (f : Iv → Iv) : (ivUpd s f).coil = s.coil := rfl
@[simp] theorem ivUpd_cld (s : State) (f : Iv → Iv) : (ivUpd s f).cld = s.cld := rfl
@[simp] theorem ivUpd_pt (s : State) (f : Iv → Iv) : (ivUpd s f).pt = s.pt := rfl
@[simp] theorem ivUpd_rf (s : State) (f : Iv → Iv) : (ivUpd s f).rf = s.rf := rfl
@[simp] theorem ivUpd_prx (s : State) (f : Iv → Iv) : (ivUpd s f).prx = s.prx := rfl
@[simp] theorem ivUpd_cph (s : State) (f : Iv → Iv) : (ivUpd s f).cph = s.cph := rfl
@[simp] theorem ivUpd_rng (s : State) (f : Iv → Iv) : (ivUpd s f).rng = s.rng := rfl
@[simp] theorem ivUpd_bsn (s : State) (f : Iv → Iv) : (ivUpd s f).bsn = s.bsn := rfl
@[simp] theorem ivUpd_dir (s : State) (f : Iv → Iv) : (ivUpd s f).dir = s.dir := rfl
@[simp] theorem ivUpd_pl (s : State) (f : Iv → Iv) : (ivUpd s f).pl = s.pl := rfl
@[simp] theorem ivUpd_iv (s : State) (f : Iv → Iv) : (ivUpd s f).iv = f s.iv := rfl
@[simp] theorem ivUpd_pm (s : State) (f : Iv → Iv) : (ivUpd s f).pm = s.pm := rfl
@[simp] theorem ivUpd_sec (s : State) (f : Iv → Iv) : (ivUpd s f).sec = s.sec := rfl
@[simp] theorem ivUpd_vio (s : State) (f : Iv → Iv) : (ivUpd s f).vio = s.vio := rfl
@[simp] theorem ivUpd_getW (s : State) (f : Iv → Iv) (o : Nat) : (ivUpd s f).getW o = s.getW o := rfl
@[simp] theorem ivUpd_get (s : State) (f : Iv → Iv) (g : Fd) : (ivUpd s f).get g = s.get g := rfl
@[simp] theorem ivUpd_on (s : State) (f : Iv → Iv) (g : Fd) : (ivUpd s f).on g = s.on g := rfl
@[simp] theorem pmUpd_pending (s : State) (f : Pm → Pm) : (pmUpd s f).pending = s.pending := rfl
@[simp] theorem pmUpd_now (s : State) (f : Pm → Pm) : (pmUpd s f).now = s.now := rfl
@[simp] theorem pmUpd_rtc (s : State) (f : Pm → Pm) : (pmUpd s f).rtc = s.rtc := rfl
@[simp] theorem pmUpd_free (s : State) (f : Pm → Pm) : (pmUpd s f).free = s.free := rfl
@[simp] theorem pmUpd_regs (s : State) (f : Pm → Pm) : (pmUpd s f).regs = s.regs := rfl
@[simp] theorem pmUpd_sw (s : State) (f : Pm → Pm) : (pmUpd s f).sw = s.sw := rfl
@[simp] theorem pmUpd_ev (s : State) (f : Pm → Pm) : (pmUpd s f).ev = s.ev := rfl
@[simp] theorem pmUpd_hst (s : State) (f : Pm → Pm) : (pmUpd s f).hst = s.hst := rfl
@[simp] theorem pmUpd_nv (s : State) (f : Pm → Pm) : (pmUpd s f).nv = s.nv := rfl
@[simp] theorem pmUpd_stops (s : State) (f : Pm → Pm) : (pmUpd s f).stops = s.stops := rfl
@[simp] theorem pmUpd_keep (s : State) (f : Pm → Pm) : (pmUpd s f).keep = s.keep := rfl
@[simp] theorem pmUpd_sad (s : State) (f : Pm → Pm) : (pmUpd s f).sad = s.sad := rfl
@[simp] theorem pmUpd_led (s : State) (f : Pm → Pm) : (pmUpd s f).led = s.led := rfl
@[simp] theorem pmUpd_coil (s : State) (f : Pm → Pm) : (pmUpd s f).coil = s.coil := rfl
@[simp] theorem pmUpd_cld (s : State) (f : Pm → Pm) : (pmUpd s f).cld = s.cld := rfl
@[simp] theorem pmUpd_pt (s : State) (f : Pm → Pm) : (pmUpd s f).pt = s.pt := rfl
@[simp] theorem pmUpd_rf (s : State) (f : Pm → Pm) : (pmUpd s f).rf = s.rf := rfl
@[simp] theorem pmUpd_prx (s : State) (f : Pm → Pm) : (pmUpd s f).prx = s.prx := rfl
@[simp] theorem pmUpd_cph (s : State) (f : Pm → Pm) : (pmUpd s f).cph = s.cph := rfl
@[simp] theorem pmUpd_rng (s : State) (f : Pm → Pm) : (pmUpd s f).rng = s.rng := rfl
@[simp] theorem pmUpd_bsn (s : State) (f : Pm → Pm) : (pmUpd s f).bsn = s.bsn := rfl
@[simp] theorem pmUpd_dir (s : State) (f : Pm → Pm) : (pmUpd s f).dir = s.dir := rfl
@[simp] theorem pmUpd_pl (s : State) (f : Pm → Pm) : (pmUpd s f).pl = s.pl := rfl
@[simp] theorem pmUpd_iv (s : State) (f : Pm → Pm) : (pmUpd s f).iv = s.iv := rfl
@[simp] theorem pmUpd_pm (s : State) (f : Pm → Pm) : (pmUpd s f).pm = f s.pm := rfl
@[simp] theorem pmUpd_sec (s : State) (f : Pm → Pm) : (pmUpd s f).sec = s.sec := rfl
@[simp] theorem pmUpd_vio (s : State) (f : Pm → Pm) : (pmUpd s f).vio = s.vio := rfl
@[simp] theorem pmUpd_getW (s : State) (f : Pm → Pm) (o : Nat) : (pmUpd s f).getW o = s.getW o := rfl
@[simp] theorem pmUpd_get (s : State) (f : Pm → Pm) (g : Fd) : (pmUpd s f).get g = s.get g := rfl
@[simp] theorem pmUpd_on (s : State) (f : Pm → Pm) (g : Fd) : (pmUpd s f).on g = s.on g := rfl
@[simp] theorem secUpd_pending (s : State) (f : Sec → Sec) : (secUpd s f).pending = s.pending := rfl
@[simp] theorem secUpd_now (s : State) (f : Sec → Sec) : (secUpd s f).now = s.now := rfl
@[simp] theorem secUpd_rtc (s : State) (f : Sec → Sec) : (secUpd s f).rtc = s.rtc := rfl
@[simp] theorem secUpd_free (s : State) (f : Sec → Sec) : (secUpd s f).free = s.free := rfl
@[simp] theorem secUpd_regs (s : State) (f : Sec → Sec) : (secUpd s f).regs = s.regs := rfl
@[simp] theorem secUpd_sw (s : State) (f : Sec → Sec) : (secUpd s f).sw = s.sw := rfl
@[simp] theorem secUpd_ev (s : State) (f : Sec → Sec) : (secUpd s f).ev = s.ev := rfl
@[simp] theorem secUpd_hst (s : State) (f : Sec → Sec) : (secUpd s f).hst = s.hst := rfl
@[simp] theorem secUpd_nv (s : State) (f : Sec → Sec) : (secUpd s f).nv = s.nv := rfl
@[simp] theorem secUpd_stops (s : State) (f : Sec → Sec) : (secUpd s f).stops = s.stops := rfl
@[simp] theorem secUpd_keep (s : State) (f : Sec → Sec) : (secUpd s f).keep = s.keep := rfl
@[simp] theorem secUpd_sad (s : State) (f : Sec → Sec) : (secUpd s f).sad = s.sad := rfl
@[simp] theorem secUpd_led (s : State) (f : Sec → Sec) : (secUpd s f).led = s.led := rfl
@[simp] theorem secUpd_coil (s : State) (f : Sec → Sec) : (secUpd s f).coil = s.coil := rfl
@[simp] theorem secUpd_cld (s : State) (f : Sec → Sec) : (secUpd s f).cld = s.cld := rfl
@[simp] theorem secUpd_pt (s : State) (f : Sec → Sec) : (secUpd s f).pt = s.pt := rfl
@[simp] theorem secUpd_rf (s : State) (f : Sec → Sec) : (secUpd s f).rf = s.rf := rfl
@[simp] theorem secUpd_prx (s : State) (f : Sec → Sec) : (secUpd s f).prx = s.prx := rfl
@[simp] theorem secUpd_cph (s : State) (f : Sec → Sec) : (secUpd s f).cph = s.cph := rfl
@[simp] theorem secUpd_rng (s : State) (f : Sec → Sec) : (secUpd s f).rng = s.rng := rfl
@[simp] theorem secUpd_bsn (s : State) (f : Sec → Sec) : (secUpd s f).bsn = s.bsn := rfl
@[simp] theorem secUpd_dir (s : State) (f : Sec → Sec) : (secUpd s f).dir = s.dir := rfl
@[simp] theorem secUpd_pl (s : State) (f : Sec → Sec) : (secUpd s f).pl = s.pl := rfl
@[simp] theorem secUpd_iv (s : State) (f : Sec → Sec) : (secUpd s f).iv = s.iv := rfl
@[simp] theorem secUpd_pm (s : State) (f : Sec → Sec) : (secUpd s f).pm = s.pm := rfl
@[simp] theorem secUpd_sec (s : State) (f : Sec → Sec) : (secUpd s f).sec = f s.sec := rfl
@[simp] theorem secUpd_vio (s : State) (f : Sec → Sec) : (secUpd s f).vio = s.vio := rfl
@[simp] theorem secUpd_getW (s : State) (f : Sec → Sec) (o : Nat) : (secUpd s f).getW o = s.getW o := rfl
@[simp] theorem secUpd_get (s : State) (f : Sec → Sec) (g : Fd) : (secUpd s f).get g = s.get g := rfl
@[simp] theorem secUpd_on (s : State) (f : Sec → Sec) (g : Fd) : (secUpd s f).on g = s.on g := rfl
@[simp] theorem vioUpd_pending (s : State) (f : Vio → Vio) : (vioUpd s f).pending = s.pending := rfl
@[simp] theorem vioUpd_now (s : State) (f : Vio → Vio) : (vioUpd s f).now = s.now := rfl
@[simp] theorem vioUpd_rtc (s : State) (f : Vio → Vio) : (vioUpd s f).rtc = s.rtc := rfl
@[simp] theorem vioUpd_free (s : State) (f : Vio → Vio) : (vioUpd s f).free = s.free := rfl
@[simp] theorem vioUpd_regs (s : State) (f : Vio → Vio) : (vioUpd s f).regs = s.regs := rfl
@[simp] theorem vioUpd_sw (s : State) (f : Vio → Vio) : (vioUpd s f).sw = s.sw := rfl
@[simp] theorem vioUpd_ev (s : State) (f : Vio → Vio) : (vioUpd s f).ev = s.ev := rfl
@[simp] theorem vioUpd_hst (s : State) (f : Vio → Vio) : (vioUpd s f).hst = s.hst := rfl
@[simp] theorem vioUpd_nv (s : State) (f : Vio → Vio) : (vioUpd s f).nv = s.nv := rfl
@[simp] theorem vioUpd_stops (s : State) (f : Vio → Vio) : (vioUpd s f).stops = s.stops := rfl
@[simp] theorem vioUpd_keep (s : State) (f : Vio → Vio) : (vioUpd s f).keep = s.keep := rfl
@[simp] theorem vioUpd_sad (s : State) (f : Vio → Vio) : (vioUpd s f).sad = s.sad := rfl
@[simp] theorem vioUpd_led (s : State) (f : Vio → Vio) : (vioUpd s f).led = s.led := rfl
@[simp] theorem vioUpd_coil (s : State) (f : Vio → Vio) : (vioUpd s f).coil = s.coil := rfl
@[simp] theorem vioUpd_cld (s : State) (f : Vio → Vio) : (vioUpd s f).cld = s.cld := rfl
@[simp] theorem vioUpd_pt (s : State) (f : Vio → Vio) : (vioUpd s f).pt = s.pt := rfl
@[simp] theorem vioUpd_rf (s : State) (f : Vio → Vio) : (vioUpd s f).rf = s.rf := rfl
@[simp] theorem vioUpd_prx (s : State) (f : Vio → Vio) : (vioUpd s f).prx = s.prx := rfl
@[simp] theorem vioUpd_cph (s : State) (f : Vio → Vio) : (vioUpd s f).cph = s.cph := rfl
@[simp] theorem vioUpd_rng (s : State) (f : Vio → Vio) : (vioUpd s f).rng = s.rng := rfl
@[simp] theorem vioUpd_bsn (s : State) (f : Vio → Vio) : (vioUpd s f).bsn = s.bsn := rfl
@[simp] theorem vioUpd_dir (s : State) (f : Vio → Vio) : (vioUpd s f).dir = s.dir := rfl
@[simp] theorem vioUpd_pl (s : State) (f : Vio → Vio) : (vioUpd s f).pl = s.pl := rfl
@[simp] theorem vioUpd_iv (s : State) (f : Vio → Vio) : (vioUpd s f).iv = s.iv := rfl
@[simp] theorem vioUpd_pm (s : State) (f : Vio → Vio) : (vioUpd s f).pm = s.pm := rfl
@[simp] theorem vioUpd_sec (s : State) (f : Vio → Vio) : (vioUpd s f).sec = s.sec := rfl
@[simp] theorem vioUpd_vio (s : State) (f : Vio → Vio) : (vioUpd s f).vio = f s.vio := rfl
@[simp] theorem vioUpd_getW (s : State) (f : Vio → Vio) (o : Nat) : (vioUpd s f).getW o = s.getW o := rfl
@[simp] theorem vioUpd_get (s : State) (f : Vio → Vio) (g : Fd) : (vioUpd s f).get g = s.get g := rfl
@[simp] theorem vioUpd_on (s : State) (f : Vio → Vio) (g : Fd) : (vioUpd s f).on g = s.on g := rfl

end Sys2Proof.Machine
end

