-- ==== Sys2Proof/Laws/Events.lean ====
section
/-! SUPPORT. What raising a flag can do: it changes the register file, the event block, the host's rings and the NV store's queue
(for its log entry), and nothing else. -/

namespace Sys2Proof.Machine

/-- `t` differs from `s` in the registers, the event block, the host interface and the NV store at most. -/
def EvOnly (s t : State) : Prop := { t with regs := s.regs, ev := s.ev, hst := s.hst, nv := s.nv } = s

theorem EvOnly.refl (s : State) : EvOnly s s := rfl

theorem EvOnly.trans {s t u : State} (h : EvOnly s t) (h' : EvOnly t u) : EvOnly s u := by
  unfold EvOnly at *
  have e : ({ u with regs := s.regs, ev := s.ev, hst := s.hst, nv := s.nv } : State)
      = { ({ u with regs := t.regs, ev := t.ev, hst := t.hst, nv := t.nv } : State) with
          regs := s.regs, ev := s.ev, hst := s.hst, nv := s.nv } := rfl
  rw [e, h', h]

/-- Bringing the next request to the front of its queue changes the NV store alone. -/
theorem nvHead_only {s u : State} {c : Bool} {j : NvJob} (h : nvHead s = some (c, j, u)) : u = { s with nv := u.nv } := by
  unfold nvHead at h
  split at h
  · cases h; rfl
  · cases hf : nvFirst s s.nv.ord with
    | none => simp [hf] at h
    | some x => simp only [hf, Option.map_some, Option.some.injEq, Prod.mk.injEq] at h; obtain ⟨-, -, rfl⟩ := h; rfl

theorem nvHead_evOnly {s u : State} {c : Bool} {j : NvJob} (h : nvHead s = some (c, j, u)) : EvOnly s u := by
  rw [nvHead_only h]; exact rfl

theorem nvKick_evOnly (s : State) : EvOnly s (nvKick s) := by
  unfold nvKick
  split
  · exact rfl
  · split
    · exact rfl
    · rename_i c j u hd
      have hu : EvOnly s u := nvHead_evOnly hd
      unfold nvSetHead
      dsimp only
      split
      · split <;> exact hu
      · split <;> exact hu

theorem nvSubmit_evOnly (s : State) (k : NvKind) (c o : Bool) (src : Nat) (cont : NvCont) : EvOnly s (nvSubmit s k c o src cont).2 := by
  unfold nvSubmit
  split
  · exact rfl
  · split
    · exact rfl
    · refine EvOnly.trans ?_ (nvKick_evOnly _)
      split <;> exact rfl

theorem logAppend1_evOnly (s : State) (src code flags : Nat) (d : List Byte) : EvOnly s (logAppend1 s src code flags d) := by
  unfold logAppend1 nvOwn
  dsimp only
  refine EvOnly.trans ?_ (nvSubmit_evOnly _ _ _ _ _ _)
  exact rfl

theorem hostIrq_evOnly (s : State) (v : Nat) : EvOnly s (hostIrq s v) := by unfold hostIrq; split <;> exact rfl

theorem EvOnly.set {s t : State} (h : EvOnly s t) (f : Fd) (v : Nat) : EvOnly s (t.set f v) := h.trans rfl

theorem eqAdvance_evOnly (s : State) : EvOnly s (eqAdvance s) := ((EvOnly.refl s).set _ _).set _ _
theorem hostWrite_evOnly (s : State) (a : Nat) (b : List Byte) : EvOnly s (hostWrite s a b) := rfl
theorem eqNote_evOnly (s : State) (i : Bool) : EvOnly s (eqNote s i) := rfl

theorem eqWrite_evOnly (s : State) (r : HeldEv) : EvOnly s (eqWrite s r) := by
  have h : ∀ a b i, EvOnly s (eqNote (eqAdvance (hostWrite s a b)) i) := fun a b i =>
    (hostWrite_evOnly s a b).trans ((eqAdvance_evOnly _).trans (eqNote_evOnly _ _))
  unfold eqWrite
  dsimp only
  split
  · exact (h _ _ _).trans (hostIrq_evOnly _ _)
  · exact h _ _ _

theorem eqPost_evOnly (s : State) (r : HeldEv) : EvOnly s (eqPost s r) := by
  unfold eqPost
  split
  · exact rfl
  · split
    · exact rfl
    · exact eqWrite_evOnly s r

theorem evPost_evOnly (s : State) (e : Nat) (r : HeldEv) : EvOnly s (evPost s e r) := by
  unfold evPost
  split
  · exact rfl
  · dsimp only
    split
    · refine EvOnly.trans (eqPost_evOnly s r) ?_
      exact rfl
    · exact eqPost_evOnly s r

theorem evLog_evOnly (s : State) (e b : Nat) (r : HeldEv) : EvOnly s (evLog s e b r) := by
  unfold evLog
  split
  · exact logAppend1_evOnly _ _ _ _ _
  · exact rfl

theorem evCount_evOnly (s : State) (e b : Nat) : EvOnly s (evCount s e b) := rfl

theorem set_evOnly (s : State) (f : Fd) (v : Nat) : EvOnly s (s.set f v) := rfl

theorem raise0_evOnly (s : State) (e b : Nat) : EvOnly s (raise0 s e b) := by
  have h1 : EvOnly s (evCount (s.set (evField e b) 1) e b) := (set_evOnly _ _ _).trans (evCount_evOnly _ _ _)
  unfold raise0
  dsimp only
  split
  · exact h1
  · exact h1.trans ((evPost_evOnly _ _ _).trans (evLog_evOnly _ _ _ _))

theorem foldl_evOnly {α : Type} (f : State → α → State) (hf : ∀ s a, EvOnly s (f s a)) (l : List α) (s : State) :
    EvOnly s (l.foldl f s) := by
  induction l generalizing s with
  | nil => exact rfl
  | cons a l ih => exact EvOnly.trans (hf s a) (ih _)

theorem snapTake_evOnly (s : State) (cause : Nat) : EvOnly s (snapTake s cause) := by
  unfold snapTake
  dsimp only
  have fold := foldl_evOnly (fun t w => t.setW (W.snpData w) (((List.range 64).map (snapWord s)).getD w 0#32))
    (fun _ _ => rfl) (List.range 64) s
  exact (((((fold.set _ _).set _ _).set _ _).set _ _).set _ _)

theorem snapPulse_evOnly (s : State) (cause : Nat) : EvOnly s (snapPulse s cause) := by
  unfold snapPulse
  split <;> exact rfl

theorem snapTrigger_evOnly (s : State) (cause : Nat) : EvOnly s (snapTrigger s cause) := by
  unfold snapTrigger
  split
  · exact (snapTake_evOnly s cause).trans ((snapPulse_evOnly _ _).trans (raise0_evOnly _ _ _))
  · exact (set_evOnly _ _ _).trans (raise0_evOnly _ _ _)

/-- Raising a flag changes nothing outside the registers, the event block, the host interface and the NV store. -/
theorem raise_evOnly (s : State) (e b : Nat) : EvOnly s (raise s e b) := by
  unfold raise
  dsimp only
  split
  · exact EvOnly.trans (raise0_evOnly _ _ _) (snapTrigger_evOnly _ _)
  · exact raise0_evOnly _ _ _

theorem cfgReject_evOnly (s : State) (src : Src) (off : Nat) : EvOnly s (cfgReject s src off) := by
  unfold cfgReject
  dsimp only
  refine EvOnly.trans ?_ (raise_evOnly _ _ _)
  exact rfl

-- Field by field --------------------------------------------------------------------------------------------------------------------

theorem EvOnly.pending {s t : State} (h : EvOnly s t) : t.pending = s.pending := by have e := congrArg State.pending h; exact e
theorem EvOnly.now {s t : State} (h : EvOnly s t) : t.now = s.now := by have e := congrArg State.now h; exact e
theorem EvOnly.rtc {s t : State} (h : EvOnly s t) : t.rtc = s.rtc := by have e := congrArg State.rtc h; exact e
theorem EvOnly.free {s t : State} (h : EvOnly s t) : t.free = s.free := by have e := congrArg State.free h; exact e
theorem EvOnly.sw {s t : State} (h : EvOnly s t) : t.sw = s.sw := by have e := congrArg State.sw h; exact e
theorem EvOnly.stops {s t : State} (h : EvOnly s t) : t.stops = s.stops := by have e := congrArg State.stops h; exact e
theorem EvOnly.keep {s t : State} (h : EvOnly s t) : t.keep = s.keep := by have e := congrArg State.keep h; exact e
theorem EvOnly.sad {s t : State} (h : EvOnly s t) : t.sad = s.sad := by have e := congrArg State.sad h; exact e
theorem EvOnly.led {s t : State} (h : EvOnly s t) : t.led = s.led := by have e := congrArg State.led h; exact e
theorem EvOnly.coil {s t : State} (h : EvOnly s t) : t.coil = s.coil := by have e := congrArg State.coil h; exact e
theorem EvOnly.cld {s t : State} (h : EvOnly s t) : t.cld = s.cld := by have e := congrArg State.cld h; exact e
theorem EvOnly.pt {s t : State} (h : EvOnly s t) : t.pt = s.pt := by have e := congrArg State.pt h; exact e
theorem EvOnly.rf {s t : State} (h : EvOnly s t) : t.rf = s.rf := by have e := congrArg State.rf h; exact e
theorem EvOnly.prx {s t : State} (h : EvOnly s t) : t.prx = s.prx := by have e := congrArg State.prx h; exact e
theorem EvOnly.cph {s t : State} (h : EvOnly s t) : t.cph = s.cph := by have e := congrArg State.cph h; exact e
theorem EvOnly.rng {s t : State} (h : EvOnly s t) : t.rng = s.rng := by have e := congrArg State.rng h; exact e
theorem EvOnly.bsn {s t : State} (h : EvOnly s t) : t.bsn = s.bsn := by have e := congrArg State.bsn h; exact e
theorem EvOnly.dir {s t : State} (h : EvOnly s t) : t.dir = s.dir := by have e := congrArg State.dir h; exact e
theorem EvOnly.pl {s t : State} (h : EvOnly s t) : t.pl = s.pl := by have e := congrArg State.pl h; exact e
theorem EvOnly.iv {s t : State} (h : EvOnly s t) : t.iv = s.iv := by have e := congrArg State.iv h; exact e
theorem EvOnly.pm {s t : State} (h : EvOnly s t) : t.pm = s.pm := by have e := congrArg State.pm h; exact e
theorem EvOnly.sec {s t : State} (h : EvOnly s t) : t.sec = s.sec := by have e := congrArg State.sec h; exact e
theorem EvOnly.vio {s t : State} (h : EvOnly s t) : t.vio = s.vio := by have e := congrArg State.vio h; exact e
@[simp] theorem raise_pending (s : State) (e b : Nat) : (raise s e b).pending = s.pending := (raise_evOnly s e b).pending
@[simp] theorem raise_now (s : State) (e b : Nat) : (raise s e b).now = s.now := (raise_evOnly s e b).now
@[simp] theorem raise_rtc (s : State) (e b : Nat) : (raise s e b).rtc = s.rtc := (raise_evOnly s e b).rtc
@[simp] theorem raise_free (s : State) (e b : Nat) : (raise s e b).free = s.free := (raise_evOnly s e b).free
@[simp] theorem raise_sw (s : State) (e b : Nat) : (raise s e b).sw = s.sw := (raise_evOnly s e b).sw
@[simp] theorem raise_stops (s : State) (e b : Nat) : (raise s e b).stops = s.stops := (raise_evOnly s e b).stops
@[simp] theorem raise_keep (s : State) (e b : Nat) : (raise s e b).keep = s.keep := (raise_evOnly s e b).keep
@[simp] theorem raise_sad (s : State) (e b : Nat) : (raise s e b).sad = s.sad := (raise_evOnly s e b).sad
@[simp] theorem raise_led (s : State) (e b : Nat) : (raise s e b).led = s.led := (raise_evOnly s e b).led
@[simp] theorem raise_coil (s : State) (e b : Nat) : (raise s e b).coil = s.coil := (raise_evOnly s e b).coil
@[simp] theorem raise_cld (s : State) (e b : Nat) : (raise s e b).cld = s.cld := (raise_evOnly s e b).cld
@[simp] theorem raise_pt (s : State) (e b : Nat) : (raise s e b).pt = s.pt := (raise_evOnly s e b).pt
@[simp] theorem raise_rf (s : State) (e b : Nat) : (raise s e b).rf = s.rf := (raise_evOnly s e b).rf
@[simp] theorem raise_prx (s : State) (e b : Nat) : (raise s e b).prx = s.prx := (raise_evOnly s e b).prx
@[simp] theorem raise_cph (s : State) (e b : Nat) : (raise s e b).cph = s.cph := (raise_evOnly s e b).cph
@[simp] theorem raise_rng (s : State) (e b : Nat) : (raise s e b).rng = s.rng := (raise_evOnly s e b).rng
@[simp] theorem raise_bsn (s : State) (e b : Nat) : (raise s e b).bsn = s.bsn := (raise_evOnly s e b).bsn
@[simp] theorem raise_dir (s : State) (e b : Nat) : (raise s e b).dir = s.dir := (raise_evOnly s e b).dir
@[simp] theorem raise_pl (s : State) (e b : Nat) : (raise s e b).pl = s.pl := (raise_evOnly s e b).pl
@[simp] theorem raise_iv (s : State) (e b : Nat) : (raise s e b).iv = s.iv := (raise_evOnly s e b).iv
@[simp] theorem raise_pm (s : State) (e b : Nat) : (raise s e b).pm = s.pm := (raise_evOnly s e b).pm
@[simp] theorem raise_sec (s : State) (e b : Nat) : (raise s e b).sec = s.sec := (raise_evOnly s e b).sec
@[simp] theorem raise_vio (s : State) (e b : Nat) : (raise s e b).vio = s.vio := (raise_evOnly s e b).vio
@[simp] theorem nvSubmit_pending (s : State) (k : NvKind) (c o : Bool) (src : Nat) (cont : NvCont) : (nvSubmit s k c o src cont).2.pending = s.pending := (nvSubmit_evOnly s k c o src cont).pending
@[simp] theorem nvSubmit_now (s : State) (k : NvKind) (c o : Bool) (src : Nat) (cont : NvCont) : (nvSubmit s k c o src cont).2.now = s.now := (nvSubmit_evOnly s k c o src cont).now
@[simp] theorem nvSubmit_rtc (s : State) (k : NvKind) (c o : Bool) (src : Nat) (cont : NvCont) : (nvSubmit s k c o src cont).2.rtc = s.rtc := (nvSubmit_evOnly s k c o src cont).rtc
@[simp] theorem nvSubmit_free (s : State) (k : NvKind) (c o : Bool) (src : Nat) (cont : NvCont) : (nvSubmit s k c o src cont).2.free = s.free := (nvSubmit_evOnly s k c o src cont).free
@[simp] theorem nvSubmit_sw (s : State) (k : NvKind) (c o : Bool) (src : Nat) (cont : NvCont) : (nvSubmit s k c o src cont).2.sw = s.sw := (nvSubmit_evOnly s k c o src cont).sw
@[simp] theorem nvSubmit_stops (s : State) (k : NvKind) (c o : Bool) (src : Nat) (cont : NvCont) : (nvSubmit s k c o src cont).2.stops = s.stops := (nvSubmit_evOnly s k c o src cont).stops
@[simp] theorem nvSubmit_keep (s : State) (k : NvKind) (c o : Bool) (src : Nat) (cont : NvCont) : (nvSubmit s k c o src cont).2.keep = s.keep := (nvSubmit_evOnly s k c o src cont).keep
@[simp] theorem nvSubmit_sad (s : State) (k : NvKind) (c o : Bool) (src : Nat) (cont : NvCont) : (nvSubmit s k c o src cont).2.sad = s.sad := (nvSubmit_evOnly s k c o src cont).sad
@[simp] theorem nvSubmit_led (s : State) (k : NvKind) (c o : Bool) (src : Nat) (cont : NvCont) : (nvSubmit s k c o src cont).2.led = s.led := (nvSubmit_evOnly s k c o src cont).led
@[simp] theorem nvSubmit_coil (s : State) (k : NvKind) (c o : Bool) (src : Nat) (cont : NvCont) : (nvSubmit s k c o src cont).2.coil = s.coil := (nvSubmit_evOnly s k c o src cont).coil
@[simp] theorem nvSubmit_cld (s : State) (k : NvKind) (c o : Bool) (src : Nat) (cont : NvCont) : (nvSubmit s k c o src cont).2.cld = s.cld := (nvSubmit_evOnly s k c o src cont).cld
@[simp] theorem nvSubmit_pt (s : State) (k : NvKind) (c o : Bool) (src : Nat) (cont : NvCont) : (nvSubmit s k c o src cont).2.pt = s.pt := (nvSubmit_evOnly s k c o src cont).pt
@[simp] theorem nvSubmit_rf (s : State) (k : NvKind) (c o : Bool) (src : Nat) (cont : NvCont) : (nvSubmit s k c o src cont).2.rf = s.rf := (nvSubmit_evOnly s k c o src cont).rf
@[simp] theorem nvSubmit_prx (s : State) (k : NvKind) (c o : Bool) (src : Nat) (cont : NvCont) : (nvSubmit s k c o src cont).2.prx = s.prx := (nvSubmit_evOnly s k c o src cont).prx
@[simp] theorem nvSubmit_cph (s : State) (k : NvKind) (c o : Bool) (src : Nat) (cont : NvCont) : (nvSubmit s k c o src cont).2.cph = s.cph := (nvSubmit_evOnly s k c o src cont).cph
@[simp] theorem nvSubmit_rng (s : State) (k : NvKind) (c o : Bool) (src : Nat) (cont : NvCont) : (nvSubmit s k c o src cont).2.rng = s.rng := (nvSubmit_evOnly s k c o src cont).rng
@[simp] theorem nvSubmit_bsn (s : State) (k : NvKind) (c o : Bool) (src : Nat) (cont : NvCont) : (nvSubmit s k c o src cont).2.bsn = s.bsn := (nvSubmit_evOnly s k c o src cont).bsn
@[simp] theorem nvSubmit_dir (s : State) (k : NvKind) (c o : Bool) (src : Nat) (cont : NvCont) : (nvSubmit s k c o src cont).2.dir = s.dir := (nvSubmit_evOnly s k c o src cont).dir
@[simp] theorem nvSubmit_pl (s : State) (k : NvKind) (c o : Bool) (src : Nat) (cont : NvCont) : (nvSubmit s k c o src cont).2.pl = s.pl := (nvSubmit_evOnly s k c o src cont).pl
@[simp] theorem nvSubmit_iv (s : State) (k : NvKind) (c o : Bool) (src : Nat) (cont : NvCont) : (nvSubmit s k c o src cont).2.iv = s.iv := (nvSubmit_evOnly s k c o src cont).iv
@[simp] theorem nvSubmit_pm (s : State) (k : NvKind) (c o : Bool) (src : Nat) (cont : NvCont) : (nvSubmit s k c o src cont).2.pm = s.pm := (nvSubmit_evOnly s k c o src cont).pm
@[simp] theorem nvSubmit_sec (s : State) (k : NvKind) (c o : Bool) (src : Nat) (cont : NvCont) : (nvSubmit s k c o src cont).2.sec = s.sec := (nvSubmit_evOnly s k c o src cont).sec
@[simp] theorem nvSubmit_vio (s : State) (k : NvKind) (c o : Bool) (src : Nat) (cont : NvCont) : (nvSubmit s k c o src cont).2.vio = s.vio := (nvSubmit_evOnly s k c o src cont).vio

end Sys2Proof.Machine
end

