-- ==== Sys2Proof/Laws/EventRegs.lean ====
section
/-! SUPPORT. The registers that raising a flag touches: the flag's own register, the event ring's status, the refused-write counter
of the NV store and the snapshot block. -/

namespace Sys2Proof.Machine

theorem nvKick_regs (s : State) : (nvKick s).regs = s.regs := by
  unfold nvKick
  split
  · rfl
  · split
    · rfl
    · rename_i c j u hd
      have hu : u.regs = s.regs := by rw [nvHead_only hd]
      unfold nvSetHead
      dsimp only
      split <;> split <;> exact hu

theorem nvKick_getW (s : State) (o : Nat) : (nvKick s).getW o = s.getW o := by simp [State.getW, nvKick_regs]

theorem nvSubmit_getW (s : State) (k : NvKind) (c w : Bool) (src : Nat) (cont : NvCont) (o : Nat) (h : o ≠ W.nvCnt) :
    (nvSubmit s k c w src cont).2.getW o = s.getW o := by
  unfold nvSubmit
  split
  · exact getW_set_ne _ _ _ _ h
  · split
    · rfl
    · dsimp only
      rw [nvKick_getW]
      split <;> rfl

theorem evLog_getW (s : State) (e b : Nat) (r : HeldEv) (o : Nat) (h : o ≠ W.nvCnt) : (evLog s e b r).getW o = s.getW o := by
  unfold evLog
  split
  · exact nvSubmit_getW _ _ _ _ _ _ _ h
  · rfl

theorem hostIrq_getW (s : State) (v o : Nat) : (hostIrq s v).getW o = s.getW o := by unfold hostIrq; split <;> rfl

theorem eqAdvance_getW (s : State) (o : Nat) (h : o ≠ W.hrEqStat) : (eqAdvance s).getW o = s.getW o := by
  unfold eqAdvance
  dsimp only
  rw [getW_set_ne _ _ _ _ h, getW_set_ne _ _ _ _ h]

theorem eqWrite_getW (s : State) (r : HeldEv) (o : Nat) (h : o ≠ W.hrEqStat) : (eqWrite s r).getW o = s.getW o := by
  have key : ∀ (a : List Byte) (x : Nat) (i : Bool), (eqNote (eqAdvance (hostWrite s x a)) i).getW o = s.getW o :=
    fun a x i => eqAdvance_getW (hostWrite s x a) o h
  unfold eqWrite
  dsimp only
  split
  · rw [hostIrq_getW, key]
  · exact key _ _ _

theorem evPost_getW (s : State) (e : Nat) (r : HeldEv) (o : Nat) (h : o ≠ W.hrEqStat) : (evPost s e r).getW o = s.getW o := by
  have hp : (eqPost s r).getW o = s.getW o := by
    unfold eqPost
    split
    · rfl
    · split
      · rfl
      · exact eqWrite_getW s r o h
  unfold evPost
  split
  · rfl
  · dsimp only
    split
    · exact hp
    · exact hp

/-- The registers an occurrence does not touch, snapshot aside. -/
theorem raise0_getW (s : State) (e b o : Nat) (h1 : o ≠ (evField e b).off) (h2 : o ≠ W.hrEqStat) (h3 : o ≠ W.nvCnt) :
    (raise0 s e b).getW o = s.getW o := by
  have hc : (evCount (s.set (evField e b) 1) e b).getW o = s.getW o := getW_set_ne s _ _ _ h1
  unfold raise0
  dsimp only
  split
  · exact hc
  · rw [evLog_getW _ _ _ _ _ h3, evPost_getW _ _ _ _ h2, hc]

theorem snapTake_getW (s : State) (cause o : Nat) (h : o < 0x1800 ∨ 0x2000 ≤ o) : (snapTake s cause).getW o = s.getW o := by
  have fold : ∀ (l : List Nat) (g : Nat → W32) (t : State), (∀ w ∈ l, w < 64) →
      (l.foldl (fun t w => t.setW (W.snpData w) (g w)) t).getW o = t.getW o := by
    intro l g
    induction l with
    | nil => intros; rfl
    | cons a l ih =>
      intro t hl
      have ha : a < 64 := hl a (by simp)
      rw [List.foldl_cons, ih _ (fun w hw => hl w (by simp [hw])), getW_setW_ne]
      simp only [W.snpData]
      omega
  have hne : ∀ f : Fd, 0x1800 ≤ f.off → f.off < 0x2000 → o ≠ f.off := by intro f _ _; omega
  unfold snapTake
  simp only [State.bump, State.wrapInc]
  rw [getW_set_ne _ _ _ _ (hne _ (by decide) (by decide)), getW_set_ne _ _ _ _ (hne _ (by decide) (by decide)),
    getW_set_ne _ _ _ _ (hne _ (by decide) (by decide)), getW_set_ne _ _ _ _ (hne _ (by decide) (by decide)),
    getW_set_ne _ _ _ _ (hne _ (by decide) (by decide)), fold _ _ _ (by simp)]

theorem snapTrigger_getW (s : State) (cause o : Nat) (h : o < 0x1800 ∨ 0x2000 ≤ o) (h2 : o ≠ W.hrEqStat) (h3 : o ≠ W.nvCnt) :
    (snapTrigger s cause).getW o = s.getW o := by
  have he : ∀ b, b < 2 → o ≠ (evField 124 b).off := by
    intro b hb
    have : b = 0 ∨ b = 1 := by omega
    rcases this with rfl | rfl
    · show o ≠ W.snpEvf; simp only [W.snpEvf]; omega
    · show o ≠ W.snpEvf; simp only [W.snpEvf]; omega
  have hp : ∀ t : State, (snapPulse t cause).getW o = t.getW o := by
    intro t; unfold snapPulse; split <;> rfl
  unfold snapTrigger
  split
  · rw [raise0_getW _ _ _ _ (he 0 (by omega)) h2 h3, hp, snapTake_getW _ _ _ h]
  · rw [raise0_getW _ _ _ _ (he 1 (by omega)) h2 h3, State.bump, getW_set_ne _ _ _ _ (by show o ≠ 0x180C; omega)]

/-- The registers that raising a flag does not touch. -/
theorem raise_getW (s : State) (e b o : Nat) (h1 : o ≠ (evField e b).off) (h : o < 0x1800 ∨ 0x2000 ≤ o) (h2 : o ≠ W.hrEqStat)
    (h3 : o ≠ W.nvCnt) : (raise s e b).getW o = s.getW o := by
  unfold raise
  dsimp only
  split
  · rw [snapTrigger_getW _ _ _ h h2 h3, raise0_getW _ _ _ _ h1 h2 h3]
  · exact raise0_getW _ _ _ _ h1 h2 h3

/-- The fields that raising a flag does not touch. -/
theorem raise_get (s : State) (e b : Nat) (f : Fd) (h1 : f.off ≠ (evField e b).off) (h : f.off < 0x1800 ∨ 0x2000 ≤ f.off)
    (h2 : f.off ≠ W.hrEqStat) (h3 : f.off ≠ W.nvCnt) : (raise s e b).get f = s.get f := by
  simp [State.get, raise_getW s e b f.off h1 h h2 h3]

end Sys2Proof.Machine
end

