-- ==== Sys2Proof/Laws/Frames.lean ====
section
/-! SUPPORT. Frames on the air (R152, R153): what is sent with its CRC is taken without it. -/

namespace Sys2Proof.Machine

theorem leNat_leBytes (n x : Nat) : leNat (leBytes n x) = x % 256 ^ n := by
  induction n generalizing x with
  | zero => simp [leBytes, leNat, Nat.mod_one]
  | succ n ih =>
    simp only [leBytes, leNat, ih, byte, BitVec.toNat_ofNat]
    rw [show 256 ^ (n + 1) = 256 * 256 ^ n by rw [Nat.pow_succ, Nat.mul_comm]]
    exact (Nat.mod_mul ..).symm

theorem beNat_beBytes (n x : Nat) : beNat (beBytes n x) = x % 256 ^ n := by
  simp [beNat, beBytes, leNat_leBytes]

theorem crc16Step_lt (c : Nat) : crc16Step c < 0x10000 := by
  unfold crc16Step
  split <;> exact Nat.mod_lt _ (by decide)

theorem repeat_lt (n c : Nat) (h : c < 0x10000) : Nat.repeat crc16Step n c < 0x10000 := by
  induction n with
  | zero => exact h
  | succ n ih => exact crc16Step_lt _

theorem crc16Byte_lt (c : Nat) (b : Byte) (h : c < 0x10000) : crc16Byte c b < 0x10000 := by
  refine repeat_lt _ _ (Nat.xor_lt_two_pow (n := 16) h ?_)
  have := b.isLt
  rw [Nat.shiftLeft_eq]; omega

theorem crc16_lt (bs : List Byte) : crc16 bs < 0x10000 := by
  unfold crc16
  generalize hc : 0xFFFF = c
  have h : c < 0x10000 := by omega
  clear hc
  induction bs generalizing c with
  | nil => exact h
  | cons b l ih => rw [List.foldl_cons]; exact ih _ (crc16Byte_lt c b h)

/-- A frame arrives as it was sent (R152, R153). -/
@[simp] theorem airBody_airFrame (bs : List Byte) (h : bs ≠ []) : airBody (airFrame bs) = some bs := by
  have hl : 0 < bs.length := List.length_pos_iff.mpr h
  have hn : (airFrame bs).length - 2 = bs.length := by simp [airFrame, length_beBytes]
  unfold airBody
  simp only [hn]
  rw [if_pos]
  · simp [airFrame]
  · refine ⟨by simp [airFrame, length_beBytes]; omega, ?_⟩
    simp [airFrame, beNat_beBytes, Nat.mod_eq_of_lt (crc16_lt bs)]

end Sys2Proof.Machine
end

