-- ==== Sys2Proof/Laws/Ivler.lean ====
section
/-! SUPPORT. Laws of the Ivler core: its register file, CORESTAT's bits, the passing of cycles, and once for every instruction
what the core does around it in the plain course. -/

namespace Sys2Proof.Machine

-- The register file ------------------------------------------------------------------------------------

theorem wGet_wSet (w : Vector W32 16) (a b : Nat) (v : W32) : wGet (wSet w a v) b = if a % 16 = b % 16 then v else wGet w b := by
  simp only [wGet, wSet, Vector.getElem_set]

theorem wGet_mod (w : Vector W32 16) (r : Nat) : wGet w (r % 16) = wGet w r := by simp [wGet]

theorem wSet_mod (w : Vector W32 16) (r : Nat) (v : W32) : wSet w (r % 16) v = wSet w r v := by simp [wSet]

-- CORESTAT ---------------------------------------------------------------------------------------------

theorem csBit_eq (w : W32) (i : Nat) : csBit w i = w.getLsbD i := by simp [csBit, BitVec.getLsbD]

theorem csBit_csPut (w : W32) (i j : Nat) (b : Bool) (hi : i < 32) : csBit (csPut w i b) j = if j = i then b else csBit w j := by
  by_cases hj : j < 32
  · by_cases h : j = i
    · subst h; simp [csBit, csPut, testBit_wPut_bit _ _ _ hi]
    · simp [csBit, csPut, testBit_wPut_bit_ne _ _ _ _ hj h, h]
  · have hge : ∀ x : W32, csBit x j = false := fun x => by rw [csBit_eq]; exact BitVec.getLsbD_of_ge x j (by omega)
    have : j ≠ i := by omega
    simp [hge, this]

theorem coreFlags_all (w r : W32) (c v : Bool) : CoreFlags w (flagsAll w r c v) (r == 0#32) r.msb c v := by
  simp only [CoreFlags, flagsAll, flagsZN]
  refine ⟨?_, ?_, ?_, ?_, fun i hi => ?_⟩ <;> simp [csBit_csPut, Cs.z, Cs.n, Cs.c, Cs.v]
  have h : i ≠ 0 ∧ i ≠ 1 ∧ i ≠ 2 ∧ i ≠ 3 := by omega
  simp [h]

theorem coreFlags_zn (w r : W32) : CoreFlags w (flagsZN w r) (r == 0#32) r.msb (csBit w Cs.c) (csBit w Cs.v) := by
  simp only [CoreFlags, flagsZN]
  refine ⟨?_, ?_, ?_, ?_, fun i hi => ?_⟩ <;> simp [csBit_csPut, Cs.z, Cs.n, Cs.c, Cs.v]
  have h : i ≠ 0 ∧ i ≠ 1 ∧ i ≠ 2 ∧ i ≠ 3 := by omega
  simp [h]

theorem coreFlags_znc (w r : W32) (c : Bool) : CoreFlags w (csPut (flagsZN w r) Cs.c c) (r == 0#32) r.msb c (csBit w Cs.v) := by
  simp only [CoreFlags, flagsZN]
  refine ⟨?_, ?_, ?_, ?_, fun i hi => ?_⟩ <;> simp [csBit_csPut, Cs.z, Cs.n, Cs.c, Cs.v]
  have h : i ≠ 0 ∧ i ≠ 1 ∧ i ≠ 2 ∧ i ≠ 3 := by omega
  simp [h]

theorem coreFlags_same (w : W32) : CoreFlags w w (csBit w Cs.z) (csBit w Cs.n) (csBit w Cs.c) (csBit w Cs.v) :=
  ⟨rfl, rfl, rfl, rfl, fun _ _ => rfl⟩

-- The passing of cycles ----------------------------------------------------------------------------------

/-- Cycles that pass change the multiplies in flight, MDH and MDL only. -/
theorem ivAge_running (s : State) (n : Nat) : ivAge s n = { s with iv := ivRunning s.iv (ivAge s n).iv } := by
  have hf : ∀ (l : List (Nat × W32 × W32)) (c : Iv),
      l.foldl (fun c m => { c with mdh := m.2.1, mdl := m.2.2 }) c =
        { c with mdh := (l.foldl (fun c m => { c with mdh := m.2.1, mdl := m.2.2 }) c).mdh
                 mdl := (l.foldl (fun c m => { c with mdh := m.2.1, mdl := m.2.2 }) c).mdl } := by
    intro l
    induction l with
    | nil => intro c; rfl
    | cons m l ih => intro c; simp only [List.foldl_cons]; rw [ih]
  unfold ivAge ivUpd ivRunning
  dsimp only
  rw [hf]

theorem ivAge_pc (s : State) (n : Nat) : (ivAge s n).iv.pc = s.iv.pc := by
  rw [ivAge_running]; unfold ivRunning ivAge ivUpd; dsimp only
  have hf : ∀ (l : List (Nat × W32 × W32)) (c : Iv),
      (l.foldl (fun c m => { c with mdh := m.2.1, mdl := m.2.2 }) c).pc = c.pc := by
    intro l; induction l with
    | nil => intro c; rfl
    | cons m l ih => intro c; simp only [List.foldl_cons]; rw [ih]
  rw [hf]

theorem ivAge_ldReg (s : State) (n : Nat) : (ivAge s n).iv.ldReg = s.iv.ldReg := by
  unfold ivAge ivUpd; dsimp only
  have hf : ∀ (l : List (Nat × W32 × W32)) (c : Iv),
      (l.foldl (fun c m => { c with mdh := m.2.1, mdl := m.2.2 }) c).ldReg = c.ldReg := by
    intro l; induction l with
    | nil => intro c; rfl
    | cons m l ih => intro c; simp only [List.foldl_cons]; rw [ih]
  rw [hf]

theorem ivAge_idle (s : State) (n : Nat) (h : s.iv.mul = []) :
    (ivAge s n).iv.mul = [] ∧ (ivAge s n).iv.mdh = s.iv.mdh ∧ (ivAge s n).iv.mdl = s.iv.mdl := by
  unfold ivAge ivUpd
  simp [h]

-- The plain course -----------------------------------------------------------------------------------------

/-- In the plain course an instruction that is no illegal one executes, where its return-stack fill need not wait. -/
theorem ivGo_execute {s : State} {short : Bool} (h : IvPlain s short) (i : IvIns) (hl : ivIllegal (ivNorm short i) = false)
    (hb : fillBusy s (some (ivNorm short i)) = false) :
    ivGo short i s = .next (ivExecute s (ivEnc short i) short (ivNorm short i)) := by
  have h1 : loadSettle s = s := by simp [loadSettle, h.load]
  have h2 : ivReady s (ivLen short) = true := by simp [ivReady, h.running, h.entry, h.load, h.waiting, h.busy]
  have h3 : (ivUpd (coreFetches s) fun c => { c with waiting := false }) = s := by
    have hc : coreFetches s = s := by simp [coreFetches, h.fetched]
    have hw := h.waiting
    rw [hc]
    unfold ivUpd
    rw [← hw]
  have h4 : ivChecks s (ivEnc short i) short (some (ivNorm short i)) = none := by
    have hs := h.second
    have hw := h.width
    unfold ivChecks
    cases short <;> simp_all [h.first, h.slot, h.rep]
  simp only [ivGo, ivStep, h1, h2, h3, h4, h.halted, h.rep, hb]
  simp

/-- What an instruction leaves in the plain course, when its execution answers a next state: `iv'` is the core it leaves, as
`J` says for every core `k` that differs from the present one in the running quantities only. -/
theorem ivGo_next {s : State} {short : Bool} (h : IvPlain s short) (i : IvIns) (hl : ivIllegal (ivNorm short i) = false)
    (hb : fillBusy s (some (ivNorm short i)) = false) (iv' : Iv)
    (hw : iv'.warn = false) (hs : iv'.slot = none) (hr : iv'.rep_ = none) (hf : iv'.fetched = true)
    (hrun : ∀ k : Iv, k.pc = s.iv.pc → (s.iv.mul = [] → k.mul = [] ∧ k.mdh = s.iv.mdh ∧ k.mdl = s.iv.mdl) → ∃ J n,
      ivRun { s with iv := ivRunning s.iv k } (ivEnc short i) s.iv.pc (ivLen short) (ivNorm short i)
        = .next { s with iv := J } n ∧ ivRunning iv' J = J ∧ J.pc = s.iv.pc ∧
      (s.iv.mul = [] → J.mul = [] ∧ J.mdh = iv'.mdh ∧ J.mdl = iv'.mdl)) :
    ∃ t, ivGo short i s = .next t ∧ IvLeaves s t (ivNext s short) iv' := by
  rw [ivGo_execute h i hl hb]
  refine ⟨_, rfl, ?_⟩
  unfold ivExecute
  generalize hn : (if ivRegion s.iv.pc.toNat (ivLen short) = .nv then 13 else 0) + ivStall s (ivNorm short i) = n0
  have hk : (ivUpd (ivAge s n0) fun c => { c with ldReg := none }) =
      { s with iv := ivRunning s.iv { (ivAge s n0).iv with ldReg := none } } := by
    conv => lhs; rw [ivAge_running]
    rfl
  dsimp only
  rw [hn, hk]
  obtain ⟨J, n, e, hJ, hpc, hmul⟩ := hrun { (ivAge s n0).iv with ldReg := none } (ivAge_pc s n0) (fun hm => ivAge_idle s n0 hm)
  rw [e]
  dsimp only
  have hJf : J.fetched = true := by rw [← hJ]; exact hf
  have hJw : J.warn = false := by rw [← hJ]; exact hw
  have hJs : J.slot = none := by rw [← hJ]; exact hs
  have hJr : J.rep_ = none := by rw [← hJ]; exact hr
  have hrunn : ivcRunning { s with iv := J } = true := h.running
  simp only [hrunn, hJf, Bool.and_true, if_true]
  unfold ivDone
  dsimp only
  rw [hJs, hJr]
  dsimp only
  have hwt : ∀ t : State, t.iv.warn = false → warnTake t = t := by intro t ht; simp [warnTake, ht]
  have ha := ivAge_running (ivUpd { s with iv := J } fun c => { c with pc := J.pc + BitVec.ofNat 32 (ivLen short) }) n
  rw [hwt _ (by rw [ha]; exact hJw)]
  refine ⟨?_, ?_, fun hm => ?_⟩
  · conv => lhs; rw [ha]
    rw [← hJ]; rfl
  · rw [ivAge_pc]; simp [ivUpd, ivNext, hpc]
  · obtain ⟨m1, m2, m3⟩ := hmul hm
    have := ivAge_idle (ivUpd { s with iv := J } fun c => { c with pc := J.pc + BitVec.ofNat 32 (ivLen short) }) n m1
    exact ⟨this.2.1.trans m2, this.2.2.trans m3⟩

-- Results and flags ----------------------------------------------------------------------------------------

theorem ivReg_run (s : State) (k : Iv) (r : Nat) : ivReg { s with iv := ivRunning s.iv k } r = ivReg s r := rfl
theorem ivRunning_core (s : State) (k : Iv) : (ivRunning s.iv k).core = s.iv.core := rfl
theorem ivReg_mod (s : State) (r : Nat) : ivReg s (r % 16) = ivReg s r := wGet_mod _ _
theorem ivSetReg_mod (s : State) (r : Nat) (v) : ivSetReg s (r % 16) v = ivSetReg s r v := by simp [ivSetReg, wSet_mod]
theorem ivRes_mod (s : State) (r : Nat) (v c) : ivRes s (r % 16) v c = ivRes s r v c := by simp [ivRes, ivSetReg_mod]
theorem ivFirst_norm (short : Bool) (rd ra) : (if short = true then rd % 16 else ra % 16) = ivFirst short rd ra % 16 := by cases short <;> rfl

/-- An instruction whose execution answers a register and a CORESTAT word. -/
theorem ivGo_res {s : State} {short : Bool} (h : IvPlain s short) (i : IvIns) (rd : Nat) (r core : W32)
    (hl : ivIllegal (ivNorm short i) = false) (hb : fillBusy s (some (ivNorm short i)) = false)
    (hrun : ∀ k : Iv, ivRun { s with iv := ivRunning s.iv k } (ivEnc short i) s.iv.pc (ivLen short) (ivNorm short i)
      = ivRes { s with iv := ivRunning s.iv k } rd r core) :
    ∃ t, ivGo short i s = .next t ∧ IvLeaves s t (ivNext s short) (ivWith s rd r core) := by
  refine ivGo_next h i hl hb _ h.warn h.slot h.rep h.fetched fun k hpc hm => ⟨ivRunning (ivWith s rd r core) k, 1, ?_, rfl, hpc, hm⟩
  rw [hrun k]; rfl
theorem sum_eq_ofNat (a b : W32) (c : Bool) : a + b + BitVec.ofNat 32 (b2n c) = BitVec.ofNat 32 (a.toNat + b.toNat + b2n c) := by
  apply BitVec.eq_of_toNat_eq; simp [BitVec.toNat_add]
theorem diff_eq_ofInt (a b : W32) (c : Bool) : a - b - BitVec.ofNat 32 (b2n c) = BitVec.ofInt 32 ((a.toNat:Int) - b.toNat - b2n c) := by
  have := a.isLt; have := b.isLt; have := b2n_lt c
  apply BitVec.eq_of_toNat_eq
  simp only [BitVec.toNat_sub, BitVec.toNat_ofNat, BitVec.toNat_ofInt]
  omega

theorem coreFlags_sum (w a b : W32) (c : Bool) : 
   CoreFlags w (flagsAll w (a + b + BitVec.ofNat 32 (b2n c)) (addFlags a b c).2.1 (addFlags a b c).2.2)
    (decide ((a.toNat + b.toNat + b2n c) % 2 ^ 32 = 0))
    (decide (2 ^ 31 ≤ (a.toNat + b.toNat + b2n c) % 2 ^ 32)) (decide (2 ^ 32 ≤ a.toNat + b.toNat + b2n c))
    (overflows (a.toInt + b.toInt + b2n c)) := by
  have ez : (a + b + BitVec.ofNat 32 (b2n c) == 0#32) = decide ((a.toNat + b.toNat + b2n c) % 2 ^ 32 = 0) := by
    rw [sum_eq_ofNat, Bool.eq_iff_iff]; simp only [beq_iff_eq, decide_eq_true_eq]
    rw [← BitVec.toNat_inj]; simp
  have en : (a + b + BitVec.ofNat 32 (b2n c)).msb = decide (2 ^ 31 ≤ (a.toNat + b.toNat + b2n c) % 2 ^ 32) := by
    rw [sum_eq_ofNat, BitVec.msb_eq_decide]; simp
  have ev : (addFlags a b c).2.2 = overflows (a.toInt + b.toInt + b2n c) := by
    simp only [addFlags, overflows, sum_eq_ofNat, BitVec.toInt_ofNat']
    rw [Bool.eq_iff_iff]; simp only [decide_eq_true_eq, Bool.or_eq_true]
    have := a.isLt; have := b.isLt
    have ha := BitVec.toInt_eq_toNat_cond a; have hb := BitVec.toInt_eq_toNat_cond b
    simp only [Int.bmod] at *
    split at ha <;> split at hb <;> omega
  have h1 := coreFlags_all w (a + b + BitVec.ofNat 32 (b2n c)) (addFlags a b c).2.1 (addFlags a b c).2.2
  rw [← ez, ← en, ← ev]
  exact h1

theorem coreFlags_diff (w a b : W32) (c : Bool) : 
   CoreFlags w (flagsAll w (a - b - BitVec.ofNat 32 (b2n c)) (subFlags a b c).2.1 (subFlags a b c).2.2)
    (decide (((a.toNat : Int) - b.toNat - b2n c) % 2 ^ 32 = 0))
    (decide (2 ^ 31 ≤ ((a.toNat : Int) - b.toNat - b2n c) % 2 ^ 32)) (decide (b.toNat + b2n c ≤ a.toNat))
    (overflows (a.toInt - b.toInt - b2n c)) := by
  have hn : (a - b - BitVec.ofNat 32 (b2n c)).toNat = (((a.toNat : Int) - b.toNat - b2n c) % 2 ^ 32).toNat := by
    rw [diff_eq_ofInt]; simp
  have hn0 : 0 ≤ ((a.toNat : Int) - b.toNat - b2n c) % 2 ^ 32 := by omega
  have ez : (a - b - BitVec.ofNat 32 (b2n c) == 0#32) = decide (((a.toNat : Int) - b.toNat - b2n c) % 2 ^ 32 = 0) := by
    rw [Bool.eq_iff_iff]; simp only [beq_iff_eq, decide_eq_true_eq]
    rw [← BitVec.toNat_inj, hn]; simp only [BitVec.toNat_ofNat]; omega
  have en : (a - b - BitVec.ofNat 32 (b2n c)).msb = decide (2 ^ 31 ≤ ((a.toNat : Int) - b.toNat - b2n c) % 2 ^ 32) := by
    rw [BitVec.msb_eq_decide, hn, Bool.eq_iff_iff]; simp only [decide_eq_true_eq]; omega
  have ev : (subFlags a b c).2.2 = overflows (a.toInt - b.toInt - b2n c) := by
    simp only [subFlags, overflows, diff_eq_ofInt, BitVec.toInt_ofInt]
    rw [Bool.eq_iff_iff]; simp only [decide_eq_true_eq, Bool.or_eq_true]
    have := a.isLt; have := b.isLt
    have ha := BitVec.toInt_eq_toNat_cond a; have hb := BitVec.toInt_eq_toNat_cond b
    simp only [Int.bmod] at *
    split at ha <;> split at hb <;> omega
  have h1 := coreFlags_all w (a - b - BitVec.ofNat 32 (b2n c)) (subFlags a b c).2.1 (subFlags a b c).2.2
  rw [← ez, ← en, ← ev]
  exact h1

end Sys2Proof.Machine
end

