-- ==== Sys2Proof/Laws/IvlerEncode.lean ====
section
/-! SUPPORT. The fields of an Ivler-2 encoding, and immediates cut to their fields. -/

namespace Sys2Proof.Machine

/-- The fields of a 32-bit word: the prefix, MAJOR, the two register fields and the low half. -/
theorem enc32_fields (major hi lo rest : Nat) :
    enc32 major hi lo rest / 2 ^ 29 = 7 ∧ enc32 major hi lo rest / 2 ^ 24 % 32 = major % 32 ∧
    enc32 major hi lo rest / 2 ^ 20 % 16 = hi % 16 ∧ enc32 major hi lo rest / 2 ^ 16 % 16 = lo % 16 ∧
    enc32 major hi lo rest % 65536 = rest % 65536 := by
  unfold enc32
  omega

/-- The low half of format R: Rb, FN and AMT. -/
theorem encR_low (rb fn amt : Nat) :
    (rb % 16 * 4096 + fn % 64 * 64 + amt % 64) % 65536 / 4096 = rb % 16 ∧
    (rb % 16 * 4096 + fn % 64 * 64 + amt % 64) % 65536 / 64 % 64 = fn % 64 ∧
    (rb % 16 * 4096 + fn % 64 * 64 + amt % 64) % 65536 % 64 = amt % 64 := by
  omega

/-- The fields of a 16-bit word. -/
theorem enc16_fields (group rest : Nat) : enc16 group rest / 8192 = group % 8 ∧ enc16 group rest % 8192 = rest % 8192 := by
  unfold enc16
  omega

/-- A signed immediate comes back from its field. -/
theorem signed_unsigned_cutI (w : Nat) (x : Int) (h : 0 < w) : signed w (unsigned w (cutI w x)) = cutI w x := by
  obtain ⟨n, rfl⟩ : ∃ n, w = n + 1 := ⟨w - 1, by omega⟩
  have hp : (2 : Int) ^ (n + 1) = 2 * 2 ^ n := by rw [Int.pow_succ, Int.mul_comm]
  have hpn : (2 : Nat) ^ (n + 1) = 2 * 2 ^ n := by rw [Nat.pow_succ, Nat.mul_comm]
  have hq : (0 : Int) < 2 ^ n := Int.pow_pos (by decide)
  have hc : ((2 ^ n : Nat) : Int) = 2 ^ n := by simp
  have hm0 := Int.emod_nonneg x (b := 2 ^ (n + 1)) (by omega)
  have hm1 := Int.emod_lt_of_pos x (b := 2 ^ (n + 1)) (by omega)
  have key : ∀ y : Int, (signed (n + 1) (unsigned (n + 1) y) - y) % 2 ^ (n + 1) = 0 ∧
      -2 ^ n ≤ signed (n + 1) (unsigned (n + 1) y) ∧ signed (n + 1) (unsigned (n + 1) y) < 2 ^ n := by
    intro y
    have h0 := Int.emod_nonneg y (b := 2 ^ (n + 1)) (by omega)
    have h1 := Int.emod_lt_of_pos y (b := 2 ^ (n + 1)) (by omega)
    have e : ((y % 2 ^ (n + 1)).toNat : Int) = y % 2 ^ (n + 1) := Int.toNat_of_nonneg h0
    unfold signed unsigned
    simp only [Nat.add_sub_cancel]
    split
    · rename_i hl
      have : (y % 2 ^ (n + 1)) < 2 ^ n := by rw [← e, ← hc]; exact Int.ofNat_lt.mpr hl
      refine ⟨?_, by omega, by omega⟩
      rw [e, Int.sub_emod, Int.emod_emod_of_dvd _ (Int.dvd_refl _)]; simp
    · rename_i hl
      have : 2 ^ n ≤ (y % 2 ^ (n + 1)) := by
        rw [← e, ← hc]; exact Int.ofNat_le.mpr (Nat.le_of_not_lt hl)
      refine ⟨?_, by omega, by omega⟩
      rw [e, Int.sub_emod, Int.sub_emod (y % _), Int.emod_self, Int.sub_zero, Int.emod_emod_of_dvd _ (Int.dvd_refl _),
        Int.emod_emod_of_dvd _ (Int.dvd_refl _)]; simp
  have k := key (cutI (n + 1) x)
  have c := key x
  have hb : -2 ^ n ≤ cutI (n + 1) x ∧ cutI (n + 1) x < 2 ^ n := c.2
  have hz : ∀ z : Int, z % (2 * 2 ^ n) = 0 → -(2 * 2 ^ n) < z → z < 2 * 2 ^ n → z = 0 := by
    intro z hz h1 h2
    obtain ⟨q, rfl⟩ := Int.dvd_of_emod_eq_zero hz
    generalize (2 : Int) ^ n = p at *
    have hp2 : 0 < 2 * p := by omega
    have : q < 1 := by
      rcases Int.lt_or_le q 1 with h | h
      · exact h
      · have := Int.mul_le_mul_of_nonneg_left h (Int.le_of_lt hp2); omega
    have : -1 < q := by
      rcases Int.lt_or_le (-1) q with h | h
      · exact h
      · have := Int.mul_le_mul_of_nonneg_left h (Int.le_of_lt hp2); omega
    have : q = 0 := by omega
    subst this; omega
  rw [hp] at k
  have := hz _ k.1 (by omega) (by omega)
  omega

end Sys2Proof.Machine
end

