-- ==== Sys2Proof/Laws/Random.lean ====
section
/-! SUPPORT. Draws from the random number unit: when they bring bits, and that they change the unit alone. -/

namespace Sys2Proof.Machine

/-- The instance of a draw. -/
def rngInst (s : State) (i : Nat) : RngInst := s.rng.insts.getD i ⟨[], [], 0, false⟩

theorem length_drbgGen (n : Nat) (key v : List Byte) (h : key.length = 16 ∨ key.length = 32) : (drbgGen n key v).1.length = n := by
  have : ((List.range ((n + 15) / 16)).flatMap fun i => aesEncRk (roundKeys key) (ctrAdd 128 v (i + 1))).length = 16 * ((n + 15) / 16) := by
    rw [List.length_flatMap]
    simp [length_aesEncRk _ _ h, List.map_const', Nat.mul_comm]
  simp only [drbgGen, List.length_take, this]
  omega

/-- A draw answers in one of three ways (R359, R361, R364). -/
theorem rngDraw_cases (s : State) (i n : Nat) :
    (s.on F.rngStat_fatal = true ∧ rngDraw s i n = .fatal) ∨
    (s.on F.rngStat_fatal = false ∧ rngCan s i = false ∧ rngDraw s i n = .wait s) ∨
    (s.on F.rngStat_fatal = false ∧ rngCan s i = true ∧ ∃ r, rngDraw s i n = .bits (drbgGen n (rngInst s i).key (rngInst s i).v).1 { s with rng := r }) := by
  unfold rngDraw
  cases h : s.on F.rngStat_fatal <;> cases h' : rngCan s i <;> simp [rngInst, rngUpd]

theorem rngDraw_of_can (s : State) (i n : Nat) (hf : s.on F.rngStat_fatal = false) (hc : rngCan s i = true) :
    ∃ b u, rngDraw s i n = .bits b u := by
  rcases rngDraw_cases s i n with ⟨h, -⟩ | ⟨-, h, -⟩ | ⟨-, -, r, h⟩
  · simp [hf] at h
  · simp [hc] at h
  · exact ⟨_, _, h⟩

/-- Draws change the unit alone. -/
theorem rngDraw_rng {s u : State} {i n : Nat} {b : List Byte} (h : rngDraw s i n = .bits b u) : u = { s with rng := u.rng } := by
  rcases rngDraw_cases s i n with ⟨-, e⟩ | ⟨-, -, e⟩ | ⟨-, -, r, e⟩ <;> rw [h] at e <;> cases e
  rfl

theorem maskDraws_rng (n : Nat) {s u : State} {b : List Byte} (h : maskDraws n s = .bits b u) : u = { s with rng := u.rng } := by
  induction n generalizing s with
  | zero => simp only [maskDraws, Drawn.bits.injEq] at h; rw [← h.2]
  | succ n ih =>
    simp only [maskDraws] at h
    split at h
    · rename_i b' t e
      rw [ih h, rngDraw_rng e]
    · rename_i d e
      exact absurd h (e b u)

/-- `n` operations have their masks where instance 0 can deliver and is not due to reseed before them (R364). -/
theorem maskDraws_of_can (n : Nat) (s : State) (hf : s.on F.rngStat_fatal = false) (hc : rngCan s 0 = true)
    (hl : 0 < s.rng.insts.length) (hn : (rngInst s 0).cnt + n < 2 ^ 20) : ∃ b u, maskDraws n s = .bits b u := by
  induction n generalizing s with
  | zero => exact ⟨_, _, rfl⟩
  | succ n ih =>
    simp only [maskDraws, maskDraw, rngDraw, hf, hc]
    refine ih _ hf ?_ (by simpa [rngUpd] using hl) ?_
    · simp only [rngCan, Bool.and_eq_true] at hc ⊢
      refine ⟨hc.1, ?_⟩
      rw [rngInst, List.getD_eq_getElem?_getD, List.getElem?_eq_getElem hl, Option.getD_some] at hn
      simp [rngUpd, hl]
      omega
    · simp [rngInst, rngUpd, hl] at hn ⊢
      omega

end Sys2Proof.Machine
end

