-- ==== Sys2Proof/Laws/Switch.lean ====
section
/-! SUPPORT. What sending a frame or a completion can do: it changes the switch, the registers and events, and the power manager's
entry state (a C0 frame ends a SLEEP entry), and nothing else. -/

namespace Sys2Proof.Machine

/-- `t` differs from `s` in the switch, the power manager, the registers, the event block, the host interface and the NV store at
most. -/
def SwOnly (s t : State) : Prop := { t with regs := s.regs, ev := s.ev, hst := s.hst, nv := s.nv, sw := s.sw, pm := s.pm } = s

theorem SwOnly.refl (s : State) : SwOnly s s := rfl

theorem SwOnly.trans {s t u : State} (h : SwOnly s t) (h' : SwOnly t u) : SwOnly s u := by
  unfold SwOnly at *
  have e : ({ u with regs := s.regs, ev := s.ev, hst := s.hst, nv := s.nv, sw := s.sw, pm := s.pm } : State)
      = { ({ u with regs := t.regs, ev := t.ev, hst := t.hst, nv := t.nv, sw := t.sw, pm := t.pm } : State) with
          regs := s.regs, ev := s.ev, hst := s.hst, nv := s.nv, sw := s.sw, pm := s.pm } := rfl
  rw [e, h', h]

theorem EvOnly.toSw {s t : State} (h : EvOnly s t) : SwOnly s t := by
  unfold SwOnly
  have e : ({ t with regs := s.regs, ev := s.ev, hst := s.hst, nv := s.nv, sw := s.sw, pm := s.pm } : State)
      = { ({ t with regs := s.regs, ev := s.ev, hst := s.hst, nv := s.nv } : State) with sw := s.sw, pm := s.pm } := rfl
  rw [e, show ({ t with regs := s.regs, ev := s.ev, hst := s.hst, nv := s.nv } : State) = s from h]

theorem set_swOnly (s : State) (f : Fd) (v : Nat) : SwOnly s (s.set f v) := rfl
theorem bump_swOnly (s : State) (f : Fd) (n : Nat) : SwOnly s (s.bump f n) := rfl
theorem pmUpd_swOnly (s : State) (f : Pm → Pm) : SwOnly s (pmUpd s f) := rfl
theorem raise_swOnly (s : State) (e b : Nat) : SwOnly s (raise s e b) := (raise_evOnly s e b).toSw

theorem pmNote_swOnly (s : State) (w : Nat) : SwOnly s (pmNote s w) := (set_swOnly _ _ _).trans (raise_swOnly _ _ _)

theorem pmListen_swOnly (s : State) : SwOnly s (pmListen s) := by
  unfold pmListen
  split
  · exact pmUpd_swOnly _ _
  · exact rfl

theorem pmAbandon_swOnly (s : State) (ap : Nat) (w : Option Nat) : SwOnly s (pmAbandon s ap w) := by
  unfold pmAbandon
  exact (((set_swOnly _ _ _).trans (set_swOnly _ _ _)).trans (pmUpd_swOnly _ _)).trans
    ((raise_swOnly _ _ _).trans (pmListen_swOnly _))

theorem pmEntryWake_swOnly (s : State) (w : Nat) : SwOnly s (pmEntryWake s w) := by
  unfold pmEntryWake
  split
  · exact (pmNote_swOnly _ _).trans (pmAbandon_swOnly _ _ _)
  · split
    · exact (pmNote_swOnly _ _).trans (pmUpd_swOnly _ _)
    · exact rfl

theorem swQueue_swOnly (s : State) (f : Frame) (o p k : Nat) (g : Option Nat) : SwOnly s (swQueue s f o p k g) := by
  unfold swQueue
  dsimp only
  split
  · refine SwOnly.trans ?_ (pmEntryWake_swOnly _ _)
    exact rfl
  · exact rfl

theorem swComplete_swOnly (s : State) (r : Req) (a b c d e f g : Nat) : SwOnly s (swComplete s r a b c d e f g) := by
  unfold swComplete
  dsimp only
  split
  · split
    · exact bump_swOnly _ _ _
    · exact swQueue_swOnly _ _ _ _ _ _
  · split
    · split
      · exact bump_swOnly _ _ _
      · exact swQueue_swOnly _ _ _ _ _ _
    · exact bump_swOnly _ _ _

theorem mcUpdate_swOnly (s : State) (id : Nat) (f : McRec → McRec) : SwOnly s (mcUpdate s id f) := rfl

theorem mcSettle_swOnly (s : State) (id : Nat) : SwOnly s (mcSettle s id) := by
  unfold mcSettle
  split
  · exact rfl
  · split
    · exact rfl
    · dsimp only
      split
      · exact rfl
      · refine SwOnly.trans ?_ (swComplete_swOnly _ _ _ _ _ _ _ _ _)
        exact rfl

theorem mcFail_swOnly (s : State) (id p st : Nat) : SwOnly s (mcFail s id p st) := by
  unfold mcFail
  exact ((bump_swOnly _ _ _).trans (raise_swOnly _ _ _)).trans ((mcUpdate_swOnly _ _ _).trans (mcSettle_swOnly _ _))

theorem foldl_swOnly {α : Type} (f : State → α → State) (hf : ∀ s a, SwOnly s (f s a)) (l : List α) (s : State) :
    SwOnly s (l.foldl f s) := by
  induction l generalizing s with
  | nil => exact rfl
  | cons a l ih => exact (hf s a).trans (ih _)

theorem swMulticast_swOnly (s : State) (f : Frame) (o : Nat) : SwOnly s (swMulticast s f o) := by
  unfold swMulticast
  dsimp only
  refine SwOnly.trans ?_ (mcSettle_swOnly _ _)
  refine SwOnly.trans (t := { s with sw := { s.sw with nextId := s.sw.nextId + 1, mcs := _ } }) ?_ (foldl_swOnly _ (fun s p => ?_) _ _)
  · exact rfl
  · split
    · exact mcFail_swOnly _ _ _ _
    · exact swQueue_swOnly _ _ _ _ _ _

theorem swIngress_swOnly (s : State) (p k o : Nat) (ok : Bool) (f : Frame) : SwOnly s (swIngress s p k o ok f) := by
  have hf : ∀ (s : State) (r : Req) (c : Prop) [Decidable c] (t : Nat) (a b d : Nat),
      SwOnly s (if 0x80 ≤ t then (if c then s.bump F.swCnt0_baddesc 1 else s)
        else swComplete (if c then s.bump F.swCnt0_baddesc 1 else s) r t a b d 0 0 0) := by
    intro s r c _ t a b d
    have h0 : SwOnly s (if c then s.bump F.swCnt0_baddesc 1 else s) := by split <;> exact rfl
    split
    · exact h0
    · exact h0.trans (swComplete_swOnly _ _ _ _ _ _ _ _ _)
  unfold swIngress
  dsimp only
  split
  · exact hf _ _ _ _ _ _ _
  · split
    · split
      · exact (hf _ _ _ _ _ _ _).trans (bump_swOnly _ _ _)
      · split
        · exact hf _ _ _ _ _ _ _
        · exact swQueue_swOnly _ _ _ _ _ _
    · split
      · split
        · exact swMulticast_swOnly _ _ _
        · exact hf _ _ _ _ _ _ _
      · split
        · exact hf _ _ _ _ _ _ _
        · split
          · split
            · exact rfl
            · exact hf _ _ _ _ _ _ _
          · exact swQueue_swOnly _ _ _ _ _ _

theorem sendFrame_swOnly (s : State) (p k : Nat) (f : Frame) : SwOnly s (sendFrame s p k f) := swIngress_swOnly _ _ _ _ _ _

/-- A completion changes nothing outside the switch, the power manager's entry state, the registers and events. -/
theorem complete_swOnly (s : State) (p k : Nat) (r : Req) (t : Nat) (d : List Byte) : SwOnly s (complete s p k r t d) := by
  unfold complete
  split
  · exact rfl
  · exact sendFrame_swOnly _ _ _ _

/-- A multicast copy is never answered (R438). -/
theorem complete_mc (s : State) (p k : Nat) (r : Req) (t : Nat) (d : List Byte) (h : r.mc = true) : complete s p k r t d = s := by
  simp [complete, h]

-- Field by field --------------------------------------------------------------------------------------------------------------------

theorem SwOnly.pending {s t : State} (h : SwOnly s t) : t.pending = s.pending := by have e := congrArg State.pending h; exact e
theorem SwOnly.now {s t : State} (h : SwOnly s t) : t.now = s.now := by have e := congrArg State.now h; exact e
theorem SwOnly.rtc {s t : State} (h : SwOnly s t) : t.rtc = s.rtc := by have e := congrArg State.rtc h; exact e
theorem SwOnly.free {s t : State} (h : SwOnly s t) : t.free = s.free := by have e := congrArg State.free h; exact e
theorem SwOnly.stops {s t : State} (h : SwOnly s t) : t.stops = s.stops := by have e := congrArg State.stops h; exact e
theorem SwOnly.keep {s t : State} (h : SwOnly s t) : t.keep = s.keep := by have e := congrArg State.keep h; exact e
theorem SwOnly.sad {s t : State} (h : SwOnly s t) : t.sad = s.sad := by have e := congrArg State.sad h; exact e
theorem SwOnly.led {s t : State} (h : SwOnly s t) : t.led = s.led := by have e := congrArg State.led h; exact e
theorem SwOnly.coil {s t : State} (h : SwOnly s t) : t.coil = s.coil := by have e := congrArg State.coil h; exact e
theorem SwOnly.cld {s t : State} (h : SwOnly s t) : t.cld = s.cld := by have e := congrArg State.cld h; exact e
theorem SwOnly.pt {s t : State} (h : SwOnly s t) : t.pt = s.pt := by have e := congrArg State.pt h; exact e
theorem SwOnly.rf {s t : State} (h : SwOnly s t) : t.rf = s.rf := by have e := congrArg State.rf h; exact e
theorem SwOnly.prx {s t : State} (h : SwOnly s t) : t.prx = s.prx := by have e := congrArg State.prx h; exact e
theorem SwOnly.cph {s t : State} (h : SwOnly s t) : t.cph = s.cph := by have e := congrArg State.cph h; exact e
theorem SwOnly.rng {s t : State} (h : SwOnly s t) : t.rng = s.rng := by have e := congrArg State.rng h; exact e
theorem SwOnly.bsn {s t : State} (h : SwOnly s t) : t.bsn = s.bsn := by have e := congrArg State.bsn h; exact e
theorem SwOnly.dir {s t : State} (h : SwOnly s t) : t.dir = s.dir := by have e := congrArg State.dir h; exact e
theorem SwOnly.pl {s t : State} (h : SwOnly s t) : t.pl = s.pl := by have e := congrArg State.pl h; exact e
theorem SwOnly.iv {s t : State} (h : SwOnly s t) : t.iv = s.iv := by have e := congrArg State.iv h; exact e
theorem SwOnly.sec {s t : State} (h : SwOnly s t) : t.sec = s.sec := by have e := congrArg State.sec h; exact e
theorem SwOnly.vio {s t : State} (h : SwOnly s t) : t.vio = s.vio := by have e := congrArg State.vio h; exact e
@[simp] theorem complete_pending (s : State) (p k : Nat) (r : Req) (t : Nat) (d : List Byte) : (complete s p k r t d).pending = s.pending := (complete_swOnly s p k r t d).pending
@[simp] theorem complete_now (s : State) (p k : Nat) (r : Req) (t : Nat) (d : List Byte) : (complete s p k r t d).now = s.now := (complete_swOnly s p k r t d).now
@[simp] theorem complete_rtc (s : State) (p k : Nat) (r : Req) (t : Nat) (d : List Byte) : (complete s p k r t d).rtc = s.rtc := (complete_swOnly s p k r t d).rtc
@[simp] theorem complete_free (s : State) (p k : Nat) (r : Req) (t : Nat) (d : List Byte) : (complete s p k r t d).free = s.free := (complete_swOnly s p k r t d).free
@[simp] theorem complete_stops (s : State) (p k : Nat) (r : Req) (t : Nat) (d : List Byte) : (complete s p k r t d).stops = s.stops := (complete_swOnly s p k r t d).stops
@[simp] theorem complete_keep (s : State) (p k : Nat) (r : Req) (t : Nat) (d : List Byte) : (complete s p k r t d).keep = s.keep := (complete_swOnly s p k r t d).keep
@[simp] theorem complete_sad (s : State) (p k : Nat) (r : Req) (t : Nat) (d : List Byte) : (complete s p k r t d).sad = s.sad := (complete_swOnly s p k r t d).sad
@[simp] theorem complete_led (s : State) (p k : Nat) (r : Req) (t : Nat) (d : List Byte) : (complete s p k r t d).led = s.led := (complete_swOnly s p k r t d).led
@[simp] theorem complete_coil (s : State) (p k : Nat) (r : Req) (t : Nat) (d : List Byte) : (complete s p k r t d).coil = s.coil := (complete_swOnly s p k r t d).coil
@[simp] theorem complete_cld (s : State) (p k : Nat) (r : Req) (t : Nat) (d : List Byte) : (complete s p k r t d).cld = s.cld := (complete_swOnly s p k r t d).cld
@[simp] theorem complete_pt (s : State) (p k : Nat) (r : Req) (t : Nat) (d : List Byte) : (complete s p k r t d).pt = s.pt := (complete_swOnly s p k r t d).pt
@[simp] theorem complete_rf (s : State) (p k : Nat) (r : Req) (t : Nat) (d : List Byte) : (complete s p k r t d).rf = s.rf := (complete_swOnly s p k r t d).rf
@[simp] theorem complete_prx (s : State) (p k : Nat) (r : Req) (t : Nat) (d : List Byte) : (complete s p k r t d).prx = s.prx := (complete_swOnly s p k r t d).prx
@[simp] theorem complete_cph (s : State) (p k : Nat) (r : Req) (t : Nat) (d : List Byte) : (complete s p k r t d).cph = s.cph := (complete_swOnly s p k r t d).cph
@[simp] theorem complete_rng (s : State) (p k : Nat) (r : Req) (t : Nat) (d : List Byte) : (complete s p k r t d).rng = s.rng := (complete_swOnly s p k r t d).rng
@[simp] theorem complete_bsn (s : State) (p k : Nat) (r : Req) (t : Nat) (d : List Byte) : (complete s p k r t d).bsn = s.bsn := (complete_swOnly s p k r t d).bsn
@[simp] theorem complete_dir (s : State) (p k : Nat) (r : Req) (t : Nat) (d : List Byte) : (complete s p k r t d).dir = s.dir := (complete_swOnly s p k r t d).dir
@[simp] theorem complete_pl (s : State) (p k : Nat) (r : Req) (t : Nat) (d : List Byte) : (complete s p k r t d).pl = s.pl := (complete_swOnly s p k r t d).pl
@[simp] theorem complete_iv (s : State) (p k : Nat) (r : Req) (t : Nat) (d : List Byte) : (complete s p k r t d).iv = s.iv := (complete_swOnly s p k r t d).iv
@[simp] theorem complete_sec (s : State) (p k : Nat) (r : Req) (t : Nat) (d : List Byte) : (complete s p k r t d).sec = s.sec := (complete_swOnly s p k r t d).sec
@[simp] theorem complete_vio (s : State) (p k : Nat) (r : Req) (t : Nat) (d : List Byte) : (complete s p k r t d).vio = s.vio := (complete_swOnly s p k r t d).vio
@[simp] theorem sendFrame_pending (s : State) (p k : Nat) (x : Frame) : (sendFrame s p k x).pending = s.pending := (sendFrame_swOnly s p k x).pending
@[simp] theorem sendFrame_now (s : State) (p k : Nat) (x : Frame) : (sendFrame s p k x).now = s.now := (sendFrame_swOnly s p k x).now
@[simp] theorem sendFrame_rtc (s : State) (p k : Nat) (x : Frame) : (sendFrame s p k x).rtc = s.rtc := (sendFrame_swOnly s p k x).rtc
@[simp] theorem sendFrame_free (s : State) (p k : Nat) (x : Frame) : (sendFrame s p k x).free = s.free := (sendFrame_swOnly s p k x).free
@[simp] theorem sendFrame_stops (s : State) (p k : Nat) (x : Frame) : (sendFrame s p k x).stops = s.stops := (sendFrame_swOnly s p k x).stops
@[simp] theorem sendFrame_keep (s : State) (p k : Nat) (x : Frame) : (sendFrame s p k x).keep = s.keep := (sendFrame_swOnly s p k x).keep
@[simp] theorem sendFrame_sad (s : State) (p k : Nat) (x : Frame) : (sendFrame s p k x).sad = s.sad := (sendFrame_swOnly s p k x).sad
@[simp] theorem sendFrame_led (s : State) (p k : Nat) (x : Frame) : (sendFrame s p k x).led = s.led := (sendFrame_swOnly s p k x).led
@[simp] theorem sendFrame_coil (s : State) (p k : Nat) (x : Frame) : (sendFrame s p k x).coil = s.coil := (sendFrame_swOnly s p k x).coil
@[simp] theorem sendFrame_cld (s : State) (p k : Nat) (x : Frame) : (sendFrame s p k x).cld = s.cld := (sendFrame_swOnly s p k x).cld
@[simp] theorem sendFrame_pt (s : State) (p k : Nat) (x : Frame) : (sendFrame s p k x).pt = s.pt := (sendFrame_swOnly s p k x).pt
@[simp] theorem sendFrame_rf (s : State) (p k : Nat) (x : Frame) : (sendFrame s p k x).rf = s.rf := (sendFrame_swOnly s p k x).rf
@[simp] theorem sendFrame_prx (s : State) (p k : Nat) (x : Frame) : (sendFrame s p k x).prx = s.prx := (sendFrame_swOnly s p k x).prx
@[simp] theorem sendFrame_cph (s : State) (p k : Nat) (x : Frame) : (sendFrame s p k x).cph = s.cph := (sendFrame_swOnly s p k x).cph
@[simp] theorem sendFrame_rng (s : State) (p k : Nat) (x : Frame) : (sendFrame s p k x).rng = s.rng := (sendFrame_swOnly s p k x).rng
@[simp] theorem sendFrame_bsn (s : State) (p k : Nat) (x : Frame) : (sendFrame s p k x).bsn = s.bsn := (sendFrame_swOnly s p k x).bsn
@[simp] theorem sendFrame_dir (s : State) (p k : Nat) (x : Frame) : (sendFrame s p k x).dir = s.dir := (sendFrame_swOnly s p k x).dir
@[simp] theorem sendFrame_pl (s : State) (p k : Nat) (x : Frame) : (sendFrame s p k x).pl = s.pl := (sendFrame_swOnly s p k x).pl
@[simp] theorem sendFrame_iv (s : State) (p k : Nat) (x : Frame) : (sendFrame s p k x).iv = s.iv := (sendFrame_swOnly s p k x).iv
@[simp] theorem sendFrame_sec (s : State) (p k : Nat) (x : Frame) : (sendFrame s p k x).sec = s.sec := (sendFrame_swOnly s p k x).sec
@[simp] theorem sendFrame_vio (s : State) (p k : Nat) (x : Frame) : (sendFrame s p k x).vio = s.vio := (sendFrame_swOnly s p k x).vio

end Sys2Proof.Machine
end

