-- ==== Sys2Proof/WellFormed.lean ====
section
/-! DEFINITION. The operand values the spec admits for each command: register numbers and immediates within the fields of the
Ivler-2 formats (R608 to R611), channels, ports, rings, levels and lengths within their ranges. A command outside them is one that no
sender can send; `exec` gives it a meaning all the same. -/

namespace Sys2Proof

-- Operands ----------------------------------------------------------------------------------------------------------------------

/-- A return address names a port, sub-port, device, class and tag (R412). -/
def reqOk (r : Req) : Bool :=
  decide (r.port < 16) && decide (r.sub < 256) && decide (r.dev < 64) && decide (r.cls < 4) && decide (r.optag < 65536)
def optReq (r : Option Req) : Bool := r.all reqOk
def optSub (k : Option Nat) : Bool := k.all fun x => decide (x < 256)
def optLen (n : Nat) (b : Option (List Byte)) : Bool := b.all fun x => x.length == n

/-- A frame's header fields fit (Table 12.2). -/
def frameOk (f : Frame) : Bool :=
  decide (f.typ < 256) && decide (f.cls < 4) && decide (f.dport < 16) && decide (f.sport < 16) && decide (f.dsub < 256)
    && decide (f.ssub < 256) && decide (f.dev < 64) && decide (f.seq < 65536) && decide (f.epoch < 256) && decide (f.mgrp < 256)
    && decide (f.optag < 65536)

/-- Blocks that stop (Table 25.1). -/
def stopBlk (b : Nat) : Bool := decide (12 ≤ b) && decide (b ≤ 38) && b % 2 == 0

/-- Registers W0 to W15. -/
def r1 (a : Nat) : Bool := decide (a < 16)
def r2 (a b : Nat) : Bool := r1 a && r1 b
def r3 (a b c : Nat) : Bool := r1 a && r1 b && r1 c
/-- A two-operand 16-bit form names Rd as its first operand too (R611). -/
def two (short : Bool) (rd ra : Nat) : Bool := !short || rd == ra
/-- A signed immediate of `w` bits. -/
def simm (w : Nat) (x : Int) : Bool := decide (-(2 ^ (w - 1) : Int) ≤ x) && decide (x < (2 ^ (w - 1) : Int))
/-- The offset of a load or store: 16 bits signed, or in the MEM group 0 to 7 units of the access. -/
def memImm (short : Bool) (size : Int) (x : Int) : Bool :=
  if short then decide (0 ≤ x) && decide (x < 8 * size) && x % size == 0 else simm 16 x
/-- BADDR of 13 bits with an index register, or of 10 bits in the BIT group. -/
def bitOk (short : Bool) (b : Nat) (x : Option Nat) : Bool :=
  if short then decide (b < 1024) && x.isNone else decide (b < 8192) && x.all r1
/-- A repeat count up to its bound, or the register that holds it (R580). -/
def rptOk (top n : Nat) (reg : Bool) : Bool := if reg then r1 n else decide (1 ≤ n) && decide (n ≤ top)

-- Commands ------------------------------------------------------------------------------------------------------------------------

/-- The command's operands are such as the spec admits. -/
def Instr.wf : Instr → Bool
  | .registerWrite _ off be _ => decide (off < 0x10000) && off % 4 == 0 && decide (be < 16)
  | .blockStopped blk => stopBlk blk
  | .sadEvaluationCycle => true
  | .sadTermResult _ => true
  | .sadArmTimeout => true
  | .sadParkDwell => true
  | .sadVehStale => true
  | .sadTermMaxage term => decide (term < 16)
  | .sadFbWindowExpiry => true
  | .sadRelFbChange _ => true
  | .sadRequest _ => true
  | .sadEnd => true
  | .sadForceClear => true
  | .sadSavePolicy _ => true
  | .sadRecheck => true
  | .sadVehicleStatus req _ ctx => reqOk req && decide (ctx < 8)
  | .sadVehicleStart req => reqOk req
  | .sadVehicleStop req => reqOk req
  | .saddleReqRelease req _ => reqOk req
  | .saddleReqEnd req _ => reqOk req
  | .saddleReqReport req _ => reqOk req
  | .ledPulseApply => true
  | .ledCheckpointDue => true
  | .ledCheckpoint => true
  | .ledTokenFrame req _ => reqOk req
  | .coilProgramEntry => true
  | .coilProgWait => true
  | .coilJobCensus req port sub _ => reqOk req && decide (port < 16) && decide (sub < 256)
  | .coilJobAuth req port sub _ => reqOk req && decide (port < 16) && decide (sub < 256)
  | .coilJobCensusAuth req port sub _ => reqOk req && decide (port < 16) && decide (sub < 256)
  | .coilJobSweep req port sub _ => reqOk req && decide (port < 16) && decide (sub < 256)
  | .coilJobMapRow req port sub _ => reqOk req && decide (port < 16) && decide (sub < 256)
  | .coilAdmissionPass => true
  | .coilTaskPreempt ch => decide (ch < 48)
  | .coilFieldStable ch _ => decide (ch < 48)
  | .coilFollowUpdate _ _ => true
  | .coilTaskComplete ch => decide (ch < 48)
  | .coilTaskTimeout ch => decide (ch < 48)
  | .coilSweepDone ch _ _ _ => decide (ch < 48)
  | .coilMapRowDone ch _ _ => decide (ch < 48)
  | .coilMapRefresh => true
  | .coilMapSaveDue => true
  | .coilChannelFault ch code => decide (ch < 48) && decide (1 ≤ code) && decide (code ≤ 4)
  | .coilGroupDown group _ _ _ _ => decide (group < 6)
  | .coilGroupUp group _ => decide (group < 6)
  | .coilAutoretry ch => decide (ch < 48)
  | .coilMapFull _ => true
  | .coilMapSave _ => true
  | .coilProgStart => true
  | .coilProgHalt => true
  | .coilProgSave _ => true
  | .coilSweep _ ch => decide (ch < 48)
  | .coilRetry _ ch => decide (ch < 48)
  | .coilMapRow _ ch => decide (ch < 48)
  | .cldTporElapsed ch => decide (ch < 48)
  | .cldDownlinkSent ch => decide (ch < 48)
  | .cldSlotReply ch _ => decide (ch < 48)
  | .cldTagResponse ch _ _ => decide (ch < 48)
  | .cldTnorespExpiry ch => decide (ch < 48)
  | .cldTagAccess req _ => reqOk req
  | .cldTagAccessTimeout _ => true
  | .ptFieldOn => true
  | .ptFieldOff => true
  | .ptHvThreshold _ => true
  | .ptWake => true
  | .ptFieldCensus _ => true
  | .ptMark => true
  | .ptMarkAck => true
  | .ptFieldDrop _ => true
  | .ptFieldRead _ => true
  | .ptFieldWrite _ _ => true
  | .ptFieldKeyLoad _ => true
  | .ptFieldAuthA _ => true
  | .ptFieldAuthB _ => true
  | .ptFieldReportCmd _ => true
  | .ptKeyLoad => true
  | .ptCmdRead _ page => decide (page < 128)
  | .ptCmdWrite _ page => decide (page < 128)
  | .ptSaveCfg _ => true
  | .rfRadioTx req _ => reqOk req
  | .rfRadioRx req _ => reqOk req
  | .rfRadioCw req _ => reqOk req
  | .rfCalLocked _ _ => true
  | .rfCalAttemptTimeout _ => true
  | .rfRxSettled _ => true
  | .rfRxPacket _ _ => true
  | .rfRxWindowExpiry => true
  | .rfTxrampDone => true
  | .rfTxDone => true
  | .rfTxrampdownDone => true
  | .rfLockLoss => true
  | .rfDutyHeldTimeout _ => true
  | .rfRtcMinute => true
  | .rfRegSave _ => true
  | .rfRegLock _ key => decide (key < 256)
  | .rfDcFlush => true
  | .rfClrCnt => true
  | .prxSweepRequest req _ => reqOk req
  | .prxSweepTakeUp _ => true
  | .prxHop _ lost _ => decide (lost = 0 ∨ lost = 3 ∨ lost = 7)
  | .prxConfirmReceived _ => true
  | .prxConfirmTimeout => true
  | .prxSave _ => true
  | .prxClrCnt => true
  | .cphGcm req sub data => reqOk req && decide (sub < 256) && decide (64 ≤ data.length)
  | .cphCcm req sub data => reqOk req && decide (sub < 256) && decide (64 ≤ data.length)
  | .cphCmac req sub data => reqOk req && decide (sub < 256) && decide (64 ≤ data.length)
  | .cphCtr req sub data => reqOk req && decide (sub < 256) && decide (64 ≤ data.length)
  | .cphEcb req sub data => reqOk req && decide (sub < 256) && decide (64 ≤ data.length)
  | .cphEcbKey req sub data => reqOk req && decide (sub < 256) && decide (64 ≤ data.length)
  | .cphDerive req sub data => reqOk req && decide (sub < 256) && decide (64 ≤ data.length)
  | .cphLoadKey req sub data => reqOk req && decide (sub < 256) && decide (64 ≤ data.length)
  | .cphFreeKey req sub data => reqOk req && decide (sub < 256) && decide (64 ≤ data.length)
  | .cphWrap req sub data => reqOk req && decide (sub < 256) && decide (64 ≤ data.length)
  | .cphUnwrap req sub data => reqOk req && decide (sub < 256) && decide (64 ≤ data.length)
  | .cphNonceAlloc req sub data => reqOk req && decide (sub < 256) && decide (64 ≤ data.length)
  | .cphNonceFree req sub data => reqOk req && decide (sub < 256) && decide (64 ≤ data.length)
  | .cphSaveCtx req sub data => reqOk req && decide (sub < 256) && decide (64 ≤ data.length)
  | .cphRestoreCtx req sub data => reqOk req && decide (sub < 256) && decide (64 ≤ data.length)
  | .cphDomainInstall req sub data => reqOk req && decide (sub < 256) && decide (64 ≤ data.length)
  | .cphDomainClear req sub data => reqOk req && decide (sub < 256) && decide (64 ≤ data.length)
  | .cphCipherOpDone core => decide (core < 6)
  | .cphCipherWaitTimeout _ => true
  | .cphCoreFault core => decide (core < 6)
  | .cphClrCnt => true
  | .rngBlockTested jasper opal => optLen 128 jasper && optLen 128 opal
  | .rngStallTimeout _ => true
  | .rngData _ => true
  | .rngRaw _ => true
  | .rngFrame req _ => reqOk req
  | .rngClrStall => true
  | .rngRestart => true
  | .rngClrCnt => true
  | .nvRead _ => true
  | .nvWrite _ => true
  | .nvRecRead _ => true
  | .nvRecWrite _ => true
  | .nvScrubNow => true
  | .nvClrCnt => true
  | .nvSaveCfg _ => true
  | .nvFrameRead req _ => reqOk req
  | .nvFrameWrite req _ => reqOk req
  | .nvFrameRecRead req _ => reqOk req
  | .nvFrameRecWrite req _ => reqOk req
  | .nvProtWrite _ bp => decide (bp < 4)
  | .nvPageWriteDone found => optLen 128 found
  | .nvScrubDue => true
  | .nvScrubPage _ => true
  | .swFrameIngress port sub origin _ => decide (port < 16) && decide (sub < 256) && decide (origin < 64)
  | .swCellSlot => true
  | .swEgressStart port => decide (port < 16)
  | .swFrameDelivered port => decide (port < 16)
  | .swSeqGap _ => true
  | .swPortDown port sub => decide (port < 16) && optSub sub
  | .swPortUp port sub => decide (port < 16) && optSub sub
  | .swStop => true
  | .swStart _ => true
  | .swSave _ => true
  | .swClrCnt => true
  | .swMgRead group => decide (group < 256)
  | .swMgWrite _ group _ => decide (group < 256)
  | .bsnApply _ => true
  | .bsnApplyDone => true
  | .bsnSave _ => true
  | .bsnCapFlush => true
  | .bsnClrCnt => true
  | .bsnStore req _ => reqOk req
  | .bsnCaptureRead req _ => reqOk req
  | .bsnCaptureFlush req _ => reqOk req
  | .dirLookup req data => optReq req && data.length == 80
  | .dirCacheFill => true
  | .dirRead req data => optReq req && data.length == 80
  | .dirNext req data => optReq req && data.length == 80
  | .dirAdd req data => optReq req && data.length == 80
  | .dirModify req data => optReq req && data.length == 80
  | .dirDelete req data => optReq req && data.length == 80
  | .dirWriteThrough page => decide (page < 3072)
  | .dirLoad => true
  | .hostFeatures => true
  | .hostDriverOk => true
  | .hostDrvstatReset _ => true
  | .hostRingEnable _ ring n _ => decide (ring < 3) && decide (n < 16)
  | .hostSqTailDoorbell n idx => decide (n < 16) && decide (idx < 65536)
  | .hostCqHeadDoorbell n idx => decide (n < 16) && decide (idx < 65536)
  | .hostEventHeadDoorbell idx => decide (idx < 65536)
  | .hostNop desc _ => desc.length == 64
  | .hostFrame desc _ => desc.length == 64
  | .hostRegRead desc _ => desc.length == 64
  | .hostRegWrite desc _ => desc.length == 64
  | .hostConfigStop desc _ => desc.length == 64
  | .hostConfigStopTimeout _ => true
  | .hostConfigStart desc _ => desc.length == 64
  | .hostReleaseReq desc _ => desc.length == 64
  | .hostReleaseEnd desc _ => desc.length == 64
  | .hostToken desc _ => desc.length == 64
  | .hostLedgerReport desc _ => desc.length == 64
  | .hostFwExt desc _ => desc.length == 64
  | .hostMgmtRead req sub _ => reqOk req && decide (sub < 256)
  | .hostMgmtWrite req sub _ => reqOk req && decide (sub < 256)
  | .hostMgmtStop req sub _ => reqOk req && decide (sub < 256)
  | .hostMgmtStart req sub _ => reqOk req && decide (sub < 256)
  | .hostCompletionRecord sub f => decide (sub < 256) && frameOk f
  | .hostDmaFail _ ring => decide (ring < 16)
  | .hostIfReset _ => true
  | .hostQspiRead addr n _ => decide (addr < 2 ^ 32) && decide (1 ≤ n)
  | .hostQread addr n _ => decide (addr < 2 ^ 32) && decide (1 ≤ n)
  | .hostQspiWrite addr _ _ => decide (addr < 2 ^ 32)
  | .hostQwrite addr _ _ => decide (addr < 2 ^ 32)
  | .hostRdsr => true
  | .plLinkUp link _ id => decide (link < 2) && decide (id < 64)
  | .plLinkDown link => decide (link < 2)
  | .plCellReceived link _ _ _ _ => decide (link < 2)
  | .plAck link lseq => decide (link < 2) && decide (lseq < 256)
  | .plNak link lseq => decide (link < 2) && decide (lseq < 256)
  | .plCred link cls _ => decide (link < 2) && decide (cls < 4)
  | .plReplayTimeout link => decide (link < 2)
  | .plLstat link lk _ => decide (link < 2) && decide (lk < 64)
  | .plEnum link id dir _ ndev => decide (link < 2) && decide (id < 64) && decide (dir < 2) && decide (ndev < 64)
  | .plEnumTimeout => true
  | .plSlotRelease slot => decide (slot < 256)
  | .plEventFwd req _ => reqOk req
  | .plEnumCmd => true
  | .plReroute => true
  | .plClrCnt => true
  | .ivcFwQueueFrame n f => decide (n < 16) && frameOk f
  | .ivcTxGo len queue => decide (len < 65536) && decide (queue < 16)
  | .ivcWdkick key => decide (key < 256)
  | .ivcWdtWarn => true
  | .ivcWdtReset => true
  | .ivcRun _ _ => true
  | .ivcInterruptEntry => true
  | .ivMov rd ra _ => r2 rd ra
  | .ivAdc rd ra rb short => r3 rd ra rb && two short rd ra
  | .ivSub rd ra rb short => r3 rd ra rb && two short rd ra
  | .ivSbc rd ra rb short => r3 rd ra rb && two short rd ra
  | .ivAnd rd ra rb short => r3 rd ra rb && two short rd ra
  | .ivOr rd ra rb short => r3 rd ra rb && two short rd ra
  | .ivXor rd ra rb short => r3 rd ra rb && two short rd ra
  | .ivNot rd ra _ => r2 rd ra
  | .ivNeg rd ra _ => r2 rd ra
  | .ivCmp ra rb _ => r2 ra rb
  | .ivTst ra rb _ => r2 ra rb
  | .ivShl rd ra rb short => r3 rd ra rb && two short rd ra
  | .ivShr rd ra rb short => r3 rd ra rb && two short rd ra
  | .ivSar rd ra rb short => r3 rd ra rb && two short rd ra
  | .ivRor rd ra rb short => r3 rd ra rb && two short rd ra
  | .ivShli rd ra n short => r2 rd ra && decide (n < 32) && two short rd ra
  | .ivShri rd ra n short => r2 rd ra && decide (n < 32) && two short rd ra
  | .ivSari rd ra n short => r2 rd ra && decide (n < 32) && two short rd ra
  | .ivRori rd ra n short => r2 rd ra && decide (n < 32) && two short rd ra
  | .ivSxb rd ra _ => r2 rd ra
  | .ivSxh rd ra _ => r2 rd ra
  | .ivZxb rd ra _ => r2 rd ra
  | .ivZxh rd ra _ => r2 rd ra
  | .ivAddi rd ra imm short => r2 rd ra && two short rd ra && simm (if short then 7 else 16) imm
  | .ivAndi rd ra imm => r2 rd ra && decide (imm < 65536)
  | .ivOri rd ra imm => r2 rd ra && decide (imm < 65536)
  | .ivXori rd ra imm => r2 rd ra && decide (imm < 65536)
  | .ivCmpi ra imm short => r1 ra && simm (if short then 7 else 16) imm
  | .ivLui rd imm => r1 rd && decide (imm < 2 ^ 20)
  | .ivMovi rd imm short => r1 rd && simm (if short then 7 else 20) imm
  | .ivLdw rd ra imm short => r2 rd ra && memImm short 4 imm
  | .ivLdh rd ra imm => r2 rd ra && simm 16 imm
  | .ivLdhu rd ra imm => r2 rd ra && simm 16 imm
  | .ivLdb rd ra imm => r2 rd ra && simm 16 imm
  | .ivLdbu rd ra imm short => r2 rd ra && memImm short 1 imm
  | .ivStw rd ra imm short => r2 rd ra && memImm short 4 imm
  | .ivSth rd ra imm => r2 rd ra && simm 16 imm
  | .ivStb rd ra imm short => r2 rd ra && memImm short 1 imm
  | .ivLdd rd imm => r1 rd && decide (imm < 65536)
  | .ivStd rd imm => r1 rd && decide (imm < 65536)
  | .ivPush ra _ => r1 ra
  | .ivPop rd _ => r1 rd
  | .ivLdbit baddr x short => bitOk short baddr x
  | .ivLdbitn baddr x => bitOk false baddr x
  | .ivAndb baddr x short => bitOk short baddr x
  | .ivAndbn baddr x => bitOk false baddr x
  | .ivOrb baddr x short => bitOk short baddr x
  | .ivOrbn baddr x => bitOk false baddr x
  | .ivXorb baddr x short => bitOk short baddr x
  | .ivStbit baddr x short => bitOk short baddr x
  | .ivStbitn baddr x => bitOk false baddr x
  | .ivSetb baddr x short => bitOk short baddr x
  | .ivClrb baddr x short => bitOk short baddr x
  | .ivNotb baddr x short => bitOk short baddr x
  | .ivTstset baddr x => bitOk false baddr x
  | .ivBacc n => decide (n < 3)
  | .ivBcc cond disp short => decide (cond < 16) && simm (if short then 9 else 20) disp
  | .ivJmp disp short => simm (if short then 12 else 24) disp
  | .ivCall disp short => simm (if short then 12 else 24) disp
  | .ivJr ra _ => r1 ra
  | .ivCallr ra _ => r1 ra
  | .ivRet _ => true
  | .ivTret _ => true
  | .ivMul rd ra rb => r3 rd ra rb
  | .ivMulhs rd ra rb => r3 rd ra rb
  | .ivMulhu rd ra rb => r3 rd ra rb
  | .ivMls ra rb _ => r2 ra rb
  | .ivMlu ra rb _ => r2 ra rb
  | .ivCrcb rd ra mem short => r2 rd ra && !(mem && (short || rd == ra))
  | .ivCrch rd ra mem short => r2 rd ra && !(mem && (short || rd == ra))
  | .ivCrcw rd ra mem short => r2 rd ra && !(mem && (short || rd == ra))
  | .ivPar ra _ => r1 ra
  | .ivBrevB rd ra _ => r2 rd ra
  | .ivBrevH rd ra _ => r2 rd ra
  | .ivBrevW rd ra _ => r2 rd ra
  | .ivMfs rd sr short => r1 rd && decide (sr < if short then 16 else 20)
  | .ivMts sr ra short => r1 ra && decide (sr < if short then 16 else 20)
  | .ivRpt n reg _ => rptOk 64 n reg
  | .ivRpti n reg => rptOk 4096 n reg
  | .ivSleep mode _ => decide (1 ≤ mode) && decide (mode ≤ 3)
  | .ivBreak imm short => decide (imm < if short then 256 else 65536)
  | .ivSyscall imm short => decide (imm < if short then 256 else 65536)
  | .ivNop _ => true
  | .ivWait => true
  | .ivSync => true
  | .pmTargetWrite v => decide (v < 8)
  | .pmSleepDrainDone => true
  | .pmDrainTimeout => true
  | .pmEntryComplete => true
  | .pmWakeEvent w => decide (w < 19)
  | .pmSniffRound _ => true
  | .pmSniffRfSync _ => true
  | .pmHoldupEntry cause => decide (1 ≤ cause) && decide (cause ≤ 3)
  | .pmHoldupExit _ _ _ _ => true
  | .pmKeeperCut => true
  | .pmHoldReadyChange _ => true
  | .pmCaptest _ _ => true
  | .pmAlarmWrite _ => true
  | .pmRtcAlarm => true
  | .clkSyspllEn => true
  | .clkPllLock => true
  | .clkSel => true
  | .clkBasinReady => true
  | .clkXtalFail => true
  | .clkXtalOk => true
  | .clkRtcCrystalStop => true
  | .clkLfrcCalibration _ => true
  | .clkDevrst key => decide (key < 256)
  | .clkDeviceReset cause => decide (1 ≤ cause) && decide (cause ≤ 7)
  | .clkDeviceStart _ _ _ => true
  | .evSave _ => true
  | .evOccClr => true
  | .evTmrWrite _ => true
  | .evTimerExpiry n => decide (n < 2)
  | .evSnpTrig => true
  | .evSnapIn => true
  | .evSnpArm => true
  | .evSnpStatRead => true
  | .evSnpClrCnt => true
  | .evBudgetWrite _ _ => true
  | .evArbClr => true
  | .secProvision req _ => reqOk req
  | .secKeyInstall req _ => reqOk req
  | .secDeploy req _ => reqOk req
  | .secAuthTransfer req _ => reqOk req
  | .secAuthRetire req _ => reqOk req
  | .secAuthTamperClear req _ => reqOk req
  | .secAuthDebug req _ => reqOk req
  | .secFwBegin req _ => reqOk req
  | .secFwWrite req _ => reqOk req
  | .secFwCommit req _ => reqOk req
  | .secFwReseal req _ => reqOk req
  | .secTamperDetect n => decide (n < 4)
  | .secTamperInactive n => decide (n < 4)
  | .secTamperClearWrite _ => true
  | .dbgId => true
  | .dbgAuth auth => auth.length == 48
  | .dbgClose => true
  | .dbgRd addr n => decide (addr < 2 ^ 32) && decide (n < 65536)
  | .dbgWr addr _ => decide (addr < 2 ^ 32)
  | .dbgHalt => true
  | .dbgRun => true
  | .dbgStep => true
  | .dbgReset key => decide (key < 256)
  | .dbgTest => true
  | .vioCanFrame n ide id _ _ => decide (n < 2) && decide (id < if ide then 2 ^ 29 else 2 ^ 11)
  | .vioBusoff n _ _ => decide (n < 2)
  | .vioBusoffRecovery n => decide (n < 2)
  | .vioMeterEdge _ _ => true
  | .vioMeterPulse _ => true
  | .vioRelFault _ => true
  | .vioClrCnt => true
  | .cldClrCnt => true
  | .ivAdd rd ra rb short => r3 rd ra rb && two short rd ra
  | .rfSyncDetected rssi _ => decide (rssi < 256)
  | .cldUplinkHeader ch => decide (ch < 48)
  | .plSocReceived link _ _ => decide (link < 2)
  | .ivcTransmitEngineDone => true
  | .rngReseedDone inst => decide (inst < 8)
  | .hostDescriptorFetch desc _ => desc.length == 64
  | .hostPcieLinkUp => true
  | .pmPerstNRise => true
  | .vioErrorPassive n _ _ => decide (n < 2)
  | .clkRtcCrystalRunning => true
  | .dirLoadEnd => true
  | .sadTermRefreshTimeout term => decide (term < 16)

end Sys2Proof
end

