-- ==== Sys2Proof/Tests/Slice0.lean ====
section
/-! SUPPORT. Tests: the well-formedness smoke, and for every statement states and operands that meet its hypotheses. -/

namespace Sys2Proof.Tests

open Sys2Proof.Machine

-- Well-formedness: for each check a command that it refuses, and the commands it admits -----------------------------------

def req0 : Req := ⟨8, 0, 0, 1, 0, false⟩
def badReq : Req := ⟨16, 0, 0, 1, 0, false⟩
def frame0 : Frame := mkFrame 0 0 0 0 0 0 []
def badFrame : Frame := mkFrame 256 0 0 0 0 0 []

theorem test_wf_illFormed0 : (([
   .registerWrite .host 65536 0 0#32, .registerWrite .host 2 0 0#32, .registerWrite .host 0 16 0#32, .blockStopped 10,
   .blockStopped 13, .blockStopped 40, .sadTermMaxage 16, .sadVehicleStatus badReq false 0, .sadVehicleStatus req0 false 8,
   .sadVehicleStart badReq, .sadVehicleStop badReq, .saddleReqRelease badReq [], .saddleReqEnd badReq [],
   .saddleReqReport badReq [], .ledTokenFrame badReq [], .coilJobCensus badReq 0 0 [], .coilJobCensus req0 16 0 [],
   .coilJobCensus req0 0 256 [], .coilJobAuth badReq 0 0 [], .coilJobAuth req0 16 0 [], .coilJobAuth req0 0 256 [],
   .coilJobCensusAuth badReq 0 0 [], .coilJobCensusAuth req0 16 0 [], .coilJobCensusAuth req0 0 256 [],
   .coilJobSweep badReq 0 0 [], .coilJobSweep req0 16 0 [], .coilJobSweep req0 0 256 [], .coilJobMapRow badReq 0 0 [],
   .coilJobMapRow req0 16 0 [], .coilJobMapRow req0 0 256 [], .coilTaskPreempt 48, .coilFieldStable 48 false,
   .coilTaskComplete 48, .coilTaskTimeout 48, .coilSweepDone 48 none 0 0, .coilMapRowDone 48 0 default,
   .coilChannelFault 48 1, .coilChannelFault 0 0, .coilChannelFault 0 5,
   .coilGroupDown 6 false false false 0] : List Instr).all fun i => !i.wf) = true := by decide

theorem test_wf_illFormed1 : (([
   .coilGroupUp 6 0, .coilAutoretry 48, .coilSweep .host 48, .coilRetry .host 48, .coilMapRow .host 48, .cldTporElapsed 48,
   .cldDownlinkSent 48, .cldSlotReply 48 none, .cldTagResponse 48 none false, .cldTnorespExpiry 48,
   .cldTagAccess badReq [], .ptCmdRead .host 128, .ptCmdWrite .host 128, .rfRadioTx badReq [],
   .rfRadioRx badReq [], .rfRadioCw badReq [], .rfRegLock .host 256, .prxSweepRequest badReq [],
   .cphGcm badReq 0 (zeros 64), .cphGcm req0 256 (zeros 64), .cphGcm req0 0 [], .cphCcm badReq 0 (zeros 64),
   .cphCcm req0 256 (zeros 64), .cphCcm req0 0 [], .cphCmac badReq 0 (zeros 64), .cphCmac req0 256 (zeros 64),
   .cphCmac req0 0 [], .cphCtr badReq 0 (zeros 64), .cphCtr req0 256 (zeros 64), .cphCtr req0 0 [],
   .cphEcb badReq 0 (zeros 64), .cphEcb req0 256 (zeros 64), .cphEcb req0 0 [], .cphEcbKey badReq 0 (zeros 64),
   .cphEcbKey req0 256 (zeros 64), .cphEcbKey req0 0 [], .cphDerive badReq 0 (zeros 64), .cphDerive req0 256 (zeros 64),
   .cphDerive req0 0 []] : List Instr).all fun i => !i.wf) = true := by decide

theorem test_wf_illFormed2 : (([
   .cphLoadKey badReq 0 (zeros 64), .cphLoadKey req0 256 (zeros 64), .cphLoadKey req0 0 [],
   .cphFreeKey badReq 0 (zeros 64), .cphFreeKey req0 256 (zeros 64), .cphFreeKey req0 0 [], .cphWrap badReq 0 (zeros 64),
   .cphWrap req0 256 (zeros 64), .cphWrap req0 0 [], .cphUnwrap badReq 0 (zeros 64), .cphUnwrap req0 256 (zeros 64),
   .cphUnwrap req0 0 [], .cphNonceAlloc badReq 0 (zeros 64), .cphNonceAlloc req0 256 (zeros 64), .cphNonceAlloc req0 0 [],
   .cphNonceFree badReq 0 (zeros 64), .cphNonceFree req0 256 (zeros 64), .cphNonceFree req0 0 [],
   .cphSaveCtx badReq 0 (zeros 64), .cphSaveCtx req0 256 (zeros 64), .cphSaveCtx req0 0 [],
   .cphRestoreCtx badReq 0 (zeros 64), .cphRestoreCtx req0 256 (zeros 64), .cphRestoreCtx req0 0 [],
   .cphDomainInstall badReq 0 (zeros 64), .cphDomainInstall req0 256 (zeros 64), .cphDomainInstall req0 0 [],
   .cphDomainClear badReq 0 (zeros 64), .cphDomainClear req0 256 (zeros 64), .cphDomainClear req0 0 [], .cphCipherOpDone 6,
   .cphCoreFault 6, .rngBlockTested (some []) none, .rngBlockTested none (some []), .rngFrame badReq [],
   .nvFrameRead badReq [], .nvFrameWrite badReq [], .nvFrameRecRead badReq [], .nvFrameRecWrite badReq [],
   .nvProtWrite .host 4] : List Instr).all fun i => !i.wf) = true := by decide

theorem test_wf_illFormed3 : (([
   .nvPageWriteDone (some []), .swFrameIngress 16 0 0 [], .swFrameIngress 0 256 0 [], .swFrameIngress 0 0 64 [],
   .swEgressStart 16, .swFrameDelivered 16, .swPortDown 16 none, .swPortDown 0 (some 256), .swPortUp 16 none,
   .swPortUp 0 (some 256), .swMgRead 256, .swMgWrite .host 256 false, .bsnStore badReq [], .bsnCaptureRead badReq [],
   .bsnCaptureFlush badReq [], .dirLookup (some badReq) (zeros 80), .dirLookup none [], .dirRead (some badReq) (zeros 80),
   .dirRead none [], .dirNext (some badReq) (zeros 80), .dirNext none [], .dirAdd (some badReq) (zeros 80),
   .dirAdd none [], .dirModify (some badReq) (zeros 80), .dirModify none [], .dirDelete (some badReq) (zeros 80),
   .dirDelete none [], .dirWriteThrough 3072, .hostRingEnable .host 3 0 0#32, .hostRingEnable .host 0 16 0#32,
   .hostSqTailDoorbell 16 0, .hostSqTailDoorbell 0 65536, .hostCqHeadDoorbell 16 0, .hostCqHeadDoorbell 0 65536,
   .hostEventHeadDoorbell 65536, .hostNop [] none, .hostFrame [] none, .hostRegRead [] none, .hostRegWrite [] none,
   .hostConfigStop [] none] : List Instr).all fun i => !i.wf) = true := by decide

theorem test_wf_illFormed4 : (([
   .hostConfigStart [] none, .hostReleaseReq [] none, .hostReleaseEnd [] none, .hostToken [] none,
   .hostLedgerReport [] none, .hostFwExt [] none, .hostMgmtRead badReq 0 [], .hostMgmtRead req0 256 [],
   .hostMgmtWrite badReq 0 [], .hostMgmtWrite req0 256 [], .hostMgmtStop badReq 0 [], .hostMgmtStop req0 256 [],
   .hostMgmtStart badReq 0 [], .hostMgmtStart req0 256 [], .hostCompletionRecord 256 frame0,
   .hostCompletionRecord 0 badFrame, .hostDmaFail false 16, .hostQspiRead 4294967296 1 false, .hostQspiRead 0 0 false,
   .hostQread 4294967296 1 false, .hostQread 0 0 false, .hostQspiWrite 4294967296 [] false,
   .hostQwrite 4294967296 [] false, .plLinkUp 2 0 0, .plLinkUp 0 0 64, .plLinkDown 2, .plCellReceived 2 [] [] [] false,
   .plAck 2 0, .plAck 0 256, .plNak 2 0, .plNak 0 256, .plCred 2 0 0, .plCred 0 4 0, .plReplayTimeout 2,
   .plLstat 2 0 false, .plLstat 0 64 false, .plEnum 2 0 0 false 0, .plEnum 0 64 0 false 0, .plEnum 0 0 2 false 0,
   .plEnum 0 0 0 false 64] : List Instr).all fun i => !i.wf) = true := by decide

theorem test_wf_illFormed5 : (([
   .plSlotRelease 256, .plEventFwd badReq [], .ivcFwQueueFrame 16 frame0, .ivcFwQueueFrame 0 badFrame, .ivcTxGo 65536 0,
   .ivcTxGo 0 16, .ivcWdkick 256, .ivMov 16 0 false, .ivMov 0 16 false, .ivAdc 16 0 0 false, .ivAdc 0 16 0 false,
   .ivAdc 0 0 16 false, .ivAdc 1 0 0 true, .ivSub 16 0 0 false, .ivSub 0 16 0 false, .ivSub 0 0 16 false,
   .ivSub 1 0 0 true, .ivSbc 16 0 0 false, .ivSbc 0 16 0 false, .ivSbc 0 0 16 false, .ivSbc 1 0 0 true,
   .ivAnd 16 0 0 false, .ivAnd 0 16 0 false, .ivAnd 0 0 16 false, .ivAnd 1 0 0 true, .ivOr 16 0 0 false,
   .ivOr 0 16 0 false, .ivOr 0 0 16 false, .ivOr 1 0 0 true, .ivXor 16 0 0 false, .ivXor 0 16 0 false, .ivXor 0 0 16 false,
   .ivXor 1 0 0 true, .ivNot 16 0 false, .ivNot 0 16 false, .ivNeg 16 0 false, .ivNeg 0 16 false, .ivCmp 16 0 false,
   .ivCmp 0 16 false, .ivTst 16 0 false] : List Instr).all fun i => !i.wf) = true := by decide

theorem test_wf_illFormed6 : (([
   .ivTst 0 16 false, .ivShl 16 0 0 false, .ivShl 0 16 0 false, .ivShl 0 0 16 false, .ivShl 1 0 0 true,
   .ivShr 16 0 0 false, .ivShr 0 16 0 false, .ivShr 0 0 16 false, .ivShr 1 0 0 true, .ivSar 16 0 0 false,
   .ivSar 0 16 0 false, .ivSar 0 0 16 false, .ivSar 1 0 0 true, .ivRor 16 0 0 false, .ivRor 0 16 0 false,
   .ivRor 0 0 16 false, .ivRor 1 0 0 true, .ivShli 16 0 0 false, .ivShli 0 16 0 false, .ivShli 0 0 32 false,
   .ivShli 1 0 0 true, .ivShri 16 0 0 false, .ivShri 0 16 0 false, .ivShri 0 0 32 false, .ivShri 1 0 0 true,
   .ivSari 16 0 0 false, .ivSari 0 16 0 false, .ivSari 0 0 32 false, .ivSari 1 0 0 true, .ivRori 16 0 0 false,
   .ivRori 0 16 0 false, .ivRori 0 0 32 false, .ivRori 1 0 0 true, .ivSxb 16 0 false, .ivSxb 0 16 false, .ivSxh 16 0 false,
   .ivSxh 0 16 false, .ivZxb 16 0 false, .ivZxb 0 16 false,
   .ivZxh 16 0 false] : List Instr).all fun i => !i.wf) = true := by decide

theorem test_wf_illFormed7 : (([
   .ivZxh 0 16 false, .ivAddi 16 0 0 false, .ivAddi 0 16 0 false, .ivAddi 1 0 0 true, .ivAddi 0 0 64 true,
   .ivAddi 0 0 (-32769) false, .ivAndi 16 0 0, .ivAndi 0 16 0, .ivAndi 0 0 65536, .ivOri 16 0 0, .ivOri 0 16 0,
   .ivOri 0 0 65536, .ivXori 16 0 0, .ivXori 0 16 0, .ivXori 0 0 65536, .ivCmpi 16 0 false, .ivCmpi 0 64 true,
   .ivCmpi 0 (-32769) false, .ivLui 16 0, .ivLui 0 1048576, .ivMovi 16 0 false, .ivMovi 0 64 true,
   .ivMovi 0 (-524289) false, .ivLdw 16 0 0 false, .ivLdw 0 16 0 false, .ivLdw 0 0 32 true, .ivLdw 0 0 (-1) true,
   .ivLdw 0 0 32768 false, .ivLdw 0 0 2 true, .ivLdh 16 0 0, .ivLdh 0 16 0, .ivLdh 0 0 32768, .ivLdhu 16 0 0,
   .ivLdhu 0 16 0, .ivLdhu 0 0 32768, .ivLdb 16 0 0, .ivLdb 0 16 0, .ivLdb 0 0 32768, .ivLdbu 16 0 0 false,
   .ivLdbu 0 16 0 false] : List Instr).all fun i => !i.wf) = true := by decide

theorem test_wf_illFormed8 : (([
   .ivLdbu 0 0 8 true, .ivLdbu 0 0 (-1) true, .ivLdbu 0 0 32768 false, .ivStw 16 0 0 false, .ivStw 0 16 0 false,
   .ivStw 0 0 32 true, .ivStw 0 0 (-1) true, .ivStw 0 0 32768 false, .ivStw 0 0 2 true, .ivSth 16 0 0, .ivSth 0 16 0,
   .ivSth 0 0 32768, .ivStb 16 0 0 false, .ivStb 0 16 0 false, .ivStb 0 0 8 true, .ivStb 0 0 (-1) true,
   .ivStb 0 0 32768 false, .ivLdd 16 0, .ivLdd 0 65536, .ivStd 16 0, .ivStd 0 65536, .ivPush 16 false, .ivPop 16 false,
   .ivLdbit 1024 none true, .ivLdbit 0 (some 0) true, .ivLdbit 8192 none false, .ivLdbit 0 (some 16) false,
   .ivLdbitn 8192 none, .ivLdbitn 0 (some 16), .ivAndb 1024 none true, .ivAndb 0 (some 0) true, .ivAndb 8192 none false,
   .ivAndb 0 (some 16) false, .ivAndbn 8192 none, .ivAndbn 0 (some 16), .ivOrb 1024 none true, .ivOrb 0 (some 0) true,
   .ivOrb 8192 none false, .ivOrb 0 (some 16) false,
   .ivOrbn 8192 none] : List Instr).all fun i => !i.wf) = true := by decide

theorem test_wf_illFormed9 : (([
   .ivOrbn 0 (some 16), .ivXorb 1024 none true, .ivXorb 0 (some 0) true, .ivXorb 8192 none false,
   .ivXorb 0 (some 16) false, .ivStbit 1024 none true, .ivStbit 0 (some 0) true, .ivStbit 8192 none false,
   .ivStbit 0 (some 16) false, .ivStbitn 8192 none, .ivStbitn 0 (some 16), .ivSetb 1024 none true, .ivSetb 0 (some 0) true,
   .ivSetb 8192 none false, .ivSetb 0 (some 16) false, .ivClrb 1024 none true, .ivClrb 0 (some 0) true,
   .ivClrb 8192 none false, .ivClrb 0 (some 16) false, .ivNotb 1024 none true, .ivNotb 0 (some 0) true,
   .ivNotb 8192 none false, .ivNotb 0 (some 16) false, .ivTstset 8192 none, .ivTstset 0 (some 16), .ivBacc 3,
   .ivBcc 16 0 false, .ivBcc 0 256 true, .ivBcc 0 (-524289) false, .ivJmp 2048 true, .ivJmp (-8388609) false,
   .ivCall 2048 true, .ivCall (-8388609) false, .ivJr 16 false, .ivCallr 16 false, .ivMul 16 0 0, .ivMul 0 16 0,
   .ivMul 0 0 16, .ivMulhs 16 0 0, .ivMulhs 0 16 0] : List Instr).all fun i => !i.wf) = true := by decide

theorem test_wf_illFormed10 : (([
   .ivMulhs 0 0 16, .ivMulhu 16 0 0, .ivMulhu 0 16 0, .ivMulhu 0 0 16, .ivMls 16 0 false, .ivMls 0 16 false,
   .ivMlu 16 0 false, .ivMlu 0 16 false, .ivCrcb 16 0 false false, .ivCrcb 0 16 false false, .ivCrcb 0 1 true true,
   .ivCrcb 0 0 true false, .ivCrch 16 0 false false, .ivCrch 0 16 false false, .ivCrch 0 1 true true,
   .ivCrch 0 0 true false, .ivCrcw 16 0 false false, .ivCrcw 0 16 false false, .ivCrcw 0 1 true true,
   .ivCrcw 0 0 true false, .ivPar 16 false, .ivBrevB 16 0 false, .ivBrevB 0 16 false, .ivBrevH 16 0 false,
   .ivBrevH 0 16 false, .ivBrevW 16 0 false, .ivBrevW 0 16 false, .ivMfs 16 0 false, .ivMfs 0 16 true, .ivMfs 0 20 false,
   .ivMts 0 16 false, .ivMts 16 0 true, .ivMts 20 0 false, .ivRpt 0 false false, .ivRpt 65 false false,
   .ivRpt 16 true false, .ivRpti 0 false, .ivRpti 4097 false, .ivRpti 16 true,
   .ivSleep 0 false] : List Instr).all fun i => !i.wf) = true := by decide

theorem test_wf_illFormed11 : (([
   .ivSleep 4 false, .ivBreak 256 true, .ivBreak 65536 false, .ivSyscall 256 true, .ivSyscall 65536 false,
   .pmTargetWrite 8, .pmWakeEvent 19, .pmHoldupEntry 0, .pmHoldupEntry 4, .clkDevrst 256, .clkDeviceReset 0,
   .clkDeviceReset 8, .evTimerExpiry 2, .secProvision badReq [], .secKeyInstall badReq [], .secDeploy badReq [],
   .secAuthTransfer badReq [], .secAuthRetire badReq [], .secAuthTamperClear badReq [], .secAuthDebug badReq [],
   .secFwBegin badReq [], .secFwWrite badReq [], .secFwCommit badReq [], .secFwReseal badReq [], .secTamperDetect 4,
   .secTamperInactive 4, .dbgAuth [], .dbgRd 4294967296 0, .dbgRd 0 65536, .dbgWr 4294967296 [], .dbgReset 256,
   .vioCanFrame 2 false 0 false [], .vioCanFrame 0 true 536870912 false [], .vioCanFrame 0 false 2048 false [],
   .vioBusoff 2 0 0, .vioBusoffRecovery 2, .ivAdd 16 0 0 false, .ivAdd 0 16 0 false, .ivAdd 0 0 16 false,
   .ivAdd 1 0 0 true] : List Instr).all fun i => !i.wf) = true := by decide

theorem test_wf_illFormed12 : (([
   .rfSyncDetected 256 0, .prxHop true 1 none, .cldUplinkHeader 48, .plSocReceived 2 [] [], .rngReseedDone 8, .hostDescriptorFetch [] none,
   .vioErrorPassive 2 0 0, .sadTermRefreshTimeout 16] : List Instr).all fun i => !i.wf) = true := by decide

theorem test_wf_wellFormed0 : (([
   .registerWrite .host 0 0 0#32, .blockStopped 12, .sadTermMaxage 0, .sadVehicleStatus req0 false 0,
   .sadVehicleStart req0, .sadVehicleStop req0, .saddleReqRelease req0 [], .saddleReqEnd req0 [], .saddleReqReport req0 [],
   .ledTokenFrame req0 [], .coilJobCensus req0 0 0 [], .coilJobAuth req0 0 0 [], .coilJobCensusAuth req0 0 0 [],
   .coilJobSweep req0 0 0 [], .coilJobMapRow req0 0 0 [], .coilTaskPreempt 0, .coilFieldStable 0 false,
   .coilTaskComplete 0, .coilTaskTimeout 0, .coilSweepDone 0 none 0 0, .coilMapRowDone 0 0 default, .coilChannelFault 0 1,
   .coilGroupDown 0 false false false 0, .coilGroupUp 0 0, .coilAutoretry 0, .coilSweep .host 0, .coilRetry .host 0,
   .coilMapRow .host 0, .cldTporElapsed 0, .cldDownlinkSent 0, .cldSlotReply 0 none, .cldTagResponse 0 none false,
   .cldTnorespExpiry 0, .cldTagAccess req0 [], .ptCmdRead .host 0, .ptCmdWrite .host 0,
   .rfRadioTx req0 [], .rfRadioRx req0 [], .rfRadioCw req0 []] : List Instr).all fun i => i.wf) = true := by decide

theorem test_wf_wellFormed1 : (([
   .rfRegLock .host 0, .prxSweepRequest req0 [], .cphGcm req0 0 (zeros 64), .cphCcm req0 0 (zeros 64),
   .cphCmac req0 0 (zeros 64), .cphCtr req0 0 (zeros 64), .cphEcb req0 0 (zeros 64), .cphEcbKey req0 0 (zeros 64),
   .cphDerive req0 0 (zeros 64), .cphLoadKey req0 0 (zeros 64), .cphFreeKey req0 0 (zeros 64), .cphWrap req0 0 (zeros 64),
   .cphUnwrap req0 0 (zeros 64), .cphNonceAlloc req0 0 (zeros 64), .cphNonceFree req0 0 (zeros 64),
   .cphSaveCtx req0 0 (zeros 64), .cphRestoreCtx req0 0 (zeros 64), .cphDomainInstall req0 0 (zeros 64),
   .cphDomainClear req0 0 (zeros 64), .cphCipherOpDone 0, .cphCoreFault 0, .rngBlockTested none none, .rngFrame req0 [],
   .nvFrameRead req0 [], .nvFrameWrite req0 [], .nvFrameRecRead req0 [], .nvFrameRecWrite req0 [], .nvProtWrite .host 0,
   .nvPageWriteDone none, .swFrameIngress 0 0 0 [], .swEgressStart 0, .swFrameDelivered 0, .swPortDown 0 none,
   .swPortUp 0 none, .swMgRead 0, .swMgWrite .host 0 false, .bsnStore req0 [], .bsnCaptureRead req0 [],
   .bsnCaptureFlush req0 [], .dirLookup none (zeros 80)] : List Instr).all fun i => i.wf) = true := by decide

theorem test_wf_wellFormed2 : (([
   .dirRead none (zeros 80), .dirNext none (zeros 80), .dirAdd none (zeros 80), .dirModify none (zeros 80),
   .dirDelete none (zeros 80), .dirWriteThrough 0, .hostRingEnable .host 0 0 0#32, .hostSqTailDoorbell 0 0,
   .hostCqHeadDoorbell 0 0, .hostEventHeadDoorbell 0, .hostNop (zeros 64) none, .hostFrame (zeros 64) none,
   .hostRegRead (zeros 64) none, .hostRegWrite (zeros 64) none, .hostConfigStop (zeros 64) none,
   .hostConfigStart (zeros 64) none, .hostReleaseReq (zeros 64) none, .hostReleaseEnd (zeros 64) none,
   .hostToken (zeros 64) none, .hostLedgerReport (zeros 64) none, .hostFwExt (zeros 64) none, .hostMgmtRead req0 0 [],
   .hostMgmtWrite req0 0 [], .hostMgmtStop req0 0 [], .hostMgmtStart req0 0 [], .hostCompletionRecord 0 frame0,
   .hostDmaFail false 0, .hostQspiRead 0 1 false, .hostQread 0 1 false, .hostQspiWrite 0 [] false, .hostQwrite 0 [] false,
   .plLinkUp 0 0 0, .plLinkDown 0, .plCellReceived 0 [] [] [] false, .plAck 0 0, .plNak 0 0, .plCred 0 0 0,
   .plReplayTimeout 0, .plLstat 0 0 false, .plEnum 0 0 0 false 0] : List Instr).all fun i => i.wf) = true := by decide

theorem test_wf_wellFormed3 : (([
   .plSlotRelease 0, .plEventFwd req0 [], .ivcFwQueueFrame 0 frame0, .ivcTxGo 0 0, .ivcWdkick 0, .ivMov 0 0 false,
   .ivAdc 0 0 0 false, .ivSub 0 0 0 false, .ivSbc 0 0 0 false, .ivAnd 0 0 0 false, .ivOr 0 0 0 false, .ivXor 0 0 0 false,
   .ivNot 0 0 false, .ivNeg 0 0 false, .ivCmp 0 0 false, .ivTst 0 0 false, .ivShl 0 0 0 false, .ivShr 0 0 0 false,
   .ivSar 0 0 0 false, .ivRor 0 0 0 false, .ivShli 0 0 0 false, .ivShri 0 0 0 false, .ivSari 0 0 0 false,
   .ivRori 0 0 0 false, .ivSxb 0 0 false, .ivSxh 0 0 false, .ivZxb 0 0 false, .ivZxh 0 0 false, .ivAddi 0 0 0 false,
   .ivAndi 0 0 0, .ivOri 0 0 0, .ivXori 0 0 0, .ivCmpi 0 0 false, .ivLui 0 0, .ivMovi 0 0 false, .ivLdw 0 0 0 false,
   .ivLdh 0 0 0, .ivLdhu 0 0 0, .ivLdb 0 0 0, .ivLdbu 0 0 0 false] : List Instr).all fun i => i.wf) = true := by decide

theorem test_wf_wellFormed4 : (([
   .ivStw 0 0 0 false, .ivSth 0 0 0, .ivStb 0 0 0 false, .ivLdd 0 0, .ivStd 0 0, .ivPush 0 false, .ivPop 0 false,
   .ivLdbit 0 none false, .ivLdbitn 0 none, .ivAndb 0 none false, .ivAndbn 0 none, .ivOrb 0 none false, .ivOrbn 0 none,
   .ivXorb 0 none false, .ivStbit 0 none false, .ivStbitn 0 none, .ivSetb 0 none false, .ivClrb 0 none false,
   .ivNotb 0 none false, .ivTstset 0 none, .ivBacc 0, .ivBcc 0 0 false, .ivJmp 0 false, .ivCall 0 false, .ivJr 0 false,
   .ivCallr 0 false, .ivMul 0 0 0, .ivMulhs 0 0 0, .ivMulhu 0 0 0, .ivMls 0 0 false, .ivMlu 0 0 false,
   .ivCrcb 0 0 false false, .ivCrch 0 0 false false, .ivCrcw 0 0 false false, .ivPar 0 false, .ivBrevB 0 0 false,
   .ivBrevH 0 0 false, .ivBrevW 0 0 false, .ivMfs 0 0 false,
   .ivMts 0 0 false] : List Instr).all fun i => i.wf) = true := by decide

theorem test_wf_wellFormed5 : (([
   .ivRpt 1 false false, .ivRpti 1 false, .ivSleep 1 false, .ivBreak 0 false, .ivSyscall 0 false, .pmTargetWrite 0,
   .pmWakeEvent 0, .pmHoldupEntry 1, .clkDevrst 0, .clkDeviceReset 1, .evTimerExpiry 0, .secProvision req0 [],
   .secKeyInstall req0 [], .secDeploy req0 [], .secAuthTransfer req0 [], .secAuthRetire req0 [],
   .secAuthTamperClear req0 [], .secAuthDebug req0 [], .secFwBegin req0 [], .secFwWrite req0 [], .secFwCommit req0 [],
   .secFwReseal req0 [], .secTamperDetect 0, .secTamperInactive 0, .dbgAuth (zeros 48), .dbgRd 0 0, .dbgWr 0 [],
   .dbgReset 0, .vioCanFrame 0 false 0 false [], .vioBusoff 0 0 0, .vioBusoffRecovery 0, .ivAdd 0 0 0 false,
   .rfSyncDetected 0 0, .cldUplinkHeader 0, .plSocReceived 0 [] [], .rngReseedDone 0, .hostDescriptorFetch (zeros 64) none,
   .vioErrorPassive 0 0 0, .sadTermRefreshTimeout 0] : List Instr).all fun i => i.wf) = true := by decide

theorem test_wf_request_fields : ([⟨16, 0, 0, 1, 0, false⟩, ⟨8, 256, 0, 1, 0, false⟩, ⟨8, 0, 64, 1, 0, false⟩, ⟨8, 0, 0, 4, 0, false⟩,
  ⟨8, 0, 0, 1, 65536, false⟩].all fun r => !reqOk r) = true := by decide

-- Ivler-2 words written out from Tables 17.2 to 17.12 --------------------------------------------------------------------------

theorem test_words_alu : ivDec32 0xE0312040 = some (.alu .add 3 1 2) ∧ ivDec32 0xE112FFFF = some (.addi 1 2 (-1)) ∧
    ivDec32 0xE0049280 = some (.cmp 4 9) ∧ ivDec32 0xE0120405 = some (.shifti .shl 1 2 5) ∧ ivDec32 0xE6712345 = some (.lui 7 0x12345) ∧
    ivDec32 0xE71FFFFF = some (.movi 1 (-1)) := by decide
theorem test_words_alu_short : ivDec16 0x0132 = some (.alu .add 3 3 2) ∧ ivDec16 0x0A49 = some (.cmp 4 9) ∧
    ivDec16 0x2AFF = some (.addi 5 5 (-1)) ∧ ivDec16 0x38E3 = some (.shifti .ror 1 1 3) := by decide
theorem test_words_memory : ivDec32 0xE812FFFC = some (.ld 4 false 1 2 (-4)) ∧ ivDec32 0xEE340002 = some (.st 2 3 4 2) ∧
    ivDec32 0xF0050000 = some (.push 5) ∧ ivDec32 0xF0500040 = some (.pop 5) ∧ ivDec32 0xF9100008 = some (.ldd 1 8) ∧
    ivDec32 0xFA100008 = some (.std 1 8) ∧ ivDec16 0x4091 = some (.ld 4 false 1 2 4) ∧ ivDec16 0x5897 = some (.st 1 1 2 7) := by decide
theorem test_words_bits : ivDec32 0xF5901234 = some (.bit .setb 0x1234 none) ∧ ivDec32 0xF5038005 = some (.bit .ldbit 5 (some 3)) ∧
    ivDec32 0xF5D00002 = some (.bacc 2) ∧ ivDec16 0x77FF = some (.bit .setb 0x3FF none) := by decide
theorem test_words_transfers : ivDec32 0xF11FFFFE = some (.bcc 1 (-2)) ∧ ivDec32 0xF3FFFFFF = some (.call (-1)) ∧
    ivDec32 0xF4060000 = some (.jr 6) ∧ ivDec32 0xF4000080 = some .ret ∧ ivDec32 0xF40000C0 = some .tret ∧
    ivDec16 0x81FE = some (.bcc 0 (-2)) ∧ ivDec16 0xB005 = some (.call 5) ∧ ivDec16 0xC500 = some .ret := by decide
theorem test_words_multiply_character : ivDec32 0xF6123080 = some (.mul true false 1 2 3) ∧ ivDec32 0xF60230C0 = some (.lmul true 2 3) ∧
    ivDec32 0xF7120880 = some (.crc 4 1 2 true) ∧ ivDec32 0xF70300C0 = some (.par 3) ∧ ivDec32 0xF7120140 = some (.brev 2 1 2) := by decide
theorem test_words_system : ivDec32 0xF802000E = some (.mfs 2 14) ∧ ivDec32 0xF812000E = some (.mts 14 2) ∧
    ivDec32 0xF8400FFF = some (.rpt true 4096) ∧ ivDec32 0xF8600002 = some (.sleep 2) ∧ ivDec32 0xF870ABCD = some (.brk 0xABCD) ∧
    ivDec32 0xF8A00000 = some .wait ∧ ivDec32 0xF8B00000 = some .sync ∧ ivDec16 0xCC07 = some (.syscall 7) ∧
    ivDec16 0xC932 = some (.mfs 2 3) ∧ ivDec16 0xC000 = some .nop := by decide
theorem test_words_reserved : ivDec32 0xFB000000 = none ∧ ivDec32 0xF8910000 = none ∧ ivDec32 0xF0150000 = none ∧ ivDec16 0xC001 = none := by decide

-- States --------------------------------------------------------------------------------------------------------------------------

/-- Awake in RUN, configuration loaded. -/
def awake : State := (State.reset.set F.clkStat_cfgDone 1).set F.pmStat_current 6
/-- The core runs from SRAM, WIDE 0, with a data stack, W2 and W3 pointing to SRAM and W4 outside every region. -/
def core : State :=
  let s := awake.set F.ivcCtrl_run 1
  { s with iv := { s.iv with
    pc := 0x10000400#32, fetched := true, core := 0#32, dsp := 0x10000200#32,
    w := wSet (wSet (wSet s.iv.w 2 0x10000000#32) 3 0x1007FFFC#32) 4 0x50000000#32 } }
def withIv (s : State) (f : Iv → Iv) : State := { s with iv := f s.iv }
/-- A page write is in progress, so that a request queues. -/
def writing (s : State) : State := { s with nv := { s.nv with cur := some ⟨true, 0, [], none, false, none⟩ } }

/-- The premises of `IvMay` and `IvPlain` as truth values. -/
def mayB (s : State) (short : Bool) : Bool :=
  ivcRunning s && s.iv.fetched && s.pm.entry == 0 && !s.iv.halted && !s.iv.waiting && s.iv.load == none && !s.iv.warn
    && ivFetchable s.iv.pc.toNat && (short || ivFetchable (s.iv.pc + 2#32).toNat) && !fetchBusy s (ivLen short)
    && (!short || !csBit s.iv.core Cs.wide)
def plainB (s : State) (short : Bool) : Bool := mayB s short && s.iv.slot == none && s.iv.rep_ == none

theorem may_of_mayB (s : State) (short : Bool) (h : mayB s short = true) : IvMay s short := by
  simp only [mayB, Bool.and_eq_true, Bool.or_eq_true, Bool.not_eq_true', beq_iff_eq] at h
  obtain ⟨⟨⟨⟨⟨⟨⟨⟨⟨⟨h1, h2⟩, h3⟩, h4⟩, h5⟩, h6⟩, h7⟩, h8⟩, h9⟩, h10⟩, h11⟩ := h
  exact ⟨h1, h2, h3, h4, h5, h6, h7, h8, fun h => by simpa [h] using h9, h10, fun h => by simpa [h] using h11⟩
theorem plain_of_plainB (s : State) (short : Bool) (h : plainB s short = true) : IvPlain s short := by
  simp only [plainB, Bool.and_eq_true, beq_iff_eq] at h
  exact ⟨may_of_mayB s short h.1.1, h.1.2, h.2⟩

-- Ivler ----------------------------------------------------------------------------------------------------------------------------

theorem test_meets_plain_long : IvPlain core false := plain_of_plainB _ _ (by decide)
theorem test_meets_plain_short : IvPlain core true := plain_of_plainB _ _ (by decide)
theorem test_meets_loads_stores : SramWord (ivEff core false 4 2 0) 4 ∧ SramWord (ivEff core true 4 3 0) 4 ∧ SramWord (ivEff core true 1 3 3) 1 ∧
    SramWord (ivEff core false 2 3 2) 2 ∧ SramWord core.iv.dsp 4 ∧ SramWord (core.iv.dsp - 4#32) 4 ∧ core.iv.dsp.toNat % 4 = 0 ∧
    core.iv.dslim.toNat + 4 ≤ core.iv.dsp.toNat ∧ SramWord (core.iv.dsp + BitVec.ofNat 32 (8 % 65536)) 4 := by
  unfold SramWord; decide
def inFlight : State := withIv core fun c => { c with mul := [(3, 1#32, 2#32)] }
theorem test_meets_bits : 0x17FF ≤ 0x180C ∧ (core.iv.mul = [] ∧ core.iv.mulReg = []) ∧ 0xFFF < 0x1000 ∧ 127 < 128 ∧ 1 < evBits 127 ∧
    0x17F1 = 0x1000 + 16 * 127 + 1 := by decide
def stacked : State := withIv core fun c => { c with rs := [⟨0#32, 2⟩, ⟨0x10000500#32, 1⟩, ⟨4#32, 0⟩] }
def called : State := withIv core fun c => { c with rs := [⟨0x10000500#32, 0⟩] }
def inSlot (target : Option W32) (pushed : Bool) : State := withIv called fun c => { c with slot := some ⟨0x100003FC#32, target, none, pushed, []⟩ }
theorem test_meets_transfers : core.iv.rs.length < 64 ∧ (∃ e es, called.iv.rs = e :: es ∧ e.tag = 0) ∧
    (∃ c p es, stacked.iv.rs = c :: p :: es ∧ c.tag = 2 ∧ p.tag = 1) ∧ TrapReady (inSlot none true) :=
  ⟨by decide, ⟨_, _, rfl, rfl⟩, ⟨_, _, _, rfl, rfl, rfl⟩, by unfold TrapReady; decide⟩
theorem test_meets_slot : IvMay (inSlot (some 0x10000600#32) true) false ∧ IvMay (inSlot none false) true ∧
    (inSlot none false).iv.rep_ = none ∧ (0x10000600#32 : W32).getLsbD 0 = false ∧ (ivNext (inSlot none false) true).getLsbD 0 = false :=
  ⟨may_of_mayB _ _ (by decide), may_of_mayB _ _ (by decide), rfl, by decide, by decide⟩
theorem test_meets_multiplies : IvPlain inFlight true ∧ core.iv.mul = [] ∧ (∃ age hi lo, inFlight.iv.mul = [(age, hi, lo)] ∧ 4 ≤ age + 1) ∧
    inSram inFlight.iv.pc.toNat (ivLen true) = true :=
  ⟨plain_of_plainB _ _ (by decide), rfl, ⟨_, _, _, rfl, by decide⟩, by decide⟩
theorem test_meets_character : 2 % 16 ≠ 3 % 16 ∧ 2 % 16 = 18 % 16 ∧ SramWord (ivReg core 3) 4 ∧ SramWord (ivReg core 3) 1 ∧ TrapReady core := by
  unfold SramWord TrapReady; decide
theorem test_meets_special : 19 % 32 < 20 ∧ 15 % 16 < 20 ∧ 20 ≤ 31 % 32 ∧ core.iv.mul = [] := by decide
def repeating (left : Nat) : State := withIv core fun c => { c with rep_ := some ⟨c.pc, 0, true, left, false⟩ }
theorem test_meets_repeats : IvMay (repeating 0) true ∧ IvMay (repeating 1) true ∧ IvMay (repeating 2) false ∧
    (repeating 2).iv.slot = none ∧ (ivReg core 0).toNat ≤ 64 ∧ 64 < (ivReg core 2).toNat :=
  ⟨may_of_mayB _ _ (by decide), may_of_mayB _ _ (by decide), may_of_mayB _ _ (by decide), rfl, by decide, by decide⟩
def wideOnly : State := withIv core fun c => { c with core := csPut c.core Cs.wide true }
theorem test_meets_traps : TrapReady core ∧ (ivEff core false 4 2 1).toNat % 4 ≠ 0 ∧ (ivEff core true 4 4 0).toNat % 4 = 0 ∧
    ivRegion (ivEff core true 4 4 0).toNat 4 = .outside ∧ csBit wideOnly.iv.core Cs.wide = true ∧ fetchBusy wideOnly 2 = false := by
  unfold TrapReady; decide
theorem test_meets_wide : IvMay wideOnly false := may_of_mayB _ _ (by decide)
theorem test_meets_sleep : 8 % 8 = 0 ∧ 3 < 4 % 8 ∧ 3 < 7 % 8 := by decide
theorem test_meets_encoding : ivHasForm true (.alu .add 3 3 2) = true ∧ ivHasForm false .wait = true := by decide

-- Frame switch ---------------------------------------------------------------------------------------------------------------------

/-- A frame from P8 to Saddle's sub-port 1, one cell still to cross. -/
def cell0 : SwCopy := ⟨0, mkFrame 0x0C 1 14 1 0 5 (zeros 8), 0, 8, 14, 1, true, 1, false, 0, none⟩
def open_ (s : State) : State := s.set F.swStat_parked 0
def oneFrame (x : SwCopy) : State := let s := open_ awake; { s with sw := { s.sw with frames := [x] } }
def across : SwCopy := { cell0 with left := 0 }
def leaving : SwCopy := { across with egress := true }
theorem test_meets_switch_frame : cell0.inPort < 16 ∧ cell0.outPort < 16 ∧ cell0.frame.cls < 4 ∧ (oneFrame cell0).on F.swStat_parked = false ∧
    0 < cell0.left ∧ (oneFrame cell0).ev.fwd = [] ∧ dstTakes (oneFrame across) across = true ∧ across.outSub < 256 ∧
    swStale (oneFrame across) across = false ∧ leaving.outPort ≠ 9 ∧ leaving.outPort ≠ 10 := by decide
/-- A frame stamped with an epoch that its directory entry has not reached is stale. -/
def stale0 : SwCopy := { across with frame := { mkFrame 0x90 1 14 1 0 5 [] with revChk := true, dirIdx := some 0, epoch := 1 } }
theorem test_meets_switch_stale : swStale (oneFrame stale0) stale0 = true ∧ 0x80 ≤ stale0.frame.typ ∧
    dstTakes (oneFrame stale0) stale0 = true := by decide
/-- A VEHICLE frame from firmware, across to P11. -/
def vehicle11 : SwCopy := { across with frame := { mkFrame 0x08 1 11 0 0 5 (zeros 32) with sport := 12 }, outPort := 11, outSub := 0, egress := true }
theorem test_meets_vehicle_refused : vehicle11.egress = true ∧ vehicle11.left = 0 ∧ vehicle11.outPort = 11 ∧ vehicle11.frame.typ = 0x08 ∧
    vehicle11.frame.mc = false ∧ vehicle11.frame.cls ≠ 3 ∧ vehicle11.frame.dev = thisDev awake ∧ subListed 12 0 = true ∧
    subDown ((open_ awake).set (F.swPStat_down 12) 0) 12 0 = false := by decide
def back0 : SwCopy := { cell0 with frame := { mkFrame 0x0C 1 14 1 0 5 [] with sport := 12, ssub := 0 } }
def p12Up (s : State) : State := s.set (F.swPStat_down 12) 0
theorem test_meets_ports : 14 < 16 ∧ 14 ≠ 8 ∧ 1 < 32 ∧ back0.outPort = 14 ∧ back0.outSub = 1 ∧ back0.frame.typ < 0x80 ∧
    back0.frame.dev = thisDev (oneFrame back0) ∧ back0.frame.cls ≠ 0 ∧ back0.frame.sport ≠ 14 ∧ back0.frame.sport < 16 ∧
    subDown (p12Up (oneFrame back0)) 12 0 = false ∧ portDown (p12Up (oneFrame back0)) 14 = false ∧
    bitOf ((oneFrame back0).get (F.swPSdown_sub 14)) 1 = false := by decide
theorem test_meets_port_up : portDown (awake.set (F.swPStat_down 15) 1) 15 = true ∧ awake.on (F.swPCtrl_en 15) = true ∧
    bitOf ((awake.set (F.swPSdown_sub 15) (2 ^ 31)).get (F.swPSdown_sub 15)) 31 = true := by decide
def stopped (blk : Nat) (s : State) : State := { s with stops := { s.stops with stopped := [blk] } }
theorem test_meets_switch_start : noNewWork (stopped 12 awake) 12 = true ∧ (stopped 12 awake).stops.waits = [] ∧
    (stopped 12 awake).hst.fenced = [] ∧
    quotaSum (stopped 12 awake) ≤ poolCells (stopped 12 awake) ∧
    poolCells { stopped 12 awake with bsn := { awake.bsn with size := [1, 1, 1, 1, 1] } } <
      quotaSum { stopped 12 awake with bsn := { awake.bsn with size := [1, 1, 1, 1, 1] } } := by decide
theorem test_meets_groups : mgWriteOk (wordsBytes awake ((List.range 6).map W.swMgbuf)) = true ∧
    mgWriteOk (wordsBytes (awake.setW (W.swMgbuf 0) 0x01000000#32) ((List.range 6).map W.swMgbuf)) = false := by decide
theorem test_meets_switch_save : NvTakes (writing awake) false (.record recSwitch []) ∧ NvTakes (writing awake) false (.record recGroups []) := by
  unfold NvTakes; decide
theorem test_meets_ingress_bad : hdrOk (zeros 3) = false := by decide
/-- An EVENT_FWD frame as a link brings it. -/
def fwdBytes : List Byte := frameBytes (mkFrame 0x40 2 8 0 0 0 (zeros 16))
set_option maxRecDepth 20000 in
theorem test_meets_ingress_fwd : hdrOk fwdBytes = true ∧ hdrRsvOk fwdBytes = true ∧ (frameOf fwdBytes).typ = 0x40 ∧ typeReserved 0x40 = false ∧
    ((frameOf fwdBytes).cls = 3 ↔ baseType (frameOf fwdBytes).typ = 0x10) ∧ (frameOf fwdBytes).dev = thisDev awake ∧ (frameOf fwdBytes).mc = false ∧
    (frameOf fwdBytes).dport = 8 ∧ subListed 8 (frameOf fwdBytes).dsub = true ∧ portDown (awake.set (F.swPStat_down 8) 1) 8 = true := by decide

-- Release gate -----------------------------------------------------------------------------------------------------------------------

def gate (st : Nat) : State := (awake.set F.secStat_lc 2).set F.sadStat_state st
def judged (ws : List W32) (s : State) : State := { s with sad := { s.sad with words := ws } }
/-- A slot that requires term 15, or none. -/
def needs15 : List W32 := [0x80000000#32]
def noTerms : List W32 := [0#32]
theorem test_meets_arming_forced : sadState (awake.set F.sadStat_state 1) = SS.arming ∧ awake.get F.secStat_lc ≠ 2 ∧
    tamperClear ((gate 1).set F.secTamp_latch 1) = false := by decide
theorem test_meets_arming_fatal : sadState (gate 1) = SS.arming ∧ tamperClear (gate 1) = true ∧
    liveTerm ((gate 1).set F.rngStat_fatal 1) noTerms 10 = false ∧ liveTerm (gate 1) noTerms 10 = true ∧ (gate 1).sad.twice = 0 ∧
    noNewWork (gate 1) 32 = false ∧ noNewWork (stopped 32 (gate 1)) 32 = true ∧ (gate 1).sad.inbox = [] ∧ (gate 1).sad.who = [] ∧ (gate 1).pm.entry = 0 := by decide
theorem test_meets_arming_bad : bitOf (slReq needs15) 15 = true ∧ isAged 15 = false ∧ liveTerm (judged needs15 (gate 1)) needs15 15 = false := by
  decide
theorem test_meets_arming_met : (∀ k, k < 16 → bitOf (slReq noTerms) k = true → termTrue (judged noTerms (gate 1)) noTerms k = true) := by
  decide
/-- It requires term 2, which is missing but AGED. -/
theorem test_meets_arming_unmet : bitOf (slReq [0x40000#32]) 2 = true ∧ isAged 2 = true ∧ termTrue (gate 1) [0x40000#32] 2 = false := by decide
def posted (x : SadIn) (s : State) : State := { s with sad := { s.sad with inbox := [x] } }
theorem test_meets_locked : sadState (posted (.release none) (gate 0)) = SS.locked ∧ sadActive (gate 0) = none ∧
    sadActive ((gate 0).setW (W.sadPslotW0 7) 1#32) = some 7 ∧ (gate 0).get F.secStat_lc = 2 := by decide
def vehicle (parked : Bool) (s : State) : State :=
  { s.set F.sadCtrl_vehEn 1 with sad := { s.sad with vehSeen := true, vehPark := parked } }
theorem test_meets_released : sadState (gate 2) = SS.released ∧ (gate 2).sad.fbWait = false ∧ sadParked (gate 2) = true ∧
    sadParked (vehicle false (gate 2)) = false ∧ (gate 2).on F.sadStat_endPending = false := by decide
theorem test_meets_holding : sadState (gate 3) = SS.holding ∧ (gate 3).on F.sadStat_forcePending = false ∧
    vehFresh (vehicle true (gate 3)) = true ∧ (vehicle true (gate 3)).sad.vehPark = true ∧
    ((vehicle true (gate 3)).set F.sadCtrl_parkDwell 1).get F.sadCtrl_parkDwell ≠ 0 := by decide
theorem test_meets_requests : srcIsHost .fw = false ∧ srcIsHost .host = true ∧ awake.on F.sadCtrl_hostreqEn = false ∧
    (awake.set F.sadCtrl_hostreqEn 1).on F.sadCtrl_hostreqEn = true ∧ saddleReqOk ⟨12, 0, 0, 1, 0, false⟩ 1 (1#8 :: zeros 7) = true ∧
    saddleReqOk ⟨12, 0, 0, 2, 0, false⟩ 2 (2#8 :: zeros 7) = true := by decide
theorem test_meets_force_clear : sadState (gate 4) = SS.forced ∧ noForceCause (gate 4) = true ∧ tamperClear (gate 4) = true := by decide
theorem test_meets_policy : awake.get F.secStat_lc < 2 ∧ 2 ≤ (gate 0).get F.secStat_lc ∧ NvTakes (writing awake) false (.record recSaddle []) := by
  unfold NvTakes; decide
theorem test_meets_recheck : bitOf (slReq (sadWords ((gate 0).setW (W.sadPslotW0 0) 0x10010001#32))) 12 = true ∧
    bitOf (slReq (sadWords ((gate 0).setW (W.sadPslotW0 0) 0x10010001#32))) 0 = true ∧ sadState (gate 4) = SS.forced ∧
    (gate 0).sad.inbox = [] := by decide
theorem test_meets_feedback : (true != awake.on F.sadFb_pol) = true ∧ awake.on F.sadStat_fbClosed = false ∧ awake.on F.sadStat_pulsing = false ∧
    (false != awake.on F.sadFb_pol) = awake.on F.sadStat_fbClosed ∧ (vehicle true awake).on F.sadCtrl_vehEn = true := by decide
def aged : State := let s := judged [0#32, 0x1001#32] (gate 2); { s with sad := { s.sad with res := [(12, ⟨true, 0, [], false⟩)], pend := [(12, 0)] } }
theorem test_meets_maxage : sget aged.sad.res 12 = some ⟨true, 0, [], false⟩ ∧ sadState { aged with regs := (gate 0).regs } ≠ SS.released ∧
    isAged 12 = true ∧ bitOf (slHold aged.sad.words) 12 = true ∧ termPending aged 12 = true := by decide

-- Lease ledger ---------------------------------------------------------------------------------------------------------------------------

theorem test_meets_pulses : isStopped awake 34 = false ∧ 4 ≤ awake.get F.pmStat_current ∧ awake.get F.pmStat_current ≤ 6 ∧
    awake.on F.clkStat_cfgDone = true ∧ awake.led.copyB = false ∧ awake.led.closing = false ∧
    0 < ((awake.set F.vioEpdcnt_count 1).get F.vioEpdcnt_count + 2 ^ 32 - awake.led.takenD) % 2 ^ 32 ∧
    ((awake.set F.vioEpdcnt_count 1).get F.vioEpccnt_count + 2 ^ 32 - awake.led.takenC) % 2 ^ 32 = 0 ∧
    0 < ((awake.set F.vioEpccnt_count 1).get F.vioEpccnt_count + 2 ^ 32 - 0xFFFFFFFF) % 2 ^ 32 := by decide
theorem test_meets_checkpoint : awake.on F.ledStat_ckptBusy = false ∧ (awake.set F.ledStat_ckptBusy 1).on F.ledStat_ckptBusy = true ∧
    NvTakes (writing awake) true (.both (recKeep 1) 1 []) ∧ (awake.set F.nvProt_bp 3).get F.nvProt_bp = 3 ∧ awake.led.tokNext = [] := by
  unfold NvTakes; decide
theorem test_meets_token_bad : tokCheck awake [] = some St.tokenInvalid ∧ noNewWork awake 34 = false ∧ awake.led.policy = none ∧
    noNewWork (stopped 34 awake) 34 = true ∧ saddleReqOk ⟨12, 0, 0, 1, 0, false⟩ 3 (3#8 :: zeros 23) = true ∧
    lessorKey awake "LRPT" = none ∧ lessorKey { awake with cph := { awake.cph with domain := some (zeros 32) } } "LRPT" ≠ none := by
  refine ⟨by decide, by decide, by decide, by decide, by decide, rfl, ?_⟩; simp [lessorKey]

-- Coil subsystem -------------------------------------------------------------------------------------------------------------------------

def upd {α : Type} (x : α) (f : α → α) : α := f x
def chOn (ch : Nat) (s : State) : State := s.set (F.coilChCtrl_en ch) 1
def withCoil (s : State) (f : Coil → Coil) : State := { s with coil := f s.coil }
/-- The coil program runs at an entry of index `pc`. -/
def progAt (pc : Nat) (e : List Byte) : State :=
  withCoil ((awake.set F.coilStat_progRun 1).set F.coilStat_pc pc) fun c => { c with prog := memWrite [] (16 * pc) e }
def entry (op mask count next : Nat) : List Byte := [byte op, 0#8] ++ leBytes 6 mask ++ [0xFF#8, byte count, 0#8, 0#8, byte next] ++ zeros 3
theorem test_meets_program_entries : progReady (progAt 63 (entry 0 0 0 0)) = true ∧
    memRead (progAt 63 (entry 8 0 2 62)).coil.prog (16 * 63) 16 = entry 8 0 2 62 ∧
    (∀ op ∈ [0, 6, 7, 8], entryOk (entry op 0 2 63) = true ∧ leAt (entry op 0 2 63) 12 1 ≤ 63) ∧ entryOk (entry 9 0 0 0) = false ∧
    1 < leAt (entry 8 0 2 62) 9 1 ∧ 8 < leAt (entry 9 0 0 0) 0 1 ∧ (leAt (entry 8 0 2 62) 13 1).testBit 4 = false := by decide
theorem test_meets_program_job : entryOk (entry 5 (2 ^ 47) 0 0) = true ∧ coilEn (chOn 47 awake) 47 = true ∧ coilChDown (chOn 47 awake) 47 = false ∧
    coilGrpDown (chOn 47 awake) 47 = false ∧ (∀ ch, ch < 48 → bitOf (leAt (entry 5 (2 ^ 47) 0 0) 2 6) ch = true → ch = 47) := by decide
theorem test_meets_program_loop : sget (withCoil (progAt 62 (entry 8 0 2 0)) fun c => { c with loops := [(62, 1)] }).coil.loops 62 = some 1 ∧
    62 < 63 ∧ (withCoil awake fun c => { c with progWait := true }).coil.progWait = true ∧ awake.coil.progHalt = false ∧
    awake.coil.progAgain = false := by decide
def task (ch op cls : Nat) : CoilTask := ⟨7, ch, op, 0xFF, 16, cls, 0, 0, 1000, [3], 0⟩
def run (ch op : Nat) (stable : Bool) : CoilRun := ⟨task ch op 2, 0, stable, 0⟩
def running (x : CoilRun) : State := withCoil (chOn x.t.ch awake) fun c => { c with running := [x] }
theorem test_meets_coil_commands : (∀ r ∈ awake.coil.ready, r.ch ≠ 47) ∧ coilEn (chOn 47 awake) 47 = true ∧ coilGrpDown (chOn 47 awake) 47 = false ∧
    (∀ j, j < 47 → coilEn (chOn 47 awake) ((awake.coil.refresh + j) % 48) = false) ∧ 47 = (awake.coil.refresh + 47) % 48 ∧
    ((chOn 47 awake).set F.coilMapcfg_refresh 1).get F.coilMapcfg_refresh ≠ 0 ∧ noNewWork awake 16 = false ∧ 48 ≤ 48 ∧
    awake.coil.mapFull = none ∧ noNewWork (stopped 16 awake) 16 = true := by decide
def faulted : State := ((chOn 0 awake).set (F.coilChStat_fault 0) 3).set (F.coilChStat_down 0) 1
theorem test_meets_autoretry : faulted.on (F.coilChCtrl_autoretry 0) = true ∧ coilChDown faulted 0 = true ∧
    faulted.get (F.coilChStat_fault 0) ∈ [1, 3] ∧ (faulted.set (F.coilChStat_retries 0) 2).get (F.coilChStat_retries 0) < 3 := by decide
theorem test_meets_coil_saves : NvTakes (writing awake) false (.record recCoilMap []) ∧ NvTakes (writing awake) true (.record recCoilMap []) ∧
    NvTakes (writing awake) false (.record recCoilProg []) ∧ (withCoil awake fun c => { c with mapDirty := true }).coil.mapDirty = true := by
  unfold NvTakes; decide
def ready1 : State := withCoil (chOn 47 awake) fun c => { c with ready := [task 47 1 2] }
theorem test_meets_admission : noNewWork ready1 16 = false ∧ pmAwake ready1 = true ∧ ready1.coil.running = [] ∧ taskFits ready1 (task 47 1 2) = true ∧
    ready1.on (F.coilGrpStat_syn0On 5) = false ∧ (arbRequest ready1 47 2 (coilUnits ready1 (task 47 1 2))).1 = true ∧
    (arbRequest (ready1.set F.arbCoilbud_budget 0) 47 2 (coilUnits ready1 (task 47 1 2))).1 = false := by decide
def txn0 (ch : Nat) : CldTxn := ⟨0, ch, 1, 0xFF, 0, 1, false, 0, [], 0, false, false, false, [], [], [], [], 0, none, 0, [], [], 0, 0, none, [], []⟩
def talking (x : CoilRun) (t : CldTxn) (s : State) : State := { s with coil := { s.coil with running := [x] }, cld := { s.cld with txns := [t] } }
theorem test_meets_field_stable : (run 47 1 false).stable = false ∧ (run 47 1 false).t.ch = 47 ∧
    cldGet (talking (run 47 1 false) (txn0 47) awake) 47 = some (txn0 47) ∧
    cldBetween (talking (run 47 1 true) (txn0 47) awake) (txn0 47) = true := by decide
def job0 : CoilJob := ⟨3, none, 0, 0, false, 1, 0xFF, [0, 47], [], [], [], []⟩
theorem test_meets_task_end : (run 47 1 true).t.jobs = [job0.id] ∧ (∃ c ∈ job0.left, c ≠ 47) ∧
    ({ txn0 47 with result := some St.ok } : CldTxn).result = some St.ok :=
  ⟨rfl, ⟨0, by decide, by decide⟩, rfl⟩
/-- A following channel 200 Hz below where it is wanted, and 2.5 s to move in. -/
def follow0 : State := running (run 47 1 true)
theorem test_meets_follow : follow0.on (F.coilChCtrl_follow 47) = true ∧ (run 47 1 true).t.op ≠ 4 ∧ cldGet follow0 47 = none ∧
    [(47, coilFact follow0 47 + 2000)].lookup 47 = some (coilFact follow0 47 + 2000) ∧
    coilFact follow0 47 + 2000 ≤ coilFact follow0 47 + 800 * 2500 / 1000 ∧ coilFact follow0 47 + 2000 ≤ 160000 ∧
    coilFact follow0 47 + 2000 ≤ coilFnom follow0 47 + 30000 := by decide
theorem test_meets_measurements : coilRunOf (running (run 47 4 true)) 47 = some (run 47 4 true) ∧
    coilFnom (running (run 47 4 true)) 47 ≤ (coilFnom awake 47 + 30000) + 30000 ∧ coilFnom awake 47 + 30000 < 2 ^ 18 ∧
    coilFnom awake 47 + 30001 > coilFnom awake 47 + 30000 ∧ coilRunOf (running (run 0 5 true)) 0 = some (run 0 5 true) ∧
    awake.on (F.coilGrpStat_down 5) = false ∧ (awake.set (F.coilGrpStat_down 5) 1).on (F.coilGrpStat_down 5) = true := by decide

-- Cloade ------------------------------------------------------------------------------------------------------------------------------------

def withTxn (t : CldTxn) : State := talking (run t.ch 1 true) t awake
theorem test_meets_census : cldGet (withTxn (txn0 47)) 47 = some (txn0 47) ∧ (txn0 47).result = none ∧ (txn0 47).stall = 0 ∧
    cldWakes (withTxn (txn0 47)) 47 = false ∧ cldWakes ((withTxn (txn0 47)).setW W.cldWakemaskHi 0x8000#32) 47 = true ∧
    (txn0 47).sending = 0 ∧ (txn0 47).phase = 1 ∧ 8 ≤ 8 ∧ cldRounds awake ≤ 8 ∧ 1 ≤ cldRounds awake := by decide
/-- Lookups are made: the directory is loaded and Basin ready. -/
def looking (s : State) : State := (s.set F.dirStat_loading 0).set F.bsnStat_ready 1
theorem test_meets_slot_reply : airBody (airFrame (zeros 8)) = some (zeros 8) ∧ airBody (airFrame (zeros 16)) = some (zeros 16) ∧
    airBody (airFrame (3#8 :: zeros 15)) = some (3#8 :: zeros 15) ∧ (zeros 8).length = (if cldShort (zeros 8) then 16 else 8) ∧
    (3#8 :: zeros 15).length = (if cldShort (3#8 :: zeros 15) then 16 else 8) ∧ (zeros 16).length ≠ (if cldShort (zeros 16) then 16 else 8) ∧
    (none : Option (List Byte)).bind airBody = none ∧ lookWaits (awake.set F.dirStat_loading 1) (zeros 8) = true ∧
    lookWaits (looking awake) (zeros 8) = false :=
  ⟨airBody_airFrame _ (by decide), airBody_airFrame _ (by decide), airBody_airFrame _ (by decide), by decide⟩
/-- The random number unit can deliver. -/
def seeded (s : State) : State := { s.set F.rngStat_seeded 0xFF with rng := { s.rng with
  passed := [true, true], insts := List.replicate 8 ⟨zeros 32, zeros 16, 0, false⟩ } }
theorem test_meets_draw : ∃ b u, rngDraw (seeded awake) 2 4 = .bits b u := rngDraw_of_can _ _ _ (by decide) (by decide)
theorem test_meets_mask_draws : ∀ n ∈ [1, 2, 3, 4], ∃ b u, maskDraws n (seeded awake) = .bits b u := fun n hn =>
  maskDraws_of_can n _ (by decide) (by decide) (by decide) (by
    have : n ≤ 4 := by simp at hn; omega
    have : (rngInst (seeded awake) 0).cnt = 0 := by decide
    omega)
theorem test_meets_mask_wait : maskDraw awake = .wait awake ∧ maskDraw (awake.set F.rngStat_fatal 1) = .fatal ∧ maskDraws 2 awake = .wait awake ∧
    maskDraws 2 (awake.set F.rngStat_fatal 1) = .fatal := by decide
/-- A tag whose session key stands in internal handle 3. -/
def tag0 : CldTag := ⟨5, zeros 8, [], [], [], none, false, false, some 3, 9⟩
def cmd0 (op left : Nat) (acc : Option Nat) : CldCmd := ⟨[byte op, 5#8], 5, left, false, false, acc⟩
def asking (op left : Nat) (acc : Option Nat) : CldTxn := { txn0 47 with phase := 4, tags := [tag0], cmd := some (cmd0 op left acc) }
def acc0 : CldAcc := ⟨1, req0, zeros 32, 47, none⟩
def accessing (t : CldTxn) : State := upd (withTxn t) fun s => { s with cld := { s.cld with accs := [acc0] } }
theorem test_meets_handshake : cldGet (withTxn (asking 0x30 0 none)) 47 = some (asking 0x30 0 none) ∧
    tagGet (asking 0x30 0 none) 5 = some tag0 ∧ leAt (cmd0 0x30 0 none).frame 0 1 = 0x30 ∧ (zeros 17).length = 17 ∧ leAt (zeros 17) 0 1 = 0 ∧
    tag0.out = none ∧ leAt (cmd0 0x31 0 none).frame 0 1 = 0x31 ∧ airBody (airFrame [0#8]) = some [0#8] ∧ cldRoom awake = some 0 := by
  refine ⟨by decide, by decide, by decide, by decide, by decide, by decide, by decide, airBody_airFrame _ (by decide), by decide⟩
/-- The root key stands, all zeros. -/
def rooted (s : State) : State := upd (s.set F.secStat_rootOk 1) fun s => { s with sec := { s.sec with root := zeros 32 } }
theorem rooted_key (s : State) (uid : List Byte) (h : (rooted s).on F.secStat_rootOk = true) :
    cldKey (rooted s) uid 0 = some (kdf (rooted s).sec.root (kdfLabel "ROOT" "CLDM" (uid ++ zeros 8) 0) 128) := by
  simp only [cldKey, h, if_true]
theorem test_meets_handshake_key : ∃ k resp, cldKey (rooted (seeded awake)) (zeros 8) 0 = some k ∧ airBody (airFrame resp) = some resp ∧
    resp.length = 17 ∧ leAt resp 0 1 = 0 ∧ hsTb k (zeros 8) [] (slice resp 1 8) = slice resp 9 8 := by
  have h : (hsTb (kdf (rooted (seeded awake)).sec.root (kdfLabel "ROOT" "CLDM" (zeros 8 ++ zeros 8) 0) 128) (zeros 8) [] (zeros 8)).length = 8 := by
    have hk := length_kdf (rooted (seeded awake)).sec.root (kdfLabel "ROOT" "CLDM" (zeros 8 ++ zeros 8) 0) 128 (.inr rfl)
    simp only [hsTb, hsX, List.length_take]
    rw [if_neg (by decide), aesEnc, length_aesEncRk _ _ (.inl hk)]; rfl
  refine ⟨_, (0#8 :: zeros 8) ++ hsTb (kdf (rooted (seeded awake)).sec.root (kdfLabel "ROOT" "CLDM" (zeros 8 ++ zeros 8) 0) 128) (zeros 8) [] (zeros 8), rooted_key _ _ (by decide), ?_⟩
  refine ⟨airBody_airFrame _ (by simp), by rw [List.length_append, h]; rfl, rfl, ?_⟩
  rw [show (9 : Nat) = (0#8 :: zeros 8).length from rfl, slice_append_tail _ _ _ h]; rfl
/-- The session of `tag0`. -/
def session (s : State) : State := { s with cph := { s.cph with handles := [(3, ⟨2, zeros 16, cldOwner⟩)] } }
theorem test_meets_access_mac : ∃ resp, airBody (airFrame resp) = some resp ∧ resp.length = cldRespLen 0x40 ∧ leAt resp 0 1 = 0 ∧
    cldMac (cldSk (session awake) tag0) tag0.cnt (resp.take (resp.length - 4)) = resp.drop (resp.length - 4) := by
  have hs : cldSk (session awake) tag0 = zeros 16 := by decide
  rw [hs]
  have h : (cldMac (zeros 16) tag0.cnt (zeros 7)).length = 4 := by
    simp only [cldMac, List.length_take, length_cmac _ _ (.inl rfl : (zeros 16).length = 16 ∨ _)]; rfl
  refine ⟨zeros 7 ++ cldMac (zeros 16) tag0.cnt (zeros 7), airBody_airFrame _ (by simp [zeros]), by rw [List.length_append, h]; rfl, rfl, ?_⟩
  have hl : (zeros 7 ++ cldMac (zeros 16) tag0.cnt (zeros 7)).length - 4 = (zeros 7).length := by rw [List.length_append, h]; rfl
  rw [hl, List.take_left, List.drop_left]
theorem test_meets_access_done : leAt (cmd0 0x40 3 (some 1)).frame 0 1 ∈ [0x20, 0x21, 0x22, 0x40] ∧ acc0 ∈ (accessing (asking 0x40 0 (some 1))).cld.accs ∧
    (cmd0 0x40 0 (some 1)).acc = some acc0.id ∧ (∀ x ∈ ({ asking 0x40 0 (some 1) with tags := [{ tag0 with done := true }] } : CldTxn).tags,
      x.handle = 5 → x.done = true) ∧ 0 < (cmd0 0x40 3 (some 1)).left ∧ cldIsWrite (cmd0 0x22 0 (some 1)) = true ∧
    cldIsWrite (cmd0 0x40 0 (some 1)) = false ∧ (asking 0x40 0 none).hdr = false ∧ (accessing (asking 0x40 0 (some 1))).cld.held = [] := by decide
def access (op ch flags : Nat) : List Byte := zeros 8 ++ [byte op, 0#8, byte ch, byte flags] ++ zeros 20
theorem test_meets_tag_access : noNewWork (stopped 18 awake) 18 = true ∧ noNewWork awake 18 = false ∧ cldAccOkForm (access 0x20 47 0) = true ∧
    cldAccOkForm (access 0x20 48 0) = false ∧ cldAccOkForm (access 0x20 0xFF 1) = true ∧ (leAt (access 0x20 47 1) 11 1).testBit 0 = true ∧
    cldQueued awake 47 0xFF = false ∧ lookWaits (looking awake) ((access 0x20 47 0).take 8) = false ∧
    lookWaits (awake.set F.dirStat_loading 1) ((access 0x20 47 0).take 8) = true ∧
    (dirSeek (looking awake) ((access 0x20 47 0).take 8)).all (fun i => (dirPin (looking awake) i).1) = true ∧
    (∀ b ∈ (accessing (txn0 47)).cld.accs, b.id = acc0.id → b = acc0) ∧ (∀ g ∈ (txn0 47).tags, g.uid = zeros 8 → g.secured = false) := by decide

-- Passport tag ----------------------------------------------------------------------------------------------------------------------------

def withPt (f : Pt → Pt) (s : State) : State := { s with pt := f s.pt }
/-- The tag answers the field: FIELD_EN set, the device on. -/
def tagOn (st : Nat) : State := withPt (fun p => { p with st, handle := 5, field := true, sk := zeros 16 }) (awake.set F.ptCfg_fieldEn 1)
theorem test_meets_field : awake.pt.field = false ∧ (tagOn 1).pt.field = true ∧ ptPowered (tagOn 1) = true ∧ ptPowered State.reset = true ∧
    ptPowered (awake.set F.pmStat_current 0) = false ∧ ptAnswers (tagOn 1) = true ∧ (tagOn 1).pt.st = 1 ∧ natBits 0xF0 7 4 ∉ [0, 4] ∧
    natBits 0x40 7 4 ∈ [0, 4] ∧ (withPt (fun p => { p with slot := some 15, cur := 14 }) (tagOn 1)).pt.cur < 15 ∧
    (withPt (fun p => { p with replied := true }) (tagOn 1)).pt.replied = true ∧ airBody [] = none := by decide
/-- What the tag hears: each frame of the field arrives as its bytes. -/
def heard (b : List Byte) : Prop := airBody (airFrame b) = some b ∧ leAt b 1 1 = 5 ∧ (tagOn 2).pt.handle = 5
theorem heard_of (b : List Byte) (h : b ≠ []) (h1 : leAt b 1 1 = 5) : heard b := ⟨airBody_airFrame b h, h1, rfl⟩
set_option maxRecDepth 4000 in
theorem test_meets_field_frames : heard [0x11#8, 5#8] ∧ heard [0x20#8, 5#8, 15#8] ∧ heard ([0x21#8, 5#8, 95#8] ++ zeros 20) ∧
    heard ([0x22#8, 5#8] ++ zeros 20) ∧ heard ([0x30#8, 5#8] ++ zeros 8) ∧ heard ([0x31#8, 5#8] ++ zeros 8) ∧ heard ([0x40#8, 5#8] ++ zeros 4) ∧
    airBody (airFrame (0x10#8 :: 0x40#8 :: zeros 4)) = some (0x10#8 :: 0x40#8 :: zeros 4) := by
  refine ⟨heard_of _ ?_ ?_, heard_of _ ?_ ?_, heard_of _ ?_ ?_, heard_of _ ?_ ?_, heard_of _ ?_ ?_, heard_of _ ?_ ?_, heard_of _ ?_ ?_,
    airBody_airFrame _ (by decide)⟩ <;> decide
theorem test_meets_field_states : ptAnswers (tagOn 4) = true ∧ 2 ≤ (tagOn 2).pt.st ∧ [0x20#8, 5#8, 15#8] ≠ (tagOn 2).pt.lastF ∧
    (tagOn 2).pt.waitRead = none ∧ (tagOn 2).pt.run = none ∧ (tagOn 2).pt.queue = [] ∧ (tagOn 2).pt.rejects < 3 ∧
    (withPt (fun p => { p with kp := some (zeros 16) }) (tagOn 2)).pt.kp = some (zeros 16) ∧ (tagOn 4).pt.cnt ≠ 0xFFFF ∧ ptBp (tagOn 4) ≠ 3 ∧
    (withPt (fun p => { p with lastF := [0x20#8, 5#8, 127#8] ++ zeros 4 }) (tagOn 4)).pt.lastF.length = 7 := by decide
theorem test_meets_field_auth : ∃ f : List Byte, airBody (airFrame f) = some f ∧ f.length = 10 ∧ leAt f 0 1 = 0x31 ∧
    (aesEnc (zeros 16) (zeros 8 ++ zeros 8)).take 8 = slice f 2 8 := by
  have h : ((aesEnc (zeros 16) (zeros 8 ++ zeros 8)).take 8).length = 8 := by
    rw [List.length_take, aesEnc, length_aesEncRk _ _ (.inl rfl)]; rfl
  refine ⟨[0x31#8, 5#8] ++ (aesEnc (zeros 16) (zeros 8 ++ zeros 8)).take 8, airBody_airFrame _ (by simp), by rw [List.length_append, h]; rfl, rfl, ?_⟩
  exact (slice_append_tail [0x31#8, 5#8] _ 8 h).symm
/-- A frame under its MAC. -/
theorem mac_frame (s : State) (b : List Byte) (hb : b ≠ []) (hk : s.pt.sk.length = 16) :
    airBody (airFrame (b ++ ptMac s b)) = some (b ++ ptMac s b) ∧ (b ++ ptMac s b).length = b.length + 4 ∧
      ptMac s ((b ++ ptMac s b).take b.length) = (b ++ ptMac s b).drop b.length := by
  refine ⟨airBody_airFrame _ (by simp [hb]), ?_, by rw [List.take_left, List.drop_left]⟩
  rw [List.length_append, ptMac, cldMac, List.length_take, length_cmac _ _ (.inl hk)]; rfl
theorem test_meets_field_mac : ∃ f : List Byte, airBody (airFrame f) = some f ∧ f.length = 7 ∧ ptMac (tagOn 4) (f.take 3) = f.drop 3 ∧
    leAt f 0 1 = 0x20 ∧ leAt f 1 1 = 5 ∧ leAt f 2 1 = 127 :=
  have h := mac_frame (tagOn 4) [0x20#8, 5#8, 127#8] (by decide) rfl
  ⟨_, h.1, h.2.1, h.2.2, rfl, rfl, rfl⟩
theorem test_meets_field_write : (∀ p ∈ [2, 95, 96, 127], ∃ f : List Byte, airBody (airFrame f) = some f ∧ f.length = 23 ∧
      ptMac (tagOn 4) (f.take 19) = f.drop 19 ∧ leAt f 0 1 = 0x21 ∧ leAt f 1 1 = 5 ∧ leAt f 2 1 = p) ∧
    ∀ d, NvTakes (writing (tagOn 4)) true (.raw (ptSlotAddr 96 true) d) := by
  refine ⟨fun p hp => ?_, fun _ => ⟨rfl, rfl, rfl⟩⟩
  have h := mac_frame (tagOn 4) ([0x21#8, 5#8, byte p] ++ zeros 16) (by simp) rfl
  refine ⟨_, h.1, h.2.1, h.2.2, rfl, rfl, ?_⟩
  simp only [List.mem_cons, List.not_mem_nil, or_false] at hp
  rcases hp with rfl | rfl | rfl | rfl <;> rfl
theorem test_meets_wired : awake.pt.cmd = false ∧ noNewWork awake 30 = false ∧ noNewWork (stopped 30 awake) 30 = true ∧ 127 ≤ 127 ∧ 46 ≤ 127 ∧
    ptPowered awake = true ∧ ptRegs awake = true ∧ awake.pt.run = none ∧ awake.pt.waitRead = none ∧ ptHold awake = false ∧
    ptHold (withPt (fun p => { p with waitRead := some [] }) awake) = true ∧ awake.on F.ptCfg_hostwait = false ∧ (withPt (fun p => { p with kpDue := some 3 }) awake).pt.kpDue = some 3 ∧ awake.pt.kpDue = none := by decide
theorem test_meets_wired_writes : NvTakes (writing awake) false (.raw (ptSlotAddr 46 true) (zeros 16)) ∧
    ∀ d, d.length = 48 → NvTakes (writing awake) false (.raw 0x5E000 d) := by
  refine ⟨by unfold NvTakes; decide, fun d h => ⟨?_, by decide, by decide⟩⟩
  have hb : bpFrom ((writing awake).get F.nvProt_bp) = 0x100000 := by decide
  simp [nvProtected, jobRanges, hb, h]

-- Radio ------------------------------------------------------------------------------------------------------------------------------------------

def withRf (f : Rf → Rf) (s : State) : State := { s with rf := f s.rf }
def radioOn : State := awake.set F.rfCtrl_en 1
/-- A request at 433 MHz, step 20, with flag HOLD or not. -/
def rfReq (kind prof step : Nat) (hold : Bool) : List Byte :=
  [byte kind, byte prof, byte (step + (if hold then 0x20 else 0)), 0#8] ++ leBytes 4 433000 ++ leBytes 2 100 ++ zeros 6
theorem test_meets_radio_requests : rfReqOk radioOn 2 req0 (rfReq 2 0 20 false) = true ∧ rfReqOk radioOn 3 req0 (rfReq 3 0 20 false) = false ∧
    rfReqOk (radioOn.set F.rfCtrl_cwEn 1) 3 req0 (rfReq 3 0 20 false) = true ∧ rfReqOk radioOn 1 req0 (rfReq 1 7 31 true) = true ∧
    rfFree radioOn = true ∧ rfFree (stopped 20 radioOn) = false ∧ radioOn.rf.queue = [] ∧ txBarred radioOn = false ∧
    txBarred (radioOn.set F.secStat_lc 2) = true ∧ rfEntry radioOn 1 433000 50 = none := by decide
/-- One entry: 420–440 MHz, enabled, step at most 16, a DUTY of `duty`. -/
def regulated (duty : Nat) (s : State) : State := withRf (fun r => { r with
  block := memWrite [] 0 ([1#8, 1#8] ++ zeros 14 ++ leBytes 4 420000 ++ leBytes 4 440000 ++ [16#8, 1#8] ++ leBytes 2 duty), held := [] }) s
theorem test_meets_radio_duty : rfEntry (regulated 0 radioOn) 1 433000 (rfHalf radioOn 3 0) = some 0 ∧ entMax (regulated 0 radioOn) 0 < 20 ∧
    16 ≤ entMax (regulated 0 radioOn) 0 ∧ dutyFits (regulated 2 radioOn) 0 (txCharge radioOn 3 0 0 100) = true ∧
    dutyFits (regulated 0 radioOn) 0 (txCharge radioOn 3 0 0 100) = false ∧ (leAt (rfReq 3 0 20 true) 2 1).testBit 5 = true ∧
    (leAt (rfReq 3 0 16 false) 2 1).testBit 5 = false ∧ rqStep (rfReq 3 0 16 false) ≤ entMax (regulated 0 radioOn) 0 ∧
    rfEntry (regulated 0 radioOn) 1 433000 (rfHalf radioOn 1 0) = some 0 := by decide
theorem test_meets_radio_op : ∀ k ∈ [1, 2, 3], leAt (rfReq k 0 20 true) 0 1 = k ∧ rfReqOk radioOn (k % 3 + 1) req0 (rfReq k 0 20 false) = false := by
  decide
def rfItem (kind : Nat) : RfItem := ⟨0, 1, kind, rfReq kind 0 16 false, [req0], none, false, 0, false, false⟩
def rfBusy (st kind : Nat) (sync : Option (Nat × Nat)) (expired : Bool) : State :=
  withRf (fun r => { r with run := some ⟨rfItem kind, 0, 16, 7, false, St.ok, 0, sync, expired⟩ }) (radioOn.set F.rfStat_state st)
theorem test_meets_radio_runs : (∀ st ∈ [1, 2, 3, 4, 5, 6], (rfBusy st 2 (some (255, 9)) true).get F.rfStat_state = st) ∧
    (rfBusy 3 2 none false).rf.queue = [] ∧ ((rfBusy 3 2 (some (255, 9)) true).rf.run.map fun r => (r.sync, r.expired, r.item.reqs)) =
      some (some (255, 9), true, [req0]) ∧ dcHit (rfBusy 2 2 none false) 433000 250 = false ∧
    dcHit (withRf (fun r => { r with cache := [(433000, 250)] }) (rfBusy 2 2 none false)) 433000 250 = true ∧ 63 < 64 ∧ 99 < 100 ∧ 100 ≤ 100 := by
  decide
/-- A packet with its CRC is taken, one cut short is not. -/
theorem test_meets_radio_packets : rfPayload (airFrame [2#8, 7#8, 9#8]) = some [7#8, 9#8] ∧ rfPayload [] = none ∧
    rfPayload (airFrame [3#8, 7#8, 9#8]) = none :=
  ⟨by simp [rfPayload], rfl, by simp [rfPayload]⟩
set_option maxRecDepth 20000 in
theorem test_meets_regulatory : NvTakes (writing radioOn) false (.record recRegBlock []) ∧ radioOn.sec.regLock = false ∧
    ({ radioOn with sec := { radioOn.sec with regLock := true } } : State).sec.regLock = true ∧ isStopped (stopped 20 radioOn) 20 = true ∧
    isStopped radioOn 20 = false ∧ regImageOk (byte 1 :: zeros 511) = true ∧ regImageOk (0#8 :: 17#8 :: zeros 510) = false ∧
    (∀ y ∈ [rfItem 1], y.id = (rfItem 1).id → y = rfItem 1) ∧ (rfItem 1).data.length = 16 ∧
    dutyLow (regulated 0 radioOn) 0 = false ∧
    dutyLow (withRf (fun r => { r with bins := [[99]] }) (regulated 1 radioOn)) 0 = true ∧ noNewWork (stopped 20 radioOn) 20 = true := by
  unfold NvTakes; decide

-- Proximity ----------------------------------------------------------------------------------------------------------------------------------------

def proxOn : State := looking (seeded (radioOn.set F.prxCtrl_en 1))
def fob0 : List Byte := 1#8 :: zeros 7
def sweepReq : List Byte := fob0 ++ zeros 8
/-- The fob stands VALID in its first bucket. -/
def withFob (s : State) : State :=
  upd (rooted s) fun s => { s with dir := { s.dir with entries := [(4 * (dirBuckets fob0).1, fob0 ++ [1#8] ++ zeros 55)] } }
def sweepItem : RfItem := ⟨0, 1, 7, sweepReq, [req0], none, false, 0, false, false⟩
def queued (s : State) : State := withRf (fun r => { r with queue := [sweepItem] }) s
set_option maxRecDepth 20000 in
theorem test_meets_sweep_requests : noNewWork (stopped 22 proxOn) 22 = true ∧ req0.cls < 3 ∧ prxFormOk req0.cls sweepReq = true ∧
    prxFormOk req0.cls (zeros 3) = false ∧ (dirSeek (withFob proxOn) (sweepReq.take 8)).isSome = true ∧ leAt (sweepReq.take 8) 0 1 = 1 ∧
    (leAt sweepReq 10 1).testBit 1 = false ∧ proxOn.prx.cur = none ∧ proxOn.prx.stalled = none ∧ rfFree (stopped 20 proxOn) = false ∧
    (∀ x ∈ proxOn.rf.queue, x.kind ≠ 7) ∧ lookWaits proxOn (slice sweepReq 0 8) = false ∧
    lookWaits (proxOn.set F.dirStat_loading 1) (slice sweepReq 0 8) = true := by decide
theorem test_meets_sweep_disabled : rfPick (queued radioOn) = some sweepItem ∧ rfFree (queued radioOn) = true ∧ sweepItem.kind = 7 ∧
    (radioOn.set F.prxCtrl_en 0).on F.prxCtrl_en = false ∧ (queued radioOn).rf.queue = [sweepItem] := by decide
/-- One entry that takes every frequency, with no limit on duty. -/
def anywhere (s : State) : State := withRf (fun r => { r with
  block := memWrite [] 0 ([1#8, 1#8] ++ zeros 14 ++ leBytes 4 300000 ++ leBytes 4 960000 ++ [31#8, 3#8, 0xFF#8, 0xFF#8]) }) s
def sweepUp : State := anywhere (queued (withFob ((proxOn.set F.prxFl_fl 430000).set F.prxFh_fh 905000)))
set_option maxRecDepth 20000 in
theorem test_meets_sweep_takeup : ((sweepCharges sweepUp (sweepHops sweepUp sweepReq)).any fun ch => ch.all fun x => dutyFits sweepUp x.1 x.2) = true ∧
    txBarred sweepUp = false ∧ sweepUp.on F.prxCtrl_en = true ∧ sweepUp.on F.rfCtrl_en = true ∧ sweepUp.get F.prxSweepid_id + 1 < 2 ^ 32 ∧
    sweepHops sweepUp sweepReq % 2 = 0 ∧ ((dirSeek sweepUp fob0).map fun i => leAt (dirEntry sweepUp i) 9 1).getD 0 = 0 :=
  by decide
set_option maxRecDepth 20000 in
theorem test_meets_sweep_key : ∃ k, cldKey sweepUp fob0 0 = some k :=
  ⟨_, by simp only [cldKey, show sweepUp.on F.secStat_rootOk = true by decide, if_true]; rfl⟩
set_option maxRecDepth 20000 in
theorem test_meets_sweep_draws : ∃ seed u m v, rngDraw sweepUp 3 4 = .bits seed u ∧ maskDraws 4 u = .bits m v := by
  obtain ⟨b, x, h⟩ : ∃ b x, rngDraw sweepUp 3 4 = .bits b { sweepUp with rng := { sweepUp.rng with insts := sweepUp.rng.insts.set 3 x } } := by
    simp only [rngDraw, show sweepUp.on F.rngStat_fatal = false by decide, show rngCan sweepUp 3 = true by decide, rngUpd]
    exact ⟨_, _, rfl⟩
  have h0 : (sweepUp.rng.insts.set 3 x).getD 0 ⟨[], [], 0, false⟩ = sweepUp.rng.insts.getD 0 ⟨[], [], 0, false⟩ := by
    rw [List.getD_eq_getElem?_getD, List.getElem?_set_ne (by decide), List.getD_eq_getElem?_getD]
  obtain ⟨m, v, hm⟩ := maskDraws_of_can 4 { sweepUp with rng := { sweepUp.rng with insts := sweepUp.rng.insts.set 3 x } }
    (show sweepUp.on F.rngStat_fatal = false by decide)
    (show (bitOf (sweepUp.get F.rngStat_seeded) 0 && sweepUp.rng.passed.all id && !(RngInst.reseeding (List.getD _ 0 ⟨[], [], 0, false⟩))) = true by
      rw [h0]; decide)
    (by simp only [List.length_set]; decide)
    (show RngInst.cnt (List.getD _ 0 ⟨[], [], 0, false⟩) + 4 < 2 ^ 20 by rw [h0]; decide)
  exact ⟨b, _, m, v, h, hm⟩
def sweeping (hops : List (Nat × Bool)) (done : List PrxHop) : State :=
  { proxOn with prx := { proxOn.prx with cur := some ⟨sweepItem, 9, zeros 16, hops, done, 0, zeros 13, ⟨0, 0, 0, false⟩, 25⟩ } }
theorem test_meets_sweep_hops : ((sweeping [(905000, true)] []).prx.cur.map fun c => c.hops) = some [(905000, true)] ∧ 905000 < 2 ^ 20 ∧
    7 ∈ [0, 3, 7] ∧ ((sweeping [] [⟨905000, true, true, false, some ⟨0, 0, 0, false⟩, none⟩]).prx.cur.map fun c =>
      c.done.all fun x => x.reply.isNone) = some true ∧ (leAt sweepItem.data 10 1).testBit 1 = false ∧
    NvTakes (writing proxOn) false (.record recProx []) ∧ (sweeping [] []).rf.queue = [] ∧ (sweeping [] []).on F.rfStat_locked = false ∧
    ((sweeping [] []).set F.rfStat_locked 1).on F.rfStat_locked = true := by
  unfold NvTakes; decide
theorem test_meets_sweep_confirm : rfPayload (airFrame (6#8 :: zeros 6)) = some (zeros 6) ∧ rfPayload [] = none ∧
    rfPayload (airFrame (byte (leBytes 2 9 ++ (cmac (zeros 16) ((['C', 'O', 'N', 'F'].map fun x => byte x.toNat) ++ leBytes 4 9)).take 4).length ::
      (leBytes 2 9 ++ (cmac (zeros 16) ((['C', 'O', 'N', 'F'].map fun x => byte x.toNat) ++ leBytes 4 9)).take 4))) =
      some (leBytes 2 9 ++ (cmac (zeros 16) ((['C', 'O', 'N', 'F'].map fun x => byte x.toNat) ++ leBytes 4 9)).take 4) := by
  refine ⟨by simp [rfPayload, zeros], rfl, ?_⟩
  generalize cmac (zeros 16) _ = m
  have hl : (leBytes 2 9 ++ m.take 4).length < 256 := by simp [length_leBytes]; omega
  rw [rfPayload, airBody_airFrame _ (by simp)]
  simp only [byte, BitVec.toNat_ofNat, Nat.mod_eq_of_lt hl, if_true]

-- Cipher engine ------------------------------------------------------------------------------------------------------------------------

def reqAt (port sub : Nat) : Req := ⟨port, sub, 0, 1, 0, false⟩
/-- A request: OP, FLAGS, KH, KH_B, NCTR, TAGLEN, STREAM, CTRW, then the 48 bytes from offset 16, then the data. -/
def cReq (op flags kh khb nctr tag stream ctrw : Nat) (params data : List Byte) : List Byte :=
  [byte op, byte flags, byte kh, byte khb, byte nctr, byte tag, byte stream, byte ctrw] ++ zeros 4 ++ leBytes 4 data.length ++ params ++ data
def iv0 : CphOwner := ⟨false, 14, 1⟩
def own (n : Nat) : CphKey := ⟨n, zeros 32, iv0⟩
def str0 : CphStream := ⟨1, false, iv0, 0, zeros 32, 16, 0, zeros 12, [], [], 0, 0, 0, [], 0⟩
def ctx0 : List Byte := [1#8, 0#8, 3#8, 0#8] ++ zeros 4 ++ leBytes 4 7 ++ [0#8, 14#8, 1#8, 0#8] ++ zeros 80
/-- Handles 1, 2 and, of the security block, 6, stream 3 open, stream 4 saved with serial 7, nonce counter 5 allocated. -/
def keyed : State :=
  let s := awake.set F.cphCtrl_en 1
  { s with
    cph := { s.cph with handles := [(1, own 0), (2, own 4), (6, ⟨4, zeros 32, ⟨false, 15, 40⟩⟩)], streams := [(3, str0)], saves := [(4, 7)], domain := some (zeros 32) }
    bsn := { s.bsn with size := [64, 64, 64, 64, 128] }
    keep := memWrite s.keep (K.nonce 5 + 13) [14#8, 1#8, 1#8] }
def cphReq (d : List Byte) (req : Req) : CphReq := ⟨keyed.cph.nextId, req, d, false, false⟩
def dKey : List Byte := zeros 16 ++ (kdfLabel "LSSR" "ABCD" (zeros 16) 0).take 32
def admitted (d : List Byte) (req : Req) : Bool := cphCheck keyed 0xFF (cphReq d req) == none && cphWait keyed (cphReq d req) == none
set_option maxRecDepth 20000 in
theorem test_meets_cipher_core_ops : (∀ d ∈ [cReq 1 3 1 0xFF 0xFF 16 0 0 (zeros 48) [], cReq 2 3 1 0xFF 0xFF 4 0 0 (zeros 48) (zeros 7),
      cReq 3 3 1 0xFF 0xFF 16 63 0 (zeros 48) (zeros 5), cReq 4 3 1 0xFF 0xFF 0 63 128 (zeros 48) (zeros 5), cReq 5 0 1 0xFF 0xFF 0 0 0 (zeros 48) (zeros 16),
      cReq 6 0 1 127 0xFF 0 0 0 (zeros 48) (zeros 16), cReq 7 0 0xFF 127 0xFF 0 0 0 dKey [], cReq 10 0 1 2 0xFF 0 0 0 (zeros 48) [],
      cReq 11 0 1 3 0xFF 0 0 0 (zeros 48) (zeros 24), cReq 14 0 0xFF 0xFF 0xFF 0 3 0 (zeros 48) [], cReq 15 0 0xFF 0xFF 0xFF 0 4 0 (zeros 48) ctx0],
    admitted d (reqAt 14 1) = true) := by decide
theorem test_meets_cipher_cores : keyed.cph.queue = [] ∧ keyed.cph.cores.length = 6 ∧ (∀ k ∈ keyed.cph.cores, k.run = none ∧ k.held = none) ∧
    corePick keyed 1 = some (0, false) ∧ corePick keyed 0 = some (0, false) ∧ opNeedsCore 15 = true ∧ opNeedsCore 17 = false := by decide
theorem test_meets_cipher_draws : (∃ m u, maskDraw (seeded keyed) = .bits m u) ∧ ∃ b u, rngDraw (seeded keyed) 1 8 = .bits b u :=
  ⟨rngDraw_of_can _ _ _ (by decide) (by decide), rngDraw_of_can _ _ _ (by decide) (by decide)⟩
set_option maxRecDepth 20000 in
theorem test_meets_cipher_other_ops : admitted (cReq 8 0 0xFF 127 0xFF 0 0 0 (zeros 48) []) (reqAt 14 1) = true ∧
    loadHandle keyed (cphReq (cReq 8 0 0xFF 0xFF 0xFF 0 0 0 (zeros 48) []) (reqAt 14 1)) = some 0 ∧
    admitted (cReq 9 0 1 0xFF 0xFF 0 0 0 (zeros 48) []) (reqAt 14 1) = true ∧ admitted (cReq 12 0 1 0xFF 0xFF 0 0 0 (zeros 48) []) (reqAt 14 1) = true ∧
    ncFree keyed (cphExt (reqAt 14 1)) = some 0 ∧ admitted (cReq 13 0 0xFF 0xFF 5 0 0 0 (zeros 48) []) (reqAt 14 1) = true ∧
    admitted (cReq 16 0 6 0xFF 0xFF 0 0 0 (zeros 48) []) (reqAt 15 40) = true ∧
    admitted (cReq 17 0 0xFF 0xFF 0xFF 0 0 0 (zeros 48) []) (reqAt 15 40) = true ∧
    (let r := { reqAt 14 1 with cls := 2 }
     admitted (cReq 9 0 1 0xFF 0xFF 0 0 0 (zeros 48) []) r = true ∧ corePick keyed 2 ≠ none ∧ corePick ((keyed.set F.cphCtrl_resvC0 3).set F.cphStat_coreOff 0x38) 2 = none ∧
       cphCheck ((keyed.set F.cphCtrl_resvC0 3).set F.cphStat_coreOff 0x38) 0xFF (cphReq (cReq 9 0 1 0xFF 0xFF 0 0 0 (zeros 48) []) r) = none) := by decide
theorem test_meets_domain_record : NvTakes (writing keyed) false (.record recDomain []) := by unfold NvTakes; decide
set_option maxRecDepth 20000 in
theorem test_meets_cipher_refusals : cphCheck keyed 0xFF (cphReq (cReq 0x12 0 1 0xFF 0xFF 0 0 0 (zeros 48) []) (reqAt 14 1)) = some St.badDescriptor ∧
    cphCheck keyed 0xFF (cphReq (cReq 17 0 0xFF 0xFF 0xFF 0 0 0 (zeros 48) []) (reqAt 14 1)) = some St.keyUsage ∧
    cphCheck keyed 0xFF (cphReq (cReq 9 0 126 0xFF 0xFF 0 0 0 (zeros 48) []) (reqAt 14 1)) = some St.keyUnavailable ∧
    cphCheck awake 0xFF (cphReq (zeros 64) (reqAt 14 1)) ≠ none ∧
    cphCheck keyed 0xFF (cphReq (cReq 16 0 2 0xFF 0xFF 0 0 0 (zeros 48) []) (reqAt 15 40)) = some St.keyUsage ∧
    cphCheck keyed 0xFF (cphReq (cReq 8 0 0xFF 130 0xFF 0 0 0 (zeros 48) []) (reqAt 14 1)) = some St.badDescriptor ∧
    noNewWork (stopped 24 awake) 24 = true ∧ noNewWork keyed 24 = false := by decide
def onCore (core : Nat) (d : List Byte) : State :=
  let r : CphRun := ⟨⟨0, reqAt 14 1, d, false, false⟩, 0, some (own 0), some (own 3), zeros 16, false, str0, some 127, 0, false⟩
  { keyed with cph := { keyed.cph with cores := keyed.cph.cores.set core ⟨some r, none⟩ } }
set_option maxRecDepth 20000 in
theorem test_meets_cipher_results : (onCore 5 []).cph.queue = [] ∧ (onCore 5 []).cph.cores.length = 6 ∧ ((onCore 5 []).cph.cores.getD 5 ⟨none, none⟩).held = none ∧
    ((onCore 5 []).cph.cores.getD 5 ⟨none, none⟩).run.isSome = true ∧
    (let d := cReq 1 3 1 0xFF 0xFF 16 0 0 (zeros 48) []
     hOp d = 1 ∧ hFirst d = true ∧ hLast d = true ∧ hDec d = false ∧ hDec (cReq 1 7 1 0xFF 0xFF 16 0 0 (zeros 48) []) = true) ∧
    (∀ op ∈ [2, 3, 4, 5, 6, 7, 10, 11, 14, 15, 16], hOp (cReq op 7 1 0xFF 0xFF 16 3 0 (zeros 48) []) = op) ∧ 0 ≤ 16384 ∧
    loadHandle keyed (cphReq (cReq 6 0 1 127 0xFF 0 0 0 (zeros 48) []) (reqAt 14 1)) = some 127 ∧ slice dKey 16 4 = (kdfLabel "LSSR" "" [] 0).take 4 ∧
    cphStream keyed (hStream (cReq 14 0 0xFF 0xFF 0xFF 0 3 0 (zeros 48) [])) = some str0 ∧
    ctxOf keyed (cReq 15 0 0xFF 0xFF 0xFF 0 4 0 (zeros 48) ctx0) = some ctx0 := by decide
theorem slice_append_left (x y : List Byte) (o n : Nat) (h : o + n ≤ x.length) : slice (x ++ y) o n = slice x o n := by
  apply List.ext_getElem
  · simp [slice]
  · intro i h1 h2
    have hi : i < n := by simpa [slice] using h1
    simp [slice, List.getElem?_append_left (show o + i < x.length by omega)]
/-- A tag of 16 bytes in PARAM reads back. -/
theorem tag_of_header (pre t post : List Byte) (hp : pre.length = 32) (ht : t.length = 16) : slice (pre ++ t ++ post) 32 16 = t := by
  rw [slice_append_left _ _ _ _ (by simp [hp, ht]), ← hp, slice_append_tail _ _ _ ht]
/-- A decryption without data or associated data: its tag stands in PARAM. -/
def sealed (op : Nat) (t : List Byte) : List Byte := (cReq op 7 1 0xFF 0xFF 16 0 0 [] [] ++ zeros 16) ++ t ++ zeros 16
theorem sealed_fields (op : Nat) (t : List Byte) (ht : t.length = 16) : hFirst (sealed op t) = true ∧ hLast (sealed op t) = true ∧
    hDec (sealed op t) = true ∧ hTagLen (sealed op t) = 16 ∧ hAadLen (sealed op t) = 0 ∧ hTag (sealed op t) = t ∧ hData (sealed op t) = [] :=
  ⟨show bitOf 7 0 = true by decide, show bitOf 7 1 = true by decide, show bitOf 7 2 = true by decide, rfl, rfl, tag_of_header _ _ _ rfl ht, by
    have hl : (sealed op t).length = 64 := by simp [sealed, cReq, ht, zeros, length_leBytes]
    exact List.drop_eq_nil_of_le (by rw [hl]; exact Nat.le_add_right _ _)⟩
theorem test_meets_gcm_tag : ∃ d : List Byte, hOp d = 1 ∧ hFirst d = true ∧ hLast d = true ∧ hDec d = true ∧
    (gcmTag (roundKeys (zeros 32)) (zeros 12) (ghash (ghKey (roundKeys (zeros 32))) (ghash (ghKey (roundKeys (zeros 32))) 0#128 (hAad d)) (hData d))
      (hAadLen d) (hData d).length).take (hTagLen d) = hTag d := by
  have ht : (gcmTag (roundKeys (zeros 32)) (zeros 12) (ghash (ghKey (roundKeys (zeros 32))) (ghash (ghKey (roundKeys (zeros 32))) 0#128 []) []) 0 0).length = 16 := by
    rw [gcmTag, length_xorBytes, length_beBytes, length_aesEncRk _ _ (.inr rfl)]; rfl
  generalize hg : gcmTag (roundKeys (zeros 32)) (zeros 12) (ghash (ghKey (roundKeys (zeros 32))) (ghash (ghKey (roundKeys (zeros 32))) 0#128 []) []) 0 0 = t at ht
  obtain ⟨h1, h2, h3, h4, h5, h6, h7⟩ := sealed_fields 1 t ht
  refine ⟨sealed 1 t, rfl, h1, h2, h3, ?_⟩
  rw [h7, h6, h5, h4, hAad, h5]
  simp only [List.take_zero, List.length_nil, hg]
  rw [← ht, List.take_length]
theorem length_cmacChain (key st bs : List Byte) (h : key.length = 16 ∨ key.length = 32) (hs : st.length = 16) :
    (cmacChain (roundKeys key) st bs).length = 16 := by
  unfold cmacChain
  generalize blocks16 bs = l
  induction l generalizing st with
  | nil => exact hs
  | cons b l ih => exact ih _ (length_aesEncRk _ _ h)
theorem test_meets_ccm_tag : ∃ d : List Byte, hOp d = 2 ∧ hDec d = true ∧ ccmTag (roundKeys (zeros 32)) (slice d 16 13) (hAad d)
    (ccmCrypt (roundKeys (zeros 32)) (slice d 16 13) (hData d)) (hTagLen d) = hTag d := by
  have hn : ∀ t, slice (sealed 2 t) 16 13 = zeros 13 := fun t => by
    rw [sealed, List.append_assoc, slice_append_left _ _ _ _ (by decide)]; rfl
  have hm : (ccmMac (roundKeys (zeros 32)) (zeros 13) [] (ccmCrypt (roundKeys (zeros 32)) (zeros 13) []) 16).length = 16 :=
    length_cmacChain _ _ _ (.inr rfl) rfl
  generalize hg : ccmTag (roundKeys (zeros 32)) (zeros 13) [] (ccmCrypt (roundKeys (zeros 32)) (zeros 13) []) 16 = t
  have ht : t.length = 16 := by
    rw [← hg, ccmTag, List.length_take, length_xorBytes, hm, length_aesEncRk _ _ (.inr rfl)]; rfl
  obtain ⟨h1, h2, h3, h4, h5, h6, h7⟩ := sealed_fields 2 t ht
  refine ⟨sealed 2 t, rfl, h3, ?_⟩
  rw [hn, h7, h6, h4, hAad, h5, List.take_zero, hg]
theorem test_meets_unwrap : keyUnwrap (zeros 32) kwIv = some [] ∧ keyUnwrap (zeros 32) (zeros 8) = none := by decide
def waiting0 : CphReq := ⟨0, reqAt 14 1, cReq 9 0 1 0xFF 0xFF 0 0 0 (zeros 48) [], true, false⟩
theorem test_meets_cipher_wait : ({ keyed with cph := { keyed.cph with queue := [waiting0] } } : State).cph.queue = [waiting0] ∧ waiting0.waiting = true := by
  decide

-- Random numbers ---------------------------------------------------------------------------------------------------------------------------------

def withRng (f : Rng → Rng) (s : State) : State := { s with rng := f s.rng }
theorem test_meets_draws : (∃ b u, rngDraw (seeded awake) 4 4 = .bits b u) ∧ (∃ b u, rngDraw (seeded awake) 5 4 = .bits b u) ∧
    (∃ b u, rngPart 8 (seeded awake) 6 (4 * 1) [] = (b, u) ∧ b.length = 4 * 1) ∧ rngPart 8 awake 6 (4 * 64) [] = ([], awake) ∧
    rngDraw awake 4 4 = .wait awake ∧ rngDraw awake 5 4 = .wait awake ∧ (awake.set F.rngStat_fatal 1).on F.rngStat_fatal = true ∧ rngPortInst 12 = some 4 ∧ rngPortInst 8 = some 5 ∧ rngPortInst 10 = some 6 ∧
    rngPortInst 14 = none ∧ (leBytes 2 256 ++ zeros 2).length = 4 ∧ leAt (leBytes 2 256 ++ zeros 2) 0 2 = 4 * 64 ∧ awake.hst.qspi = false ∧
    ({ awake with hst := { awake.hst with qspi := true } } : State).hst.qspi = true :=
  ⟨rngDraw_of_can _ _ _ (by decide) (by decide), rngDraw_of_can _ _ _ (by decide) (by decide), by
    rcases rngDraw_cases (seeded awake) 6 4 with ⟨h, -⟩ | ⟨-, h, -⟩ | ⟨-, -, r, h⟩
    · exact absurd h (by decide)
    · exact absurd h (by decide)
    · refine ⟨_, _, by simp [rngPart, h]; exact ⟨rfl, rfl⟩, ?_⟩
      exact length_drbgGen 4 _ _ (.inr (by decide)), by decide⟩
def rawReady : State := withRng (fun r => { r with passed := [true, true], raw := [zeros 4, []] }) (awake.set F.rngStat_jstate 2)
theorem test_meets_raw : (rawTake rawReady).isSome = true ∧ rawReady.on F.rngStat_fatal = false := by decide
def alternating : List Byte := List.replicate 128 0xAA#8
set_option maxRecDepth 40000 in
theorem test_meets_blocks : alternating.length = 128 ∧ blockPasses ((awake.set F.rngHtcfg_rctC 20).set F.rngHtcfg_aptC 800) alternating = true ∧
    blockPasses awake (zeros 128) = false := by decide
theorem test_meets_seeding : awake.rng.waits = [] ∧ awake.cph.queue = [] ∧ awake.led.stalled = [] ∧ awake.cld.txns = [] ∧ awake.prx.stalled = none ∧ awake.vio.waits = [] ∧
    awake.sec.queue = [] ∧ awake.sec.dbgRd = none ∧ (State.reset.on F.clkStat_cfgDone = true → State.reset.sec.rootGen = true) ∧
    noNewWork (stopped 26 awake) 26 = true ∧ noNewWork awake 26 = false ∧ rngSrc (awake.set F.rngStat_jstate 1) 0 ≠ 0 ∧ (seeded awake).get F.rngStat_seeded = 0xFF ∧
    (∀ k, k < 7 → bitOf ((awake.set F.rngStat_seeded 0x3F).get F.rngStat_seeded) k = (k != 6)) ∧
    bitOf ((awake.set F.rngStat_seeded 0x3F).get F.rngStat_seeded) 7 = false ∧
    (withRng (fun r => { r with fails := [[], []] }) awake).rng.fails.getD 0 [] = [] ∧ rngSrc (awake.set F.rngStat_ostate 2) 1 = 2 ∧ rngSrc awake 1 ≠ 2 := by
  decide
def reseeding : State := withRng (fun r => { r with insts := List.replicate 8 ⟨[], [], 2 ^ 20, true⟩, pool := zeros 64 }) awake
theorem test_meets_reseed : 7 < reseeding.rng.insts.length ∧ (reseeding.rng.insts.getD 7 ⟨[], [], 0, false⟩).reseeding = true ∧
    64 ≤ reseeding.rng.pool.length ∧ (withRng (fun r => { r with waits := [.read true false] }) awake).rng.waits = [.read true false] ∧
    (withRng (fun r => { r with waits := [.frame req0 256 6 [7#8]] }) awake).rng.waits = [.frame req0 256 6 [7#8]] ∧
    (withRng (fun r => { r with waits := [.mgmt req0 26 W.rngRaw true] }) awake).rng.waits = [.mgmt req0 26 W.rngRaw true] := by decide

-- NV store ------------------------------------------------------------------------------------------------------------------------------------------

def regCmd0 : NvCmd := ⟨0, 15, 0, 1, 0, []⟩
/-- User descriptor 7 lies at the ends of the user region, one page a copy. -/
def described (s : State) : State := ((s.set (F.nvRecdA_addrA 7) 0x40000).set (F.nvRecdB_addrB 7) 0x4FF80).set (F.nvRecdCfg_len 7) 128
set_option maxRecDepth 40000 in
theorem test_meets_nv_commands : ({ awake with nv := { awake.nv with cmd := some regCmd0 } } : State).nv.cmd.isSome = true ∧ awake.nv.cmd = none ∧
    noNewWork (stopped 28 awake) 28 = true ∧ noNewWork awake 28 = false ∧ (awake.set F.nvXfer_len 128).get F.nvXfer_len = 128 ∧ awake.get F.nvXfer_len = 0 ∧
    0xFFF80 + 128 ≤ 0x100000 ∧ nvPageBusy awake 0xFFF80 128 = false ∧ nvPageBusy (writing awake) 0 128 = true ∧ nvOpen 0x3FFFF 1 = false ∧
    nvOpen 0x4FFFF 1 = true ∧ NvTakes (writing awake) false (.raw 0x4FFFF [0#8]) ∧ userDescOk (userDesc (described awake) 7) = true ∧
    recBusy (described awake) (userDesc (described awake) 7) = false ∧ recSelect (described awake) (userDesc (described awake) 7) = none ∧
    NvTakes (described (writing awake)) false (.record (userDesc (described awake) 7) []) ∧ NvTakes (writing awake) false (.record recNv []) := by
  unfold NvTakes; decide
/-- Copy B alone is valid: 128 zeros with SEQ 5; or both copies are, alike. -/
def recorded (both : Bool) : State :=
  let t : RecTag := ⟨0x0107, 128, 5, recCrc 0x0107 128 5 (zeros 128)⟩
  upd (described awake) fun s => { s with nv := { s.nv with
    tags := (if both then [(0x40000 / 128, t)] else []) ++ [(0x4FF80 / 128, t)] } }
set_option maxRecDepth 40000 in
theorem test_meets_record_reads : (recSelect (recorded false) (userDesc (recorded false) 7)).isSome = true ∧
    recSelect (recorded true) (userDesc (recorded true) 7) = some ⟨false, 5, zeros 128, false, false⟩ := by decide
theorem test_meets_protection : awake.get F.nvProt_bp < 3 ∧ 2 < (awake.set F.nvProt_bp 3).get F.nvProt_bp ∧ awake.get F.secStat_lc ≤ 1 ∧
    1 < (awake.set F.secStat_lc 2).get F.secStat_lc := by decide
def scrubOn : State := awake.set F.nvCtrl_scrubEn 1
theorem test_meets_scrub : scrubOn.on F.nvStat_scrubbing = false ∧ scrubRuns scrubOn = true ∧
    scrubOn.get F.nvScrublast_last + 31536000 ≤ ({ scrubOn with rtc := 31536000 * 1000000 } : State).rtcSec ∧
    (scrubOn.set F.nvStat_scrubbing 1).on F.nvStat_scrubbing = true ∧ scrubQueued scrubOn = false ∧ scrubOn.nv.torn = [] ∧
    NvTakes (writing scrubOn) true (.refresh 0) := by unfold NvTakes; decide
def nvReq (op desc addr len : Nat) (data : List Byte) : List Byte := [byte op, byte desc, 0#8, 0#8] ++ leBytes 4 addr ++ leBytes 4 len ++ zeros 4 ++ data
set_option maxRecDepth 40000 in
theorem test_meets_nv_frames : nvFrameOk awake req0 1 (nvReq 1 0 0xFF000 4096 []) = true ∧ nvFrameOk awake req0 1 (nvReq 1 0 0xFF001 4096 []) = false ∧
    nvFrameOk awake req0 2 (nvReq 2 0 0x4FFFF 1 [7#8]) = true ∧ nvFrameOk (described awake) req0 3 (nvReq 3 7 127 1 []) = true ∧
    nvFrameOk (described awake) req0 4 (nvReq 4 7 0 128 (zeros 128)) = true ∧ nvPageBusy (writing awake) 0 1 = true := by decide
/-- The last page of a queued write is being written. -/
def lastPage : State := { awake with nv := { awake.nv with
  cur := some ⟨false, 0x4FF80 / 128, zeros 128, none, false, none⟩, ord := [⟨.raw 0x4FF80 (zeros 128), [⟨0x4FF80 / 128, 0, zeros 128, none⟩], true, false, true, 15, .regCmd false 0⟩] } }
theorem test_meets_page_done : lastPage.nv.cur = some ⟨false, 2559, zeros 128, none, false, none⟩ ∧ lastPage.nv.ord.length = 1 ∧
    (∀ j ∈ lastPage.nv.ord, j.pages.length ≤ 1 ∧ j.cont = .regCmd false 0) ∧ lastPage.nv.waitRead = [] ∧ lastPage.sec.dbgRd = none ∧ lastPage.iv.load = none ∧
    ([⟨0, 0, [], none⟩, ⟨1, 0, [], none⟩] : List NvPw).drop 1 ≠ [] := by decide

-- Basin, capture, directory --------------------------------------------------------------------------------------------------------------------------

def parts (l : List Nat) (s : State) : State := (l.zipIdx).foldl (fun s x => s.set ⟨W.bsnPart0 + 4 * x.2, 5, 0⟩ x.1) s
theorem test_meets_apply : partSizes (parts [32, 16, 8, 4, 2] (stopped 12 awake)) = [32, 16, 8, 4, 2] ∧
    ([32, 16, 8, 4, 2] : List Nat).foldl (· + ·) 0 = 62 ∧ isStopped (parts [32, 16, 8, 4, 2] (stopped 12 awake)) 12 = true ∧
    partSame [32, 16, 8, 4, 2] [32, 15, 9, 4, 2] 1 = false ∧ partSame [32, 16, 8, 4, 2] [32, 15, 9, 4, 2] 4 = true ∧
    (parts [7, 16, 8, 4, 2] awake).get ⟨W.bsnPart0, 5, 0⟩ < 8 ∧ swCells awake = 0 ∧ awake.bsn.cap = [] ∧ cphInUse awake 0 128 = 0 ∧
    awake.cph.streams = [] ∧ (awake.set F.bsnStat_applying 1).on F.bsnStat_applying = true ∧ awake.on F.bsnStat_applying = false ∧
    NvTakes (writing awake) false (.record recBasin []) := by unfold NvTakes; decide
def cap0 : CapRec := ⟨0, 32, 9, 5⟩
def withBsn (f : Bsn → Bsn) (s : State) : State := { s with bsn := f s.bsn }
def bulk (cls : Nat) : Req := ⟨8, 0, 0, cls, 0, false⟩
theorem test_meets_capture : noNewWork (stopped 14 awake) 14 = true ∧ noNewWork awake 14 = false ∧ awake.bsn.capWait = [] ∧
    (let p := fun op => overlay (zeros 9) 0 [byte op]
     8 ≤ (p 1).length ∧ slice (p 1) 1 7 = zeros 7 ∧ (bulk 2).cls = 2 ∧ (bulk 1).cls = 1 ∧ (p 1).length - 8 = 1) ∧
    capUsed awake + capRecSize 1 ≤ capSize awake ∧ capSize (withBsn (fun b => { b with size := [1, 0, 1, 1, 1] }) awake) < capRecSize 1 ∧
    (let f := withBsn (fun b => { b with size := [1, 1, 1, 1, 1], cap := [{ cap0 with size := 0x100000 }] }) awake
     capRecSize 1 ≤ capSize f ∧ capSize f < capUsed f + capRecSize 1 ∧ capUsed f + capRecSize 1 ≤ capSize f + 0x100000 ∧ f.get F.bsnCtrl_capmode ≠ 1 ∧
       (f.set F.bsnCtrl_capmode 1).get F.bsnCtrl_capmode = 1 ∧ f.bsn.cap = [{ cap0 with size := 0x100000 }]) ∧
    (withBsn (fun b => { b with capWait := [(bulk 2, zeros 8)] }) awake).bsn.capWait ≠ [] := by decide
/-- The directory is loaded and Basin ready. -/
def dirOn : State := (awake.set F.bsnStat_ready 1).set F.dirStat_loading 0
def withDir (f : Dir → Dir) (s : State) : State := { s with dir := f s.dir }
def fobIndex : Nat := 4 * (dirBuckets fob0).1
/-- The fob is VALID at its first slot, and cached. -/
def dirFob : State := withDir (fun d => { d with entries := [(fobIndex, fob0 ++ [1#8] ++ zeros 55)], cache := [fobIndex] }) dirOn
def dirReq (op flags idx g : Nat) (e : List Byte) : List Byte := [byte op, byte flags] ++ leBytes 2 idx ++ [byte g, 0#8] ++ zeros 10 ++ e
def fobEnt : List Byte := fob0 ++ [1#8] ++ zeros 5 ++ [0xFF#8] ++ zeros 49
set_option maxRecDepth 20000 in
theorem test_meets_dir_requests : (∀ d ∈ [dirReq 1 0 0 0 (fob0 ++ zeros 56), dirReq 2 0 12287 0 (zeros 64), dirReq 3 0 0 0xFF (zeros 64),
      dirReq 4 0 0 0 fobEnt, dirReq 5 2 fobIndex 0 fobEnt, dirReq 6 0 fobIndex 0 (zeros 64)],
      d.length = 80 ∧ dirWaits dirFob d = false ∧ dirFieldsOk dirFob d = true) ∧
    dirWaits awake (dirReq 4 0 0 0 fobEnt) = true ∧ dirFieldsOk dirFob (dirReq 2 0 12288 0 (zeros 64)) = false ∧ (bulk 2).cls = 2 ∧
    dirFob.dir.cmdPend = false ∧ (withDir (fun d => { d with cmdPend := true }) dirOn).dir.cmdPend = true ∧
    dirSeek dirFob fob0 = some fobIndex ∧ dirSeek dirOn fob0 = none ∧ dirFob.dir.cache.contains fobIndex = true ∧
    entValid (dirEntry dirFob fobIndex) = true ∧ (dirEntry dirFob fobIndex).length = 64 ∧ entValid (dirEntry dirOn fobIndex) = false ∧
    srising dirFob.dir.entries = true ∧ leAt (dirReq 5 2 fobIndex 1 fobEnt) 5 1 = leAt (dirEntry dirFob fobIndex) 12 1 := by decide
set_option maxRecDepth 20000 in
theorem test_meets_dir_page : NvTakes (writing dirFob) false (.raw (0x60000 + 128 * 3071) (zeros 128)) ∧
    nvProtected (awake.set F.nvProt_bp 3) false (.raw 0x60000 (zeros 128)) = true ∧ sadState dirFob ≠ SS.released ∧
    NvTakes (writing dirFob) true (.raw (0x60000 + 128 * 3071) (zeros 128)) := by unfold NvTakes; decide
def full (b : Nat) : List (Nat × List Byte) := (List.range 4).map fun j => (4 * b + j, [0xFF#8] ++ zeros 7 ++ [1#8] ++ zeros 55)
set_option maxRecDepth 20000 in
theorem test_meets_dir_full : (∀ b ∈ [(dirBuckets fob0).1, (dirBuckets fob0).2], (((List.range 4).map (4 * b + ·)).filter fun j =>
      !entValid (dirEntry (withDir (fun d => { d with entries := full (dirBuckets fob0).1 ++ full (dirBuckets fob0).2 }) dirOn) j)) = []) ∧
    dirSeek (withDir (fun d => { d with entries := full (dirBuckets fob0).1 ++ full (dirBuckets fob0).2 }) dirOn) fob0 = none := by decide
theorem test_meets_dir_events : dirOn.on F.bsnStat_ready = true ∧ (withDir (fun d => { d with gathered := [3071] }) dirOn).dir.gathered.contains 3071 = true ∧
    dirOn.dir.gathered.contains 0 = false ∧ (awake.set F.nvProt_bp 3).get F.nvProt_bp = 3 ∧
    (dirOn.set F.dirStat_loading 1).on F.dirStat_loading = true ∧ (withDir (fun d => { d with loadRun := true }) dirOn).dir.loadRun = true ∧
    dirOn.dir.waits = [] ∧ 12287 < 12288 ∧ ([⟨none, dirReq 1 0 0 0 (fob0 ++ zeros 56)⟩] : List DirWait) ≠ [] := by decide

-- Host interface ---------------------------------------------------------------------------------------------------------------------------------------------

def withHst (f : Hst → Hst) (s : State) : State := { s with hst := f s.hst }
def driven : State := (awake.set F.idDrvstat_features 1).set F.idDrvstat_featuresOk 1
/-- Every feature chosen; submission ring `n` bound to completion ring 15, both enabled, P8 up. -/
def ringed (n : Nat) : State :=
  let s := ((driven.setW (W.idFeatDrv 0) 0x1FF#32).set (F.hrSqCfg_en n) 1).set (F.hrSqCfg_cq n) 15
  ((s.set (F.hrCqCfg_en 15) 1).set (F.swPCtrl_en 8) 1).set (F.swPStat_down 8) 0
theorem test_meets_setup : awake.on F.idDrvstat_features = false ∧ driven.on F.idDrvstat_features = true ∧
    (let s := awake.setW (W.idFeatDrv 0) 0x13F#32
     (∀ j, j < 32 → (s.getW (W.idFeatDrv 0)).getLsbD j = true → (featDev s).testBit j = true) ∧ (s.getW (W.idFeatDrv 0)).getLsbD 0 = true ∧
       ∀ j, j < 3 → s.getW (W.idFeatDrv (j + 1)) = 0#32) ∧ (awake.getW (W.idFeatDrv 0)).getLsbD 0 = false ∧
    driven.on F.idDrvstat_featuresOk = true ∧ portDown (ringed 0) 8 = false ∧ portDown (driven.set (F.swPStat_down 8) 1) 8 = true ∧
    (withHst (fun h => { h with pcieUp := true }) driven).hst.pcieUp = true ∧ (ringed 0).on (F.swPCtrl_en 8) = true ∧
    srcIsHost .mgmtHost = true ∧ srcIsHost .fw = false := by decide
theorem test_meets_rings : featOn (ringed 15) 0 = true ∧ featOn (ringed 15) 2 = true ∧ featOn (ringed 15) 3 = true ∧
    (ringed 15).on (F.hrSqCfg_en 15) = true ∧ (ringed 15).on (F.hrSqCfg_en 0) = false ∧ (0x8F1F#32 : W32).getLsbD 4 = true ∧
    (ringed 15).on (F.hrCqCfg_en (wBits 0x0F10#32 11 8)) = true ∧ (ringed 15).on (F.hrCqCfg_en (wBits 0x0010#32 11 8)) = false ∧
    (0#32 : W32).getLsbD 4 = false ∧ (ringed 15).on F.hrEqCfg_en = false ∧ ((ringed 15).set F.hrEqCfg_en 1).on F.hrEqCfg_en = true ∧
    (ringed 15).hst.fenced = [] := by decide
/-- Completion ring 15 holds two unreleased records from HEAD 0. -/
def unread : State := withHst (fun h => { h with cqRecs := h.cqRecs.set 15 [true, false], eqRecs := [true, false] }) ((ringed 0).set F.hrEqCfg_en 1)
theorem test_meets_doorbells : sqEntries (ringed 15) 15 - 1 < sqEntries (ringed 15) 15 ∧ sqEntries (ringed 15) 15 ≤ 4095 ∧
    (let size := cqEntries unread 15
     2 < size ∧ unread.get (F.hrCqStat_head 15) = 0 ∧ (unread.hst.cqRecs.getD 15 []).length = 2 ∧ (2 + size - 0) % size = 2 ∧
       2 < (3 + size - 0) % size ∧ size ≤ 4095) ∧ unread.hst.cplWait = [] ∧ unread.ev.held = [] ∧ 2 < eqEntries unread ∧
    unread.hst.eqRecs.length = 2 ∧ unread.get F.hrEqStat_head = 0 := by decide
/-- A descriptor: OPCODE, flags, the bytes 8 to 15, IN_LEN and the bytes from 48 on. -/
def desc0 (op flags typ dport len blk : Nat) : List Byte :=
  [byte op, byte flags, 0#8, 0#8] ++ zeros 4 ++ [byte typ, byte dport, 0#8, 0#8] ++ zeros 4 ++ zeros 8 ++ leBytes 4 len ++ zeros 20 ++ [byte blk] ++ zeros 15
def fetching : State := (ringed 15).set (F.hrSqStat_tail 15) 1
set_option maxRecDepth 4000 in
theorem test_meets_fetch : portDown fetching 8 = false ∧ fetchRing fetching = some 15 ∧ fetchRing (ringed 15) = none ∧
    fetching.hst.slots.findIdx? (fun y => !y.busy) = some 0 ∧ fetching.hst.fenced = [] ∧
    (withHst (fun h => { h with slots := h.slots.map fun y => { y with busy := true } }) fetching).hst.slots.all (fun y => y.busy) = true := by decide
set_option maxRecDepth 20000 in
theorem test_meets_descriptors : (∀ d ∈ [desc0 0 0 0 0 0 0, desc0 1 4 12 14 8 0, desc0 2 0 0 0 0 4, desc0 3 0 0 0 0 8, desc0 4 0 0 0 0 12, desc0 4 0 0 0 0 38,
      desc0 5 0 0 0 0 12, desc0 5 0 0 0 0 14, desc0 6 0 0 0 0 0, desc0 7 0 0 0 0 0, desc0 8 0 0 0 65519 0, desc0 9 0 0 0 0 0, desc0 0x10 0 0 0 0 0,
      desc0 0x17 0x10 0 0 16 0], descOk fetching d = true) ∧
    descOk (fetching.setW W.ivcFwext 0x80000001#32) (desc0 0x3F 4 0 0 0 0) = true ∧ descOk fetching (desc0 10 0 0 0 0 0) = false ∧
    descInput (desc0 8 0 0 0 16 0) none = none ∧ descInput (desc0 8 0x10 0 0 16 0) none ≠ none ∧ (D.flags (desc0 0 2 0 0 0 0)).testBit 1 = true ∧
    D.dev (desc0 4 0 0 0 0 12) = thisDev fetching ∧ isStopped (stopped 12 fetching) 12 = true ∧ isStopped fetching 12 = false ∧
    (swStartOp (stopped 12 fetching)).1 = true ∧ (swStartOp { stopped 12 fetching with bsn := { fetching.bsn with size := [1, 1, 1, 1, 1] } }).1 = false ∧
    fenceHeld (withHst (fun h => { h with slots := (h.slots.set 0 ⟨true, 1, 15, 0, false, 0, 0, 0, 0⟩).set 1 ⟨true, 1, 15, 0, false, 0, 0, 0, 0⟩ }) fetching) 0 = true := by
  decide
def mgmtReq : Req := ⟨8, 0, 0, 3, 0, false⟩
def mgmtOf (op ofs : Nat) : List Byte := [byte op, 0#8, 0#8, 0#8] ++ leBytes 4 ofs ++ zeros 8
theorem test_meets_mgmt : (∀ op ∈ [1, 2, 3, 4], mgmtOk mgmtReq 12 op (mgmtOf op 0) = true ∧ mgmtOk mgmtReq 12 op (mgmtOf 5 0) = false) ∧
    mgmtOfsOk 22 0x5800 = true ∧ mgmtOfsOk 22 0x5801 = false ∧ mgmtOk mgmtReq 26 1 (mgmtOf 1 W.rngData) = true ∧
    mgmtOfsOk 26 W.rngData = true ∧ mgmtOfsOk 26 W.rngRaw = true ∧ rngWord awake false 5 = none ∧ stoppable 38 = true ∧ stoppable 40 = false ∧
    (∀ b ∈ [26, 32, 38], mgmtOk mgmtReq b 4 (mgmtOf 4 0) = true ∧ stoppable b = true ∧ noNewWork (stopped b awake) b = true) ∧ noNewWork awake 12 = false := by
  decide
def stopping0 : State := { awake with stops := ⟨[20], [], [⟨20, some mgmtReq, none, 1000, 0, 0⟩]⟩ }
theorem test_meets_stops : stopping0.stops.waits[0]? = some ⟨20, some mgmtReq, none, 1000, 0, 0⟩ ∧ stopping0.stops.waits[1]? = none ∧
    isStopping stopping0 20 = true ∧ blkIdle stopping0 20 = true ∧ isStopping awake 20 = false := by decide
/-- Slot 63 is busy with generation 63 for ring 15, with room for 32 bytes. -/
def working : State := withHst (fun h => { h with slots := h.slots.set 63 ⟨true, 63, 15, 1, true, 7, 0x1000, 32, 0⟩ }) (ringed 15)
def cpl (typ tag : Nat) (p : List Byte) : Frame := mkFrame typ 1 8 15 0 tag p
theorem test_meets_records : (let f := cpl 0x85 (63 + 64 * 15 + 1024 * 63) ([0#8, 0#8, 0#8, 4#8] ++ zeros 60)
     slotAt working (f.optag % 64) = ⟨true, 63, 15, 1, true, 7, 0x1000, 32, 0⟩ ∧ f.optag / 1024 % 64 = 63 ∧ (leAt f.payload 3 1).testBit 2 = true ∧
       32 < f.payload.length) ∧ working.on (F.hrSqCfg_en 15) = true ∧ working.get (F.hrSqCfg_cq 15) = 15 ∧
    (working.hst.cqRecs.getD 15 []).length < cqEntries working 15 ∧ working.get (F.hrCqStat_tail 15) < cqEntries working 15 ∧ working.hst.cplWait = [] ∧
    (cpl 0x81 63 []).optag / 1024 % 64 = 0 ∧ (cpl 0 (63 + 1024 * 63) [0#8]).typ = 0 ∧ (cpl 1 0 []).typ < 0x80 ∧
    (slotAt working 62).busy = false ∧
    (let w := withHst (fun h => { h with cqRecs := h.cqRecs.set 15 (List.replicate 16 true) }) working
     cqEntries w 15 ≤ (w.hst.cqRecs.getD 15 []).length) := by decide
def qspi (s : State) : State := withHst (fun h => { h with qspi := true }) s
theorem test_meets_links : (withHst (fun h => { h with perstN := true }) (driven.set F.idDrvstat_driverOk 1)).on F.idDrvstat_driverOk = true ∧ awake.hst.perstN = true ∧
    awake.on F.idDrvstat_driverOk = false ∧ awake.hst.qspi = false ∧ (ringed 15).on (F.hrSqCfg_en 15) = true ∧ 15 < 16 ∧ 2 < 3 := by decide
theorem test_meets_qspi : (qspi awake).hst.qspi = true ∧ regOpen awake = true ∧ regOpen (awake.set F.pmStat_current 3) = false ∧
    (awake.set F.pmStat_current 3).on F.clkStat_cfgDone = true ∧ (awake.set F.clkStat_cfgDone 0).on F.clkStat_cfgDone = false ∧
    0x2FFFC + 4 ≤ 0x30000 ∧ 0x1007C % 8 = 4 ∧ 0x10078 % 8 = 0 ∧ 0x10100 % 4 = 0 ∧ (regReadFx .host (qspi awake) 0).2.hst.qspi = true := by decide

-- Cascade --------------------------------------------------------------------------------------------------------------------------------------------------------

def withPl (f : Pl → Pl) (s : State) : State := { s with pl := f s.pl }
/-- A member or head with both links up, on SYSPLL, with an ID in a ring of 64. -/
def ring (role : Nat) : State :=
  let s := ((awake.set F.plCtrl_role role).set F.clkStat_onPll 1).set F.swStat_parked 0
  let s := ((s.set (plUpF 0) 1).set (plUpF 1) 1).set F.plCtrl_ndev 64
  withPl (fun p => { p with hasId := true }) ((s.set F.plStat_rndev 64).set F.plStat_ringOk 1)
def linked (l : Nat) (f : PlLink → PlLink) (s : State) : State := withPl (fun p => { p with links := p.links.modify l f }) s
def cell (cls flags lseq n : Nat) : List Byte := [byte (cls + flags), byte lseq, 0#8, byte (n - 1)]
/-- A MGMT-free frame of type 0x40 for this device, whole in one cell. -/
def whole0 : List Byte := frameBytes (mkFrame 0x40 1 14 1 0 5 (zeros 8))
theorem test_meets_links_up : plUp (ring 1) 1 = true ∧ plRuns (ring 1) = true ∧ plUp ((ring 1).set (plUpF 1) 0) 1 = false ∧
    ((ring 1).set (plUpF 1) 0).pl.links.length = 2 ∧ plRole (ring 1) = 1 ∧ plRole (ring 2) = 2 ∧ (ring 1).pl.enumed = false ∧
    plInRing (ring 1) = true ∧ plInRing ((ring 1).set F.plStat_ringOk 0) = false ∧ plRuns awake = false ∧ (ring 1).on (F.swPCtrl_en 10) = true ∧
    (plLink (ring 1) 0).fwding = none ∧ plRole awake ≠ 1 := by decide
set_option maxRecDepth 20000 in
theorem test_meets_cells : (let c := plCellOf (cell 3 12 0 whole0.length) whole0
     c.lseq = (plLink (ring 1) 1).rxSeq ∧ c.first = true ∧ c.last = true ∧ c.data = whole0 ∧ plHeld (ring 1) 1 c.cls = false ∧ hdrOk c.data = true ∧
       (frameOf c.data).typ = 0x40 ∧ leAt c.data 7 1 % 64 = thisDev (ring 1)) ∧ (plCellOf (cell 0 4 0 8) (zeros 8)).last = false ∧
    (plCellOf (cell 0 4 1 8) (zeros 8)).lseq ≠ (plLink (ring 1) 1).rxSeq ∧ hdrOk (zeros 16) = false ∧
    (plLink (ring 1) 1).rx.length = 4 ∧ (plLink (ring 1) 1).rxOrg.length = 4 ∧ (plLink (ring 1) 1).freed.length = 4 ∧
    plHeld (linked 1 (fun k => { k with held := [plCellOf (cell 3 12 0 16) (zeros 16)] }) (ring 1)) 1 3 = true ∧ noNewWork (ring 1) 36 = false := by decide
theorem test_meets_through : (let d := zeros 7 ++ [63#8] ++ zeros 8
     let c := plCellOf (cell 2 4 0 16) d
     c.lseq = (plLink (ring 1) 0).rxSeq ∧ leAt d 7 1 % 64 ≠ thisDev (ring 1) ∧ plHeld (ring 1) 0 c.cls = false ∧ (plLink (ring 1) 1).fwding = none ∧
       (plLink (ring 1) 1).credit.getD c.cls 0 ≠ 0 ∧ (plLink (ring 1) 1).waiting = [] ∧ (plLink (ring 1) 1).open_.getD c.cls 0 = 0 ∧ c.first = true) := by decide
def sent2 : State := linked 0 (fun k => { k with unacked := [⟨0, true, true, 255, 0, [], false, [], 0⟩, ⟨0, true, true, 0, 0, [], false, [], 0⟩], replays := 3 }) (ring 1)
theorem test_meets_acks : (plLink sent2 0).unacked.findIdx? (fun y => y.lseq == 0) = some 1 ∧ (plLink sent2 0).unacked.findIdx? (fun y => y.lseq == 255) = some 0 ∧
    3 ≤ (plLink sent2 0).replays ∧ (plLink (ring 1) 0).replays < 3 ∧ (plLink (ring 1) 0).unacked = [] ∧ (plLink sent2 0).unacked ≠ [] ∧
    (∀ y ∈ (plLink sent2 0).unacked, y.lseq ≠ 254) ∧ (plLink (ring 1) 0).waiting = [] := by decide
set_option maxRecDepth 20000 in
theorem test_meets_ring_state : (withPl (fun p => { p with down := [63] }) (ring 1)).pl.down.contains 63 = true ∧ (ring 1).pl.down.contains 63 = false ∧
    ((ring 1).set F.plStat_enumerating 1).on F.plStat_enumerating = true ∧ (ring 1).on F.plStat_enumerating = false ∧ plNdevCfg (ring 1) = 64 ∧
    1 ≠ plNdevCfg (ring 1) ∧ (ring 2).pl.hasId = true ∧ 1 ≠ thisDev (ring 2) ∧ 63 < plNdev (ring 1) ∧ 63 ≠ thisDev (ring 1) ∧
    sget (withPl (fun p => { p with slots := [(9, ⟨1, 8, 0, 0, 0⟩)] }) (ring 1)).pl.slots 9 = some ⟨1, 8, 0, 0, 0⟩ ∧ (ring 1).pl.slotWait = [] ∧
    (plLink (ring 1) 0).held = [] := by decide

-- Core control, events, snapshots ---------------------------------------------------------------------------------------------------------------------------------

def queued12 (size head : Nat) : State :=
  let s := (core.set (F.swPStat_down 12) 0).set (F.ivcQCfg_en 15) 1
  ((s.set (F.ivcQCfg_size 15) size).set (F.ivcQHead_head 15) head).set (F.ivcQBase_base 15) 0x10000100
set_option maxRecDepth 20000 in
theorem test_meets_queue_frames : portDown (queued12 0 0) 12 = false ∧ portDown (core.set (F.swPStat_down 12) 1) 12 = true ∧ (queued12 0 0).iv.qWait = [] ∧
    (frameBytes (mkFrame 0x40 1 12 15 0 0 (zeros 8))).length = 24 ∧ ivcRing (queued12 0 0) 15 = 256 ∧ qUsed (queued12 0 0) 15 + 32 < 256 ∧
    qUsed (queued12 0 32) 15 = 224 ∧ 256 ≤ qUsed (queued12 0 32) 15 + 32 ∧ inSram (ivcBase (queued12 0 0) 15) 256 = true ∧
    (queued12 0 0).on (F.ivcQCfg_en 14) = false ∧ (mkFrame 0x40 1 12 15 0 0 []).mc = false ∧ 0x80 ≤ (mkFrame 0x90 1 12 15 0 0 []).typ := by decide
set_option maxRecDepth 20000 in
theorem test_meets_oversize : 256 < (frameBytes (mkFrame 0x40 1 12 15 0 0 (zeros 241))).length := by
  decide
theorem test_meets_transmit : (withIv core fun c => { c with tx := some (15, zeros 16) }).iv.tx.isSome = true ∧ core.iv.tx = none ∧ 15 < 16 ∧
    inSram ((core.set F.ivcTxaddr_addr 0x10000004).get F.ivcTxaddr_addr / 4 * 4) 65535 = true ∧ inSram (core.get F.ivcTxaddr_addr / 4 * 4) 16 = false := by decide
def guarded (core_ : W32) : State := withIv (core.set F.ivcWdt_timeout 1) fun c => { c with core := core_ }
theorem test_meets_watchdog : wdtRuns (guarded 0#32) = true ∧ wdtRuns (core.set F.ivcWdt_timeout 0) = false ∧ csBit (guarded (csPut 0#32 Cs.nmi true)).iv.core Cs.nmi = true ∧
    csBit (guarded 0#32).iv.core Cs.nmi = false ∧ (guarded 0#32).iv.slot = none ∧ (guarded 0#32).iv.rep_ = none ∧ (guarded 0#32).iv.rs.length ≤ 62 ∧
    (inSlot none true).iv.slot.isSome = true ∧ core.on F.ivcCtrl_run = true ∧ (awake.set F.ivcCtrl_run 0).on F.ivcCtrl_run = false := by decide
def due : State := (withIv core fun c => { c with core := csPut c.core Cs.ie true }).set (F.evSrc_level 127) 7
theorem test_meets_interrupts : irqDue core = none ∧ core.iv.load = none ∧ core.iv.warn = false := by decide
set_option maxRecDepth 20000 in
theorem test_meets_interrupt_entry : irqDue ((due.set (evField 127 1) 1).set (F.evSrc_fmask 127) 2) = some (127, 7) := by decide
theorem test_meets_events : NvTakes (writing awake) false (.record recEvents []) ∧ (awake.set F.evTmr_period1 1).get F.evTmr_period1 ≠ 0 ∧
    awake.get F.evTmr_period1 = 0 ∧ evRuns awake = true ∧ evRuns (awake.set F.pmStat_current 3) = false ∧
    ((awake.set F.snpStat_armed 1).set F.clkStat_onPll 1).on F.snpStat_armed = true ∧ (awake.set F.clkStat_onPll 1).on F.clkStat_onPll = true ∧
    awake.on F.clkStat_onPll = false ∧ (awake.set F.snpCtrl_inEn 1).on F.snpCtrl_inEn = true ∧ awake.on F.snpCtrl_inEn = false := by unfold NvTakes; decide
def granted : State := { awake with ev := { awake.ev with grants := [⟨0, 0, 40, false⟩, ⟨47, 2, 20, false⟩] } }
theorem test_meets_budget : granted.ev.grants = [⟨0, 0, 40, false⟩] ++ [⟨47, 2, 20, false⟩] ∧ min 1200 (wBits 40#32 10 0) = 40 ∧
    40 < unitsOf (granted.ev.grants.filter fun x => !x.revoked) ∧ unitsOf ([⟨0, 0, 40, false⟩] : List Grant) ≤ 40 ∧
    unitsOf (granted.ev.grants.filter fun x => !x.revoked) ≤ min 1200 (wBits 2047#32 10 0) := by decide

-- Power, clocks ----------------------------------------------------------------------------------------------------------------------------------------------------

def withPm (f : Pm → Pm) (s : State) : State := { s with pm := f s.pm }
def mode (n : Nat) (s : State) : State := s.set F.pmStat_current n
def onPll (s : State) : State := ((s.set F.clkStat_onPll 1).set F.clkStat_pllLock 1).set F.clkCtrl_syspllEn 1
theorem test_meets_targets : 3 % 8 < 4 ∧ 6 < 7 % 8 ∧ sadBars (gate 2) = true ∧ sadBars awake = false ∧ (onPll awake).on F.clkStat_onPll = true ∧
    awake.pm.entry = 0 ∧ (withPm (fun p => { p with entry := 3 }) awake).pm.entry = 3 ∧ awake.get F.pmStat_current = 6 ∧
    (mode 4 awake).get F.pmStat_current = 4 ∧ awake.on F.clkStat_onPll = false := by decide
def tampered (s : State) : State := (s.set F.secTampcfg_en 8).set F.secTamp_level 8
theorem test_meets_sleep_entry : IvPlain core true ∧ (core.set F.pmMode_target 6).get F.pmMode_target ≠ 4 ∧ sadBars core = false ∧ tamperActive core = false ∧
    tamperActive (tampered core) = true ∧ sadBars ((core.set F.secStat_lc 2).set F.sadStat_state 2) = true := by
  exact ⟨plain_of_plainB _ _ (by decide), by decide⟩
theorem test_meets_drain : pmDrained awake = true ∧ pmDrained (running (run 0 1 true)) = false ∧
    (withPm (fun p => { p with entry := 1, mode := 3 }) awake).pm.mode = 3 ∧ awake.on F.ledStat_ckptBusy = false ∧ awake.get F.nvProt_bp ≠ 3 ∧
    (awake.set F.pmMode_target 6).get F.pmMode_target ≠ 4 := by decide
def entering (m : Nat) (w : Option Nat) : State := withPm (fun p => { p with entry := 2, mode := m, wake := w }) awake
theorem test_meets_entry_end : (entering 1 none).pm.entry = 2 ∧ (entering 3 none).pm.ckpt = false ∧ (entering 2 none).pm.wake = none ∧ plUp (entering 1 none) 0 = false ∧
    plUp (entering 1 none) 1 = false ∧ (entering 1 none).sw.frames = [] ∧ (entering 3 (some 18)).pm.wake = some 18 ∧ 18 < 19 := by decide
def wakeful (m : Nat) : State := mode m (awake.setW W.pmWakeen 0x7FFFF#32)
theorem test_meets_wakes : wakeOn (wakeful 3) 7 = true ∧ (wakeModes 7).contains 3 = true ∧ (wakeModes 10).contains 1 = true ∧ (wakeModes 9).contains 4 = true ∧
    wakeOn awake 1 = false ∧ wakeOn (withPm (fun p => { p with holdSeen := true }) (wakeful 1)) 1 = true ∧ (wakeModes 1).contains 1 = true ∧
    (wakeModes 18).contains 3 = false ∧ wakeOn (wakeful 3) 18 = true ∧ ((wakeful 4).set F.pmMode_target 4).get F.pmMode_target = 4 ∧
    (wakeful 1).pm.entry = 0 := by decide
/-- LISTEN with channel 47 in the sniff mask and its reference taken. -/
def listening : State :=
  withPm (fun p => { p with sniffRef := [(47, 100)] }) ((((wakeful 4).set F.pmMode_target 4).set F.pmLsnmaskHi_mask 0x8000).set F.pmLsncfg_rfEn 1)
theorem test_meets_sniff : sniffing listening = true ∧ sniffing awake = false ∧ bitOf ((listening.getW W.pmLsnmaskLo).toNat + 2 ^ 32 * listening.get F.pmLsnmaskHi_mask) 47 = true ∧
    coilChDown listening 47 = false ∧ coilGrpDown listening 47 = false ∧ sget listening.pm.sniffRef 47 = some 100 ∧ sget (wakeful 4).pm.sniffRef 47 = none ∧
    (listening.set F.pmLsncfg_thr 10).get F.pmLsncfg_thr * 100 < 100 * (max 100 111 - min 100 111) ∧
    100 * (max 100 110 - min 100 110) ≤ (listening.set F.pmLsncfg_thr 10).get F.pmLsncfg_thr * 100 ∧ wakeOn listening 9 = true ∧
    listening.on F.pmLsncfg_rfEn = true := by decide
theorem test_meets_holdup : (awake.set F.pmCtrl_pfailEn 1).on F.pmCtrl_pfailEn = true ∧ (awake.set F.pmCtrl_pfailEn 0).on F.pmCtrl_pfailEn = false ∧
    (mode 7 awake).get F.pmStat_current = 7 ∧ awake.nv.cur = none ∧ awake.nv.keeper = false ∧ (mode 7 (writing awake)).nv.cur.isSome = true ∧
    pmVbo awake + 5 ≤ 85 ∧ 40 < pmVbo awake + 5 ∧ (awake.set F.pmStat_keepDirty 1).on F.pmStat_keepDirty = true ∧ (awake.set F.nvProt_bp 3).get F.nvProt_bp = 3 := by
  decide
theorem test_meets_hold_alarm : chargerOn awake = true ∧ chargerOn (mode 2 awake) = false ∧ (awake.set F.pmCtrl_captestEn 1).on F.pmCtrl_captestEn = true ∧
    (awake.set F.pmCtrl_captestEn 0).on F.pmCtrl_captestEn = false ∧ 9 < (awake.set F.pmHoldcap_cmin 10).get F.pmHoldcap_cmin ∧ evRuns awake = true ∧
    (1#32 : W32).toNat ≤ ({ awake with rtc := 1000000 } : State).rtcSec ∧ awake.rtcSec < (1#32 : W32).toNat ∧ awake.ev.alarmSet = false ∧
    ({ awake with ev := { awake.ev with alarmSet := true } } : State).ev.alarmSet = true ∧ awake.get F.pmAlarm_time ≤ awake.rtcSec := by decide
def crystal (s : State) : State := s.set F.clkStat_xtalOk 1
theorem test_meets_clocks : (crystal awake).on F.clkStat_xtalOk = true ∧ (awake.set F.clkStat_xtalOk 0).on F.clkStat_xtalOk = false ∧ awake.on F.clkCtrl_syspllEn = false ∧
    (onPll awake).on F.clkCtrl_syspllEn = true ∧ (onPll awake).on F.clkStat_pllLock = true ∧ awake.on F.clkStat_pllLock = false ∧
    (awake.set F.bsnStat_ready 1).on F.bsnStat_ready = true ∧ (awake.set F.bsnStat_ready 0).on F.bsnStat_ready = false ∧ awake.dir.waits = [] ∧
    (awake.set F.pmMode_target 5).get F.pmMode_target = 5 ∧ (awake.set F.clkStat_rtcXtal 1).on F.clkStat_rtcXtal = true ∧
    (awake.set F.clkStat_rtcXtal 0).on F.clkStat_rtcXtal = false ∧ (awake.set F.clkCtrl_rtcLfrc 0).on F.clkCtrl_rtcLfrc = false ∧
    (awake.set F.clkStat_rtcXtal 1).on F.clkStat_rtcXtal = !(awake.set F.clkCtrl_rtcLfrc 0).on F.clkCtrl_rtcLfrc := by decide
def late : State := { awake.set F.pmStat_current 4 with pm := { awake.pm with clkDue := true } }
theorem test_meets_late_crystal : chargerOn late = true ∧ late.pm.clkDue = true ∧ late.get F.pmStat_current = 4 ∧ late.pm.entry = 0 ∧
    late.get F.pmMode_target ≠ 4 ∧ (late.set F.pmMode_target 4).get F.pmMode_target = 4 := by decide
theorem test_meets_resets : sadBars awake = false ∧ sadBars (gate 2) = true ∧ State.reset.on F.clkStat_cfgDone = false ∧ State.reset.get F.pmStat_current = 4 ∧
    State.reset.get F.clkRstcause_cause ≤ 2 ∧ 2 < (State.reset.set F.clkRstcause_cause 7).get F.clkRstcause_cause ∧ awake.nv.cur = none ∧ 7 ≤ 7 := by decide

-- Security, debug port ------------------------------------------------------------------------------------------------------------------------------------------------

def withSec (f : Sec → Sec) (s : State) : State := { s with sec := f s.sec }
def secReq : Req := ⟨8, 0, 0, 1, 0, false⟩
def lc (n : Nat) (s : State) : State := s.set F.secStat_lc n
def withDomain (s : State) : State := { s with cph := { s.cph with domain := some (zeros 32) } }
def wait0 (p : List Byte) : SecWait := ⟨some secReq, p⟩
def cmd4 (op : Nat) : List Byte := [byte op, 0#8, 0#8, 0#8]
set_option maxRecDepth 20000 in
theorem test_meets_security_forms : (∀ p ∈ [cmd4 0x10, cmd4 0x12, cmd4 0x17, cmd4 0x11 ++ zeros 4 ++ leBytes 4 1 ++ zeros 36,
      cmd4 0x11 ++ [1#8, 0#8, 0#8, 0#8] ++ leBytes 4 2 ++ zeros 44, cmd4 0x13 ++ zeros 60, cmd4 0x14 ++ leBytes 4 4, cmd4 0x15 ++ zeros 4100, cmd4 0x16 ++ zeros 108],
      secFormOk (wait0 p) = true) ∧ secFormOk (wait0 (zeros 4)) = false ∧ awake.sec.queue = [] ∧ awake.sec.busy = false ∧
    (withSec (fun x => { x with busy := true }) awake).sec.busy = true := by decide
theorem test_meets_lifecycle : (lc 0 (awake.set F.secStat_rootOk 1)).on F.secStat_rootOk = true ∧ (awake.set F.secStat_rootOk 0).on F.secStat_rootOk = false ∧
    (withDomain (lc 1 awake)).cph.domain.isSome = true ∧ (withSec (fun x => { x with regLock := true }) (withDomain (lc 1 awake))).sec.regLock = true ∧
    (lc 3 (awake.set F.secStat_newkey 1)).on F.secStat_newkey = true ∧ (lc 3 awake).get F.secStat_lc = 3 ∧ NvTakes (writing awake) true (.record recSec []) ∧
    secKeyOk (lc 1 awake) (cmd4 0x11 ++ zeros 4 ++ leBytes 4 1 ++ zeros 36) = true ∧ secKeyOk awake (cmd4 0x11 ++ zeros 44) = false ∧
    secKeyOk (withDomain (lc 3 awake)) (cmd4 0x11 ++ [1#8, 0#8, 0#8, 0#8] ++ leBytes 4 2 ++ zeros 44) = true := by unfold NvTakes; decide
theorem test_meets_key_stores : NvTakes (writing (lc 1 awake)) false (.record recDomain []) ∧ nvProtected (awake.set F.nvProt_bp 3) false (.record recDomain []) = true ∧
    secOps (cmd4 0x11) = 1 ∧ secOps (cmd4 0x16) = 2 ∧ secNvBusy awake (cmd4 0x17) = false ∧ secNvBusy (lastPage) (cmd4 0x17) = false ∧
    secNvBusy ({ awake with nv := { awake.nv with cur := some ⟨false, 0xC0000 / 128, [], none, false, none⟩ } } : State) (cmd4 0x17) = true := by unfold NvTakes; decide
/-- The first 32 bytes of an authorisation with sequence number 1. -/
def auth32 (s : State) (op level : Nat) : List Byte := [1#8, byte op, byte level, 0#8] ++ devIdentity s ++ leBytes 8 1 ++ zeros 4
def signed (s : State) (op level : Nat) : List Byte :=
  auth32 s op level ++ cmac (kdf (zeros 32) (kdfLabel "LSSR" "LCAU" (devIdentity s) (s.get F.secEpoch_epoch)) 256) (auth32 s op level)
theorem test_meets_auth_form : (∀ o ∈ [(1, 0), (2, 0), (3, 0), (4, 2)], authFormOk awake (auth32 awake o.1 o.2 ++ zeros 16) = true) ∧
    authFormOk awake (zeros 48) = false ∧ (auth32 awake 4 2).length = 32 ∧ get64 awake W.secAuthseqLo W.secAuthseqHi < leAt (auth32 awake 4 2) 20 8 ∧
    leAt (auth32 awake 4 2) 20 8 ≤ get64 (awake.setW W.secAuthseqLo 1#32) W.secAuthseqLo W.secAuthseqHi ∧
    (awake.set F.nvProt_bp 3).get F.nvProt_bp = 3 ∧ authOpOk (lc 2 awake) (auth32 awake 1 0) = true ∧ authOpOk awake (auth32 awake 1 0) = false ∧
    authOpOk (lc 3 awake) (auth32 awake 2 0) = true ∧ authOpOk awake (auth32 awake 3 0) = true ∧ authOpOk awake (auth32 awake 4 2) = true := by decide
theorem test_meets_auth_mac : ((lessorKey (withDomain awake) "LCAU").map fun k => cmac k ((signed awake 4 2).take 32)) = some (slice (signed awake 4 2) 32 16) ∧
    (signed awake 4 2).length = 48 := by
  have hk : (kdf (zeros 32) (kdfLabel "LSSR" "LCAU" (devIdentity awake) (awake.get F.secEpoch_epoch)) 256).length = 32 :=
    length_kdf _ _ _ (.inr rfl)
  have h := length_cmac _ (auth32 awake 4 2) (.inr hk)
  have h32 : (auth32 awake 4 2).length = 32 := by decide
  refine ⟨?_, by rw [signed, List.length_append, h, h32]⟩
  have h1 : (signed awake 4 2).take 32 = auth32 awake 4 2 := by rw [signed, ← h32, List.take_left]
  have h2 := slice_append_tail (auth32 awake 4 2) _ 16 h
  rw [h32] at h2
  rw [h1, signed, h2]; rfl
set_option maxRecDepth 20000 in
theorem test_meets_install : fwBarred ((awake.set F.nvProt_bp 0).set F.ivcCtrl_run 0) 262016 = none ∧ fwBarred (awake.set F.nvProt_bp 1) 4 = some St.nvProtected ∧
    fwBarred ((awake.set F.nvProt_bp 0).set F.ivcCtrl_run 0) 262020 = some St.cfgReject ∧ NvTakes (writing awake) false (.raw 0xC0000 (zeros 128)) ∧
    fwWriteOk awake (cmd4 0x15 ++ zeros 4 ++ zeros 128) = some St.cfgReject ∧
    (let i := withSec (fun x => { x with fwLen := 256 }) (awake.set F.secFw_state 1)
     fwWriteOk i (cmd4 0x15 ++ leBytes 4 128 ++ zeros 128) = none ∧ fwWriteOk i (cmd4 0x15 ++ leBytes 4 256 ++ zeros 128) = some St.badDescriptor) ∧
    NvTakes (writing awake) false (.raw (0xC0080 + 128) (zeros 128)) := by unfold NvTakes; decide
/-- A header for an image of four zero bytes, signed by the integrator's key. -/
def header0 : List Byte :=
  [0x49#8, 0x56#8, 0x46#8, 0x32#8] ++ leBytes 4 4 ++ leBytes 4 0x300C0080 ++ leBytes 4 2 ++ [0#8, 2#8] ++ zeros 14
    ++ beBytes 32 0x2969ac044e7d023b72f2c4dae50364ab94668bc3ead6e803a017738b0ced289 ++ beBytes 32 0x2969ac044e7d023b72f2c4dae50364ab94668bc3ead6e803a017738b0ced289
def key0 : List Byte :=
  beBytes 32 0xe36cd1202aaca78e40bb4298f39a45078309f9c6fe1b5d3a750bf6bcd27ed076 ++ beBytes 32 0x129627eadefe668614a81631d0b2931923ac7fecc5c21047a38bbf68176dec26
def integrated : State := withSec (fun x => { x with intkey := key0 }) ((awake.set F.secFw_state 1).set F.secStat_rootOk 1)
set_option maxRecDepth 40000 in
theorem test_meets_firmware_signature : fwCheck integrated header0 = none := by decide +kernel
set_option maxRecDepth 40000 in
theorem test_meets_firmware_refusals : fwCheck integrated (zeros 96) = some St.badDescriptor ∧ integrated.get F.secFw_state = 1 ∧
    awake.get F.secFw_state ≠ 1 ∧ integrated.on F.secStat_rootOk = true := by decide
theorem test_meets_tamper : bitOf ((tampered awake).get F.secTampcfg_en) 3 = true ∧ bitOf (awake.get F.secTampcfg_en) 3 = false ∧ evRuns awake = true ∧
    awake.pm.entry = 0 ∧ bitOf ({ awake with vio := { awake.vio with tamp := 8 } } : State).vio.tamp 3 = true ∧ bitOf awake.vio.tamp 3 = false ∧
    awake.get F.secStat_lc ≤ 1 ∧ tamperActive awake = false ∧ 1 < (lc 2 awake).get F.secStat_lc := by decide
theorem test_meets_debug : regOpen awake = true ∧ regOpen State.reset = false ∧ dbgLevel awake = 2 ∧ dbgLevel (lc 2 awake) = 0 ∧
    dbgLevel ((lc 2 awake).set F.secStat_dbgLevel 1) = 1 ∧ nvPageBusy (writing awake) (0x30000000 - 0x30000000) 4 = true ∧ nvPageBusy awake 0 4 = false ∧
    dbgRng (0x40000000 + W.rngData) = some false ∧ dbgRng (0x40000000 + W.rngRaw) = some true ∧ dbgRng 0x40000000 = none ∧ rngWord awake false 4 = none ∧
    rngWord (awake.set F.rngStat_fatal 1) true 4 = some (zeros 4, awake.set F.rngStat_fatal 1) ∧
    dbgReaches 0x200005FC = false ∧ dbgReaches 0x1007FFFC = true ∧ 0x1007FFFC % 4 = 0 ∧ ivRegion 0x40000000 4 = .window ∧ dbgReaches 0x40000000 = true ∧
    ivRegion 0x00000000 4 = .rom ∧ ivRegion 0x30000000 4 = .nv ∧ (withIv core fun c => { c with halted := true }).iv.halted = true ∧
    ivcRunning core = true ∧ awake.iv.halted = false ∧ awake.get F.secStat_lc = 0 ∧ (lc 2 awake).get F.secStat_lc ≠ 0 := by decide

-- Vehicle and meter ----------------------------------------------------------------------------------------------------------------------------------------------------

def bus (n : Nat) (s : State) : State :=
  let s := ((s.set (F.vioCanCfg_en n) 1).set F.clkStat_pllLock 1).set (F.vioCanCfg_veh n) 1
  (((s.set (F.vioCanSid_id n) 0x123).set (F.vioCanRid_id n) 0x1FFFFFFF).set (F.vioCanRid_ide n) 1).set (F.vioCanStat_state n) 1
theorem test_meets_can : canRuns (bus 1 awake) 1 = true ∧ canRuns awake 1 = false ∧ (bus 1 awake).get (F.vioCanStat_state 1) ≠ 3 ∧
    (bus 1 awake).on (F.vioCanCfg_veh 1) = true ∧ (bus 1 awake).get (F.vioCanSid_id 1) = 0x123 ∧ (bus 1 awake).on (F.vioCanSid_ide 1) = false ∧
    (bus 1 awake).get (F.vioCanRid_id 1) = 0x1FFFFFFF ∧ (bus 1 awake).on (F.vioCanRid_ide 1) = true ∧ canDataOk false ([1#8, 3#8] ++ zeros 14) = true ∧
    canDataOk true ([2#8] ++ zeros 15) = true ∧ canDataOk true (zeros 16) = false ∧ ((bus 1 awake).set (F.vioCanStat_state 1) 3).get (F.vioCanStat_state 1) = 3 ∧
    awake.cph.domain = none := by decide
/-- A status frame with counter 1 under its MAC. -/
theorem test_meets_can_mac : ∃ key data, canKey (withDomain (bus 1 awake)) = some key ∧ data.length = 16 ∧ canMac key 0x123 data = slice data 8 8 ∧
    (bus 1 awake).get F.vioStsctr_ctr < beNat (slice data 4 4) ∧ canDataOk false data = true := by
  obtain ⟨key, hkey, hlen⟩ : ∃ key, canKey (withDomain (bus 1 awake)) = some key ∧ key.length = 16 := ⟨_, rfl, length_kdf _ _ _ (.inr rfl)⟩
  have h : (canMac key 0x123 ([1#8, 0#8, 0#8, 0#8] ++ beBytes 4 1)).length = 8 := by
    rw [canMac, List.length_take, length_cmac _ _ (.inl hlen)]; rfl
  have hc : canMac key 0x123 (([1#8, 0#8, 0#8, 0#8] ++ beBytes 4 1) ++ canMac key 0x123 ([1#8, 0#8, 0#8, 0#8] ++ beBytes 4 1)) =
      canMac key 0x123 ([1#8, 0#8, 0#8, 0#8] ++ beBytes 4 1) := by
    conv => lhs; rw [canMac]
    conv => rhs; rw [canMac]
    rw [List.take_left' (by decide)]; rfl
  refine ⟨key, ([1#8, 0#8, 0#8, 0#8] ++ beBytes 4 1) ++ canMac key 0x123 ([1#8, 0#8, 0#8, 0#8] ++ beBytes 4 1), hkey,
    by rw [List.length_append, h]; rfl, ?_, ?_, rfl⟩
  · rw [hc]; exact (slice_append_tail ([1#8, 0#8, 0#8, 0#8] ++ beBytes 4 1) _ 8 h).symm
  · show (bus 1 awake).get F.vioStsctr_ctr < 1
    decide
theorem test_meets_meter : awake.get F.pmStat_current ≠ 0 ∧ (awake.vio.meters.getD 0 ⟨false, 0, 0, false, false⟩).active = false ∧
    (({ awake with vio := { awake.vio with meters := [⟨true, 0, 0, false, false⟩, ⟨true, 0, 0, true, false⟩] } } : State).vio.meters.getD 0 ⟨false, 0, 0, false, false⟩).qual = false := by
  decide

-- The whole machine ------------------------------------------------------------------------------------------------------------------------------------------------------

theorem test_meets_registers : regSpec 0xAFFC = none ∧ regOpen awake = true ∧ regOpen State.reset = false ∧ 0x3002 % 4 ≠ 0 ∧
    (regSpec (W.evSrc 127)).isSome = true ∧ (regSpec W.pmWakeen).isSome = true ∧ (regSpec (W.swPQ01 15)).isSome = true ∧ (regSpec W.vioMtrcfg).isSome = true ∧
    (regSpec (W.vioCanCfg 1)).isSome = true ∧ (regSpec (W.vioCanEvf 1)).isSome = true ∧ (regSpec W.secTampcfg).isSome = true ∧
    (∃ r, regSpec (W.swPQ01 15) = some r ∧ ∃ f ∈ r.flds, f.acc = .so) ∧ isStopped awake (offBlk (W.swPQ01 15)) = false := by
  refine ⟨by decide, by decide, by decide, by decide, by decide, by decide, by decide, by decide, by decide, by decide, by decide, ⟨_, rfl, ?_⟩, by decide⟩
  decide
theorem test_reset_canonical : MemoriesCanonical State.reset := by unfold MemoriesCanonical; decide
theorem test_front_step : step { awake with pending := [.pmPerstNRise] } = exec .pmPerstNRise { awake with pending := [] } := rfl

-- A token that verifies -------------------------------------------------------------------------------------------------------------------------------------------------

theorem xorBytes_twice (a e : List Byte) (h : a.length = e.length) : xorBytes (xorBytes a e) e = a := by
  apply List.ext_getElem
  · simp [xorBytes, h]
  · intro i h1 h2; simp [xorBytes, BitVec.xor_assoc]
theorem blocks16_two (x y : List Byte) (hx : x.length = 16) (hy : y.length = 16) : blocks16 (x ++ y) = [x, y] := by
  simp only [blocks16, List.length_append, hx, hy, show (16 + 16 + 15) / 16 = 2 by rfl, List.range_succ, List.range_zero, List.nil_append,
    List.map_cons, List.map_nil, List.cons_append, Nat.mul_zero, Nat.mul_one, List.drop_zero,
    List.drop_left' hx, List.take_left' hx, List.take_of_length_le (Nat.le_of_eq hy)]
/-- Two blocks under the counter mode, and back. -/
theorem gcmCrypt_twice (key iv x y : List Byte) (hk : key.length = 32) (hx : x.length = 16) (hy : y.length = 16) :
    (gcmCrypt (roundKeys key) iv 0 (x ++ y)).length = 32 ∧ gcmCrypt (roundKeys key) iv 0 (gcmCrypt (roundKeys key) iv 0 (x ++ y)) = x ++ y := by
  have hs : ∀ a b : List Byte, a.length = 16 → b.length = 16 → gcmCrypt (roundKeys key) iv 0 (a ++ b) =
      xorBytes a (aesEncRk (roundKeys key) (ctrAdd 32 (iv ++ beBytes 4 (2 + 0)) 0)) ++
        xorBytes b (aesEncRk (roundKeys key) (ctrAdd 32 (iv ++ beBytes 4 (2 + 0)) 1)) := by
    intro a b ha hb; rw [gcmCrypt, aesCtr, blocks16_two a b ha hb]; simp
  have he : ∀ c, (aesEncRk (roundKeys key) c).length = 16 := fun c => length_aesEncRk key c (.inr hk)
  have hl : ∀ a c : List Byte, a.length = 16 → (xorBytes a (aesEncRk (roundKeys key) c)).length = 16 := fun a c ha => by
    rw [length_xorBytes, ha, he]; rfl
  refine ⟨by rw [hs x y hx hy, List.length_append, hl _ _ hx, hl _ _ hy], ?_⟩
  rw [hs x y hx hy, hs _ _ (hl _ _ hx) (hl _ _ hy), xorBytes_twice _ _ (by rw [hx, he]), xorBytes_twice _ _ (by rw [hy, he])]
/-- A token with a header and a body of 32 bytes, sealed under a key. -/
theorem token_sealed (k hdr x y : List Byte) (hk : k.length = 32) (hh : hdr.length = 56) (hx : x.length = 16) (hy : y.length = 16) :
    ∃ token : List Byte, token.length = 104 ∧ token.take 56 = hdr ∧ (∀ o n, o + n ≤ 56 → slice token o n = slice hdr o n) ∧
      gcmOpen k (slice hdr 44 12) (token.take 56) (slice token 56 (token.length - 72)) (token.drop (token.length - 16)) = some (x ++ y) := by
  obtain ⟨hcl, hcc⟩ := gcmCrypt_twice k (slice hdr 44 12) x y hk hx hy
  generalize gcmCrypt (roundKeys k) (slice hdr 44 12) 0 (x ++ y) = ct at hcl hcc
  have ho := gcmOpen_gcmTag k (slice hdr 44 12) hdr ct
  have htl : (gcmTag (roundKeys k) (slice hdr 44 12) (ghash (ghKey (roundKeys k)) (ghash (ghKey (roundKeys k)) 0#128 hdr) ct) hdr.length ct.length).length = 16 := by
    rw [gcmTag, length_xorBytes, length_beBytes, length_aesEncRk _ _ (.inr hk)]; rfl
  generalize gcmTag (roundKeys k) (slice hdr 44 12) (ghash (ghKey (roundKeys k)) (ghash (ghKey (roundKeys k)) 0#128 hdr) ct) hdr.length ct.length = tag at htl ho
  have hlen : (hdr ++ ct ++ tag).length = 104 := by simp [hh, hcl, htl]
  have htake : (hdr ++ ct ++ tag).take 56 = hdr := by rw [List.append_assoc, ← hh, List.take_left]
  refine ⟨hdr ++ ct ++ tag, hlen, htake, fun o n h => by rw [List.append_assoc, slice_append_left _ _ _ _ (by rw [hh]; exact h)], ?_⟩
  rw [hlen, htake, show (hdr ++ ct ++ tag).drop (104 - 16) = tag from List.drop_left' (by simp [hh, hcl]),
    slice_append_left _ _ _ _ (by simp [hh, hcl]), ← hh, slice_append_tail _ _ _ hcl, ho, hcc]
/-- The lease is open, the device provisioned, a domain key installed. -/
def leased : State := withDomain (lc 1 (awake.set F.ledStat_open 1))
def tokHdr : List Byte := [1#8, 2#8] ++ leBytes 2 104 ++ devIdentity leased ++ leBytes 4 7 ++ leBytes 8 1 ++ zeros 4 ++ zeros 4 ++ leBytes 4 9 ++ zeros 12
def terms0 : List Byte := leBytes 4 3 ++ leBytes 4 9 ++ leBytes 2 10000 ++ [1#8] ++ zeros 5
theorem test_meets_token : ∃ k token, lessorKey leased "LTOK" = some k ∧ tokCheck leased token = none ∧
    gcmOpen k (slice token 44 12) (token.take 56) (slice token 56 (token.length - 72)) (token.drop (token.length - 16)) = some (terms0 ++ zeros 16) ∧
    get64 leased W.ledSeqLo W.ledSeqHi < leAt token 24 8 ∧ leAt token 36 4 ≤ leased.rtcSec ∧ leased.rtcSec ≤ leAt token 40 4 ∧ leAt token 1 1 = 2 ∧
    tokBodyOk (ledCatchUp leased) 2 (terms0 ++ zeros 16) = true ∧ leased.on F.ledStat_rtcUnsure = false ∧ leased.get F.nvProt_bp ≠ 3 := by
  obtain ⟨k, hk, hkl⟩ : ∃ k, lessorKey leased "LTOK" = some k ∧ k.length = 32 := ⟨_, rfl, length_kdf _ _ _ (.inr rfl)⟩
  obtain ⟨token, hlen, htake, hs, ho⟩ := token_sealed k tokHdr terms0 (zeros 16) hkl (by decide) (by decide) (by decide)
  have hle : ∀ o n, o + n ≤ 56 → leAt token o n = leAt tokHdr o n := fun o n h => congrArg leNat (hs o n h)
  refine ⟨k, token, hk, ?_, by rw [hs 44 12 (by decide)]; exact ho, ?_, ?_, ?_, ?_, by decide, by decide, by decide⟩
  · unfold tokCheck
    rw [hle 1 1 (by decide), hle 0 1 (by decide), hle 2 2 (by decide), hs 4 16 (by decide), hle 20 4 (by decide), hlen]; decide
  all_goals rw [hle _ _ (by decide)]; decide
/-- The same for a CREDIT_ADD, whose body is one block. -/
def creditHdr : List Byte := [1#8, 1#8] ++ leBytes 2 88 ++ devIdentity leased ++ leBytes 4 (leased.get F.ledLease_leaseId) ++ leBytes 8 1 ++ zeros 4 ++ zeros 4 ++ leBytes 4 9 ++ zeros 12
theorem blocks16_one (b : List Byte) (h : b.length = 16) : blocks16 b = [b] := by
  simp [blocks16, h, List.range_succ, List.take_of_length_le (Nat.le_of_eq h)]
theorem test_meets_credit : ∃ k ct tag body, lessorKey leased "LTOK" = some k ∧ tokCheck leased (creditHdr ++ ct ++ tag) = none ∧ ct.length = 16 ∧
    gcmOpen k (slice creditHdr 44 12) creditHdr ct tag = some body ∧ tokBodyOk (ledCatchUp leased) 1 body = true := by
  obtain ⟨k, hk, hkl⟩ : ∃ k, lessorKey leased "LTOK" = some k ∧ k.length = 32 := ⟨_, rfl, length_kdf _ _ _ (.inr rfl)⟩
  have hs : ∀ c : List Byte, c.length = 16 → gcmCrypt (roundKeys k) (slice creditHdr 44 12) 0 c =
      xorBytes c (aesEncRk (roundKeys k) (ctrAdd 32 (slice creditHdr 44 12 ++ beBytes 4 (2 + 0)) 0)) := by
    intro c hc; rw [gcmCrypt, aesCtr, blocks16_one c hc]; simp
  have he := length_aesEncRk k (ctrAdd 32 (slice creditHdr 44 12 ++ beBytes 4 (2 + 0)) 0) (.inr hkl)
  have hcl : (gcmCrypt (roundKeys k) (slice creditHdr 44 12) 0 (zeros 16)).length = 16 := by rw [hs _ rfl, length_xorBytes, he]; rfl
  have hcc : gcmCrypt (roundKeys k) (slice creditHdr 44 12) 0 (gcmCrypt (roundKeys k) (slice creditHdr 44 12) 0 (zeros 16)) = zeros 16 := by
    rw [hs _ hcl, hs _ rfl, xorBytes_twice _ _ (by rw [he]; rfl)]
  generalize gcmCrypt (roundKeys k) (slice creditHdr 44 12) 0 (zeros 16) = ct at hcl hcc
  have ho := gcmOpen_gcmTag k (slice creditHdr 44 12) creditHdr ct
  have htl : (gcmTag (roundKeys k) (slice creditHdr 44 12) (ghash (ghKey (roundKeys k)) (ghash (ghKey (roundKeys k)) 0#128 creditHdr) ct) creditHdr.length ct.length).length = 16 := by
    rw [gcmTag, length_xorBytes, length_beBytes, length_aesEncRk _ _ (.inr hkl)]; rfl
  generalize gcmTag (roundKeys k) (slice creditHdr 44 12) (ghash (ghKey (roundKeys k)) (ghash (ghKey (roundKeys k)) 0#128 creditHdr) ct) creditHdr.length ct.length = tag at htl ho
  have hh : creditHdr.length = 56 := by decide
  have hsl : ∀ o n, o + n ≤ 56 → slice (creditHdr ++ ct ++ tag) o n = slice creditHdr o n := fun o n h => by
    rw [List.append_assoc, slice_append_left _ _ _ _ (by rw [hh]; exact h)]
  have hle : ∀ o n, o + n ≤ 56 → leAt (creditHdr ++ ct ++ tag) o n = leAt creditHdr o n := fun o n h => congrArg leNat (hsl o n h)
  refine ⟨k, ct, tag, zeros 16, hk, ?_, hcl, by rw [ho, hcc], by decide⟩
  unfold tokCheck
  rw [hle 1 1 (by decide), hle 0 1 (by decide), hle 2 2 (by decide), hsl 4 16 (by decide), hle 20 4 (by decide),
    show (creditHdr ++ ct ++ tag).length = 88 by simp [hh, hcl, htl]]
  decide

end Sys2Proof.Tests
end

section
/-! SUPPORT. Registers around the switch and the events: a completion leaves the set-up registers of the blocks from Basin to the random
number unit alone, and raising a flag sets it. -/

namespace Sys2Proof.Machine

/-- `t` holds the words of `s` in the registers from 0x3800 to 0x6FFF (Table 25.1). -/
def BlockRegsKept (s t : State) : Prop := ∀ o, 0x3800 ≤ o → o < 0x7000 → t.getW o = s.getW o

theorem BlockRegsKept.refl (s : State) : BlockRegsKept s s := fun _ _ _ => rfl

theorem BlockRegsKept.trans {s t u : State} (h : BlockRegsKept s t) (h' : BlockRegsKept t u) : BlockRegsKept s u :=
  fun o lo hi => (h' o lo hi).trans (h o lo hi)

theorem BlockRegsKept.get {s t : State} (h : BlockRegsKept s t) (f : Fd) (lo : 0x3800 ≤ f.off) (hi : f.off < 0x7000) :
    t.get f = s.get f := by
  simp [State.get, h f.off lo hi]

theorem set_blockRegsKept (s : State) (f : Fd) (v : Nat) (h : f.off < 0x3800 ∨ 0x7000 ≤ f.off) : BlockRegsKept s (s.set f v) :=
  fun o _ _ => getW_set_ne s f v o (by omega)

theorem raise_blockRegsKept (s : State) (e b : Nat) (h : (evField e b).off < 0x3800) : BlockRegsKept s (raise s e b) :=
  fun o _ _ => raise_getW s e b o (by omega) (by omega) (by simp only [W.hrEqStat]; omega) (by simp only [W.nvCnt]; omega)

theorem pmNote_blockRegsKept (s : State) (w : Nat) : BlockRegsKept s (pmNote s w) :=
  (set_blockRegsKept _ _ _ (by decide)).trans (raise_blockRegsKept _ _ _ (by decide))

theorem pmListen_blockRegsKept (s : State) : BlockRegsKept s (pmListen s) := by
  unfold pmListen
  split <;> exact .refl s

theorem pmUpd_blockRegsKept (s : State) (f : Pm → Pm) : BlockRegsKept s (pmUpd s f) := fun _ _ _ => rfl

theorem pmAbandon_blockRegsKept (s : State) (ap : Nat) (w : Option Nat) : BlockRegsKept s (pmAbandon s ap w) := by
  unfold pmAbandon
  exact (((set_blockRegsKept _ _ _ (by decide)).trans (set_blockRegsKept _ _ _ (by decide))).trans (pmUpd_blockRegsKept _ _)).trans
    ((raise_blockRegsKept _ _ _ (by decide)).trans (pmListen_blockRegsKept _))

theorem pmEntryWake_blockRegsKept (s : State) (w : Nat) : BlockRegsKept s (pmEntryWake s w) := by
  unfold pmEntryWake
  split
  · exact (pmNote_blockRegsKept _ _).trans (pmAbandon_blockRegsKept _ _ _)
  · split
    · exact pmNote_blockRegsKept _ _
    · exact .refl s

theorem swQueue_blockRegsKept (s : State) (f : Frame) (o p k : Nat) (g : Option Nat) : BlockRegsKept s (swQueue s f o p k g) := by
  unfold swQueue
  dsimp only
  split
  · refine BlockRegsKept.trans ?_ (pmEntryWake_blockRegsKept _ _)
    exact fun _ _ _ => rfl
  · exact fun _ _ _ => rfl

theorem swComplete_blockRegsKept (s : State) (r : Req) (a b c d e f g : Nat) : BlockRegsKept s (swComplete s r a b c d e f g) := by
  have orphan : BlockRegsKept s (s.bump F.swCnt1_orphan 1) := set_blockRegsKept _ _ _ (by decide)
  unfold swComplete
  dsimp only
  split
  · split
    · exact orphan
    · exact swQueue_blockRegsKept _ _ _ _ _ _
  · split
    · split
      · exact orphan
      · exact swQueue_blockRegsKept _ _ _ _ _ _
    · exact orphan

theorem mcSettle_blockRegsKept (s : State) (id : Nat) : BlockRegsKept s (mcSettle s id) := by
  unfold mcSettle
  split
  · exact .refl s
  · split
    · exact .refl s
    · dsimp only
      split
      · exact .refl s
      · exact swComplete_blockRegsKept _ _ _ _ _ _ _ _ _

theorem off_evField_port (p : Nat) (h : p < 16) : (evField (54 + p) 7).off < 0x3800 := by
  unfold evField
  rw [if_neg (by omega), if_neg (by omega), if_pos (by omega), if_neg (by omega), if_neg (by omega)]
  dsimp only [W.swPEvf]
  omega

theorem mcFail_blockRegsKept (s : State) (id p st : Nat) (h : p < 16) : BlockRegsKept s (mcFail s id p st) :=
  ((set_blockRegsKept s (F.swPCnt1_mcfail p) _ (.inl (by dsimp only; omega))).trans
    (raise_blockRegsKept _ _ _ (off_evField_port p h))).trans (mcSettle_blockRegsKept (mcUpdate _ id _) id)

theorem foldl_blockRegsKept {α : Type} (f : State → α → State) (l : List α) (hf : ∀ a ∈ l, ∀ s, BlockRegsKept s (f s a)) (s : State) :
    BlockRegsKept s (l.foldl f s) := by
  induction l generalizing s with
  | nil => exact .refl s
  | cons a l ih => exact (hf a (by simp) s).trans (ih (fun b hb => hf b (by simp [hb])) _)

theorem swMulticast_blockRegsKept (s : State) (f : Frame) (o : Nat) : BlockRegsKept s (swMulticast s f o) := by
  unfold swMulticast
  dsimp only
  refine BlockRegsKept.trans ?_ (mcSettle_blockRegsKept _ _)
  refine BlockRegsKept.trans (t := { s with sw := { s.sw with nextId := s.sw.nextId + 1, mcs := _ } }) (fun _ _ _ => rfl)
    (foldl_blockRegsKept _ _ (fun p hp s => ?_) _)
  have hp16 : p < 16 := List.mem_range.mp (List.mem_filter.mp hp).1
  split
  · exact mcFail_blockRegsKept _ _ _ _ hp16
  · exact swQueue_blockRegsKept _ _ _ _ _ _

theorem swIngress_blockRegsKept (s : State) (p k o : Nat) (ok : Bool) (f : Frame) : BlockRegsKept s (swIngress s p k o ok f) := by
  have fails : ∀ (r : Req) (c : Prop) [Decidable c] (t a b d : Nat),
      BlockRegsKept s (if 0x80 ≤ t then (if c then s.bump F.swCnt0_baddesc 1 else s)
        else swComplete (if c then s.bump F.swCnt0_baddesc 1 else s) r t a b d 0 0 0) := by
    intro r c _ t a b d
    have counted : BlockRegsKept s (if c then s.bump F.swCnt0_baddesc 1 else s) := by
      split
      · exact set_blockRegsKept _ _ _ (by decide)
      · exact .refl s
    split
    · exact counted
    · exact counted.trans (swComplete_blockRegsKept _ _ _ _ _ _ _ _ _)
  unfold swIngress
  dsimp only
  split
  · exact fails _ _ _ _ _ _
  · split
    · split
      · exact (fails _ _ _ _ _ _).trans (set_blockRegsKept _ _ _ (by decide))
      · split
        · exact fails _ _ _ _ _ _
        · exact swQueue_blockRegsKept _ _ _ _ _ _
    · split
      · split
        · exact swMulticast_blockRegsKept _ _ _
        · exact fails _ _ _ _ _ _
      · split
        · exact fails _ _ _ _ _ _
        · split
          · split
            · exact .refl s
            · exact fails _ _ _ _ _ _
          · exact swQueue_blockRegsKept _ _ _ _ _ _

/-- A completion leaves the registers of the blocks from Basin to the random number unit alone. -/
theorem complete_blockRegsKept (s : State) (p k : Nat) (r : Req) (t : Nat) (d : List Byte) : BlockRegsKept s (complete s p k r t d) := by
  unfold complete
  split
  · exact .refl s
  · exact swIngress_blockRegsKept _ _ _ _ _ _

/-- The words after an occurrence are those with the flag set, but for the event ring's status and the refused-write counter. -/
theorem raise0_getW_eq_set (s : State) (e b o : Nat) (h2 : o ≠ W.hrEqStat) (h3 : o ≠ W.nvCnt) :
    (raise0 s e b).getW o = (s.set (evField e b) 1).getW o := by
  unfold raise0
  dsimp only
  split
  · rfl
  · rw [evLog_getW _ _ _ _ _ h3, evPost_getW _ _ _ _ h2]
    rfl

/-- Raising a flag sets it (R681). -/
theorem raise_flag (s : State) (e b : Nat) (h1 : (evField e b).lo ≤ (evField e b).hi) (h32 : (evField e b).hi < 32)
    (h : (evField e b).off < 0x1800 ∨ 0x2000 ≤ (evField e b).off) (h2 : (evField e b).off ≠ W.hrEqStat)
    (h3 : (evField e b).off ≠ W.nvCnt) : (raise s e b).get (evField e b) = 1 := by
  have set_one : (s.set (evField e b) 1).get (evField e b) = 1 := by
    rw [get_set_same _ _ _ h1 h32]
    exact Nat.mod_eq_of_lt (Nat.one_lt_two_pow (Nat.succ_ne_zero _))
  have words : (raise s e b).getW (evField e b).off = (s.set (evField e b) 1).getW (evField e b).off := by
    unfold raise
    dsimp only
    split
    · rw [snapTrigger_getW _ _ _ h h2 h3, raise0_getW_eq_set _ _ _ _ h2 h3]
    · exact raise0_getW_eq_set _ _ _ _ h2 h3
  rw [State.get, words]
  exact set_one

end Sys2Proof.Machine
end

section
/-! SUPPORT. The partitions of Basin: what APPLY asks, and which bytes its end keeps (R453, R454). -/

namespace Sys2Proof.Machine

/-- The conditions of R453 one by one. -/
theorem applyOk_iff (s : State) : applyOk s = true ↔
    (partSizes s).foldl (· + ·) 0 = 62 ∧ 8 ≤ (partSizes s).getD 0 0 ∧ 1 ≤ (partSizes s).getD 3 0 ∧ 1 ≤ (partSizes s).getD 4 0 ∧
    isStopped s 12 = true ∧ (partSame s.bsn.size (partSizes s) 0 = true ∨ swCells s = 0) ∧
    (partSame s.bsn.size (partSizes s) 1 = true ∨ s.bsn.cap = []) ∧
    (partSame s.bsn.size (partSizes s) 4 = true ∨
      (isStopped s 24 = true ∧ cphInUse s 0 128 = 0 ∧ cphInUse s 128 256 = 0 ∧ cphSpill s = 0 ∧ s.cph.streams = [])) := by
  simp [applyOk, List.range_succ, and_assoc]

theorem baseOf_succ (sizes : List Nat) (n : Nat) : baseOf sizes (n + 1) = baseOf sizes n + sizes.getD n 0 := by
  cases h : sizes[n]? <;> simp [baseOf, List.take_add_one, h]

/-- A partition ends where a later one begins, or before. -/
theorem baseOf_add_le (sizes : List Nat) {n k : Nat} (h : n < k) : baseOf sizes n + sizes.getD n 0 ≤ baseOf sizes k := by
  induction h with
  | refl => exact Nat.le_of_eq (baseOf_succ sizes n).symm
  | step _ ih => exact Nat.le_trans ih (baseOf_succ sizes _ ▸ Nat.le_add_right _ _)

/-- The byte at `a` lies in partition `n`. -/
def InPart (sizes : List Nat) (n a : Nat) : Prop :=
  0x100000 * baseOf sizes n ≤ a ∧ a < 0x100000 * (baseOf sizes n + sizes.getD n 0)

theorem inPart_unique (sizes : List Nat) {n k a : Nat} (hn : InPart sizes n a) (hk : InPart sizes k a) : n = k := by
  obtain ⟨hn1, hn2⟩ := hn
  obtain ⟨hk1, hk2⟩ := hk
  rcases Nat.lt_trichotomy n k with h | h | h
  · have := baseOf_add_le sizes h; omega
  · exact h
  · have := baseOf_add_le sizes h; omega

theorem sget_filter_key {α : Type} (p : Nat → Bool) (l : List (Nat × α)) (a : Nat) :
    sget (l.filter fun c => p c.1) a = if p a then sget l a else none := by
  induction l with
  | nil => simp [sget]
  | cons c l ih =>
    obtain ⟨k, v⟩ := c
    by_cases hk : k = a
    · subst hk
      cases hp : p k <;> simp [List.filter, sget, hp, ih]
    · cases hp : p k <;> simp [List.filter, sget, hp, hk, ih]

/-- The end of APPLY keeps the bytes of a partition that stays as it was and none of one that moves or changes its size. -/
theorem memGet_keepSame (old new : List Nat) (m : List Host.Cell) (k a : Nat) (hk : k < 5) (ha : InPart new k a) :
    memGet (keepSame old new m) a = if partSame old new k then memGet m a else 0#8 := by
  have kept : ((List.range 5).any fun n => partSame old new n && decide (0x100000 * baseOf new n ≤ a)
      && decide (a < 0x100000 * (baseOf new n + new.getD n 0))) = partSame old new k := by
    rw [Bool.eq_iff_iff, List.any_eq_true]
    simp only [Bool.and_eq_true, decide_eq_true_eq, List.mem_range]
    constructor
    · rintro ⟨n, -, ⟨same, lo⟩, hi⟩
      exact inPart_unique new ⟨lo, hi⟩ ha ▸ same
    · exact fun same => ⟨k, hk, ⟨same, ha.1⟩, ha.2⟩
  unfold memGet keepSame
  rw [sget_filter_key (fun x => (List.range 5).any fun n => partSame old new n && decide (0x100000 * baseOf new n ≤ x)
      && decide (x < 0x100000 * (baseOf new n + new.getD n 0))), kept]
  split <;> rfl

/-- APPLY where R453 refuses it. -/
theorem bsnApply_rejected (s : State) (src : Src) (h : applyOk s = false) : Runs (.bsnApply src) s (fun t =>
    t.bsn = s.bsn ∧ t.get F.hrRej_offset = W.bsnCmd ∧ t.get (evField 105 0) = 1) := by
  refine ⟨cfgReject s src W.bsnCmd, by simp [exec, execBsnApply, bsnApplyOp, h], (cfgReject_evOnly _ _ _).bsn, ?_,
    raise_flag _ _ _ (by decide) (by decide) (by decide) (by decide) (by decide)⟩
  unfold cfgReject
  dsimp only
  rw [raise_get _ _ _ _ (by decide) (by decide) (by decide) (by decide), get_set_ne _ _ _ _ (by decide) (by decide) (by decide) (by decide),
    get_set_same _ _ _ (by decide) (by decide)]
  rfl

theorem bsnApply_accepted (s : State) (src : Src) (h : applyOk s = true) : Runs (.bsnApply src) s (fun t =>
    t = ({ s with bsn := { s.bsn with applyTo := partSizes s } }.set F.bsnStat_applying 1).set F.bsnStat_applied 0) :=
  ⟨_, rfl, by simp only [bsnApplyOp, h, if_true]; rfl⟩

/-- What the end of APPLY leaves (R454). -/
theorem applyEnd_leaves (s : State) : (applyEnd s).bsn.size = s.bsn.applyTo ∧ (applyEnd s).on F.bsnStat_applying = false ∧
    (applyEnd s).on F.bsnStat_applied = true ∧ (applyEnd s).get (evField 61 9) = 1 ∧ (applyEnd s).bsn.cap = s.bsn.cap ∧
    (applyEnd s).bsn.mem = keepSame s.bsn.size s.bsn.applyTo s.bsn.mem := by
  unfold applyEnd
  refine ⟨by simp, ?_, ?_, raise_flag _ _ _ (by decide) (by decide) (by decide) (by decide) (by decide), by simp, by simp⟩
  · rw [State.on, raise_get _ _ _ _ (by decide) (by decide) (by decide) (by decide),
      get_set_ne _ _ _ _ (by decide) (by decide) (by decide) (by decide), get_set_same _ _ _ (by decide) (by decide)]
    rfl
  · rw [State.on, raise_get _ _ _ _ (by decide) (by decide) (by decide) (by decide), get_set_same _ _ _ (by decide) (by decide)]
    rfl

/-- A request that the NV store takes behind a page write in progress joins the ordinary queue. -/
theorem nvSubmit_ord (s : State) (k : NvKind) (own : Bool) (src : Nat) (cont : NvCont) (h : NvTakes s own k) :
    (nvSubmit s k false own src cont).2 = withOrd s [nvJob k false own src cont] := by
  obtain ⟨open_, awake, busy⟩ := h
  simp [nvSubmit, open_, awake, nvKick, busy, withOrd, nvJob]

end Sys2Proof.Machine
end

section
/-! SUPPORT. The capture pool (R459 to R463): its ring of bytes, and what one request does by its operation. -/

namespace Sys2Proof.Machine

-- The ring of bytes -----------------------------------------------------------------------------------------------------------------

/-- Bytes written round a ring of `size` bytes at `base`, from place `pos`. -/
def ringWrite (base size : Nat) : List Host.Cell → Nat → List Byte → List Host.Cell
  | m, _, [] => m
  | m, pos, b :: bs => ringWrite base size (memPut m (base + pos % size) b) (pos + 1) bs

theorem capPut_eq (s : State) (pos : Nat) (bs : List Byte) :
    capPut s pos bs = { s with bsn := { s.bsn with mem := ringWrite (capBase s) (capSize s) s.bsn.mem pos bs } } := by
  induction bs generalizing s pos with
  | nil => rfl
  | cons b bs ih => rw [capPut, ih]; rfl

theorem memGet_ringWrite_of_ne (base size : Nat) (m : List Host.Cell) (pos a : Nat) (bs : List Byte)
    (h : ∀ i, i < bs.length → a ≠ base + (pos + i) % size) : memGet (ringWrite base size m pos bs) a = memGet m a := by
  induction bs generalizing m pos with
  | nil => rfl
  | cons b bs ih =>
    have later : ∀ i, i < bs.length → a ≠ base + (pos + 1 + i) % size := fun i hi => by
      rw [Nat.add_assoc, Nat.add_comm 1 i]
      exact h (i + 1) (Nat.succ_lt_succ hi)
    rw [ringWrite, ih _ _ later, memGet_memPut_ne m (base + pos % size) a b (h 0 (Nat.succ_pos _))]

/-- Places of the ring less than a turn apart differ. -/
theorem ringPlace_ne (base size pos i : Nat) (h : i + 1 < size) : base + pos % size ≠ base + (pos + 1 + i) % size := by
  intro e
  have turn : (pos + 1 + i - pos) % size = 0 := Nat.sub_mod_eq_zero_of_mod_eq (Nat.add_left_cancel e).symm
  rw [Nat.add_assoc, Nat.add_sub_cancel_left, Nat.mod_eq_of_lt (by omega)] at turn
  omega

/-- Bytes that fit in the ring stand where they were written. -/
theorem memGet_ringWrite (base size : Nat) (m : List Host.Cell) (pos i : Nat) (bs : List Byte) (fits : bs.length ≤ size)
    (h : i < bs.length) : memGet (ringWrite base size m pos bs) (base + (pos + i) % size) = bs.getD i 0#8 := by
  induction bs generalizing m pos i with
  | nil => exact absurd h (Nat.not_lt_zero _)
  | cons b bs ih =>
    rw [List.length_cons] at fits h
    cases i with
    | zero =>
      rw [ringWrite, Nat.add_zero pos, memGet_ringWrite_of_ne base size _ (pos + 1) _ bs (fun j hj => ringPlace_ne base size pos j (by omega))]
      exact memGet_memPut_same _ _ _
    | succ i =>
      rw [ringWrite, show pos + (i + 1) = pos + 1 + i by omega, ih _ _ _ (by omega) (by omega), List.getD_cons_succ]

theorem le_capRecSize (n : Nat) : 16 + n ≤ capRecSize n := by
  unfold capRecSize
  omega

-- One request ------------------------------------------------------------------------------------------------------------------------

theorem foldl_add_start (l : List Nat) (x : Nat) : l.foldl (· + ·) x = x + l.foldl (· + ·) 0 := by
  simpa using (List.foldl_assoc (op := ((· + ·) : Nat → Nat → Nat)) (l := l) (a₁ := x) (a₂ := 0))

theorem capUsed_cons (s : State) (r : CapRec) (rs : List CapRec) :
    capUsed { s with bsn := { s.bsn with cap := r :: rs } } = r.size + capUsed { s with bsn := { s.bsn with cap := rs } } := by
  simp only [capUsed, List.map_cons, List.foldl_cons, Nat.zero_add]
  exact foldl_add_start _ _

/-- The form of a request of one of the three operations (R459). -/
theorem capFormOk_iff (req : Req) (p : List Byte) (op : Nat) (hop : op ∈ [1, 2, 3]) (h : leAt p 0 1 = op) :
    capFormOk req p = true ↔ 8 ≤ p.length ∧ slice p 1 7 = zeros 7 ∧ req.cls = if op = 1 then 2 else 1 := by
  simp only [List.mem_cons, List.not_mem_nil, or_false] at hop
  rcases hop with rfl | rfl | rfl <;> simp [capFormOk, h, and_assoc]

theorem capTry_bad (s : State) (req : Req) (p : List Byte) (h : capFormOk req p = false) :
    capTry s req p = (true, capAnswerNone s req St.badDescriptor (leAt p 0 1)) := by
  simp [capTry, h]

theorem capTry_tooLong (s : State) (req : Req) (p : List Byte) (hop : leAt p 0 1 = 1) (h : capSize s < capRecSize (p.length - 8)) :
    capTry s req p = (true, capAnswerNone s req St.badDescriptor 1) := by
  simp [capTry, h, hop]

section
variable (s : State) (req : Req) (p : List Byte) (form : capFormOk req p = true)
include form

theorem capTry_fits (hop : leAt p 0 1 = 1) (h : capUsed s + capRecSize (p.length - 8) ≤ capSize s) :
    capTry s req p = (true, capStore s req p) := by
  have : ¬ capSize s < capRecSize (p.length - 8) := by omega
  simp [capTry, form, hop, this, h]

theorem capTry_waits (hop : leAt p 0 1 = 1) (room : capRecSize (p.length - 8) ≤ capSize s)
    (full : capSize s < capUsed s + capRecSize (p.length - 8)) (stop : s.get F.bsnCtrl_capmode ≠ 1) : capTry s req p = (false, s) := by
  simp [capTry, form, hop, Nat.not_lt.mpr room, Nat.not_le.mpr full, stop]

theorem capTry_ring (hop : leAt p 0 1 = 1) (room : capRecSize (p.length - 8) ≤ capSize s)
    (full : capSize s < capUsed s + capRecSize (p.length - 8)) (ring : s.get F.bsnCtrl_capmode = 1) :
    capTry s req p = (true, capStore (capMakeRoom s.bsn.cap.length (capRecSize (p.length - 8)) s) req p) := by
  simp [capTry, form, hop, Nat.not_lt.mpr room, Nat.not_le.mpr full, ring]

theorem capTry_read_nil (hop : leAt p 0 1 = 2) (h : s.bsn.cap = []) : capTry s req p = (true, capAnswerNone s req St.ok 2) := by
  simp [capTry, form, hop, h]

theorem capTry_read_cons (r : CapRec) (rs : List CapRec) (hop : leAt p 0 1 = 2) (h : s.bsn.cap = r :: rs) :
    capTry s req p = (true, capAnswer { s with bsn := { s.bsn with cap := rs } } req St.ok 2 r.rseq r.len (capGet s r.pos (16 + r.len))) := by
  simp [capTry, form, hop, h, bsnUpd]

theorem capTry_flush (hop : leAt p 0 1 = 3) :
    capTry s req p = (true, capAnswerNone { s with bsn := { s.bsn with cap := [] } } req St.ok 3) := by
  simp [capTry, form, hop, bsnUpd]

end

/-- RING mode frees the oldest record alone where that makes the room (R462). -/
theorem capMakeRoom_one (s : State) (need : Nat) (r : CapRec) (rs : List CapRec) (h : s.bsn.cap = r :: rs)
    (full : capSize s < capUsed s + need) (after : capUsed s + need ≤ capSize s + r.size) :
    capMakeRoom s.bsn.cap.length need s =
      { s.bump F.bsnCapstat_over 1 with bsn := { s.bsn with cap := rs } } := by
  have used : capUsed s = r.size + capUsed { s with bsn := { s.bsn with cap := rs } } := by
    rw [← capUsed_cons, ← h]
  have next : ∀ n, capMakeRoom n need { s.bump F.bsnCapstat_over 1 with bsn := { s.bsn with cap := rs } } =
      { s.bump F.bsnCapstat_over 1 with bsn := { s.bsn with cap := rs } } := by
    intro n
    cases n with
    | zero => rfl
    | succ n =>
      rw [capMakeRoom, if_pos]
      change capUsed { s with bsn := { s.bsn with cap := rs } } + need ≤ capSize s
      omega
  rw [h, List.length_cons, capMakeRoom, if_neg (Nat.not_le.mpr full)]
  simpa [bsnUpd, h] using next rs.length

-- A request that arrives ---------------------------------------------------------------------------------------------------------------

theorem capRetry_nil (s : State) (h : s.bsn.capWait = []) : capRetry s = s := by
  unfold capRetry
  split
  · rfl
  · have same : bsnUpd s (fun b => { b with capWait := [] }) = s := by rw [bsnUpd, ← h]
    simp only [h, List.foldl_nil, same]

theorem capArrive_stopped (s : State) (op : Nat) (req : Req) (p : List Byte) (h : noNewWork s 14 = true) :
    capArrive s op req p = { s with bsn := { s.bsn with capWait := s.bsn.capWait ++ [(req, p)] } } := by
  simp [capArrive, h, bsnUpd]

section
variable (s : State) (op : Nat) (req : Req) (p : List Byte) (runs : noNewWork s 14 = false)
include runs

theorem capArrive_wrongOp (h : leAt p 0 1 ≠ op) : capArrive s op req p = capAnswerNone s req St.badDescriptor (leAt p 0 1) := by
  simp [capArrive, runs, h]

theorem capArrive_behind (hop : leAt p 0 1 = 1) (h : s.bsn.capWait ≠ []) :
    capArrive s 1 req p = { s with bsn := { s.bsn with capWait := s.bsn.capWait ++ [(req, p)] } } := by
  simp [capArrive, runs, hop, h, bsnUpd]

theorem capArrive_done (hop : leAt p 0 1 = op) (none_ : s.bsn.capWait = []) (u : State) (h : capTry s req p = (true, u))
    (hu : u.bsn.capWait = []) : capArrive s op req p = u := by
  simp [capArrive, runs, hop, none_, h, capRetry_nil u hu]

theorem capArrive_full (hop : leAt p 0 1 = 1) (none_ : s.bsn.capWait = []) (h : capTry s req p = (false, s)) :
    capArrive s 1 req p = raise { s with bsn := { s.bsn with capWait := [(req, p)] } } 61 10 := by
  simp [capArrive, runs, hop, none_, h, bsnUpd]

end

theorem capAnswerNone_bsn (s : State) (req : Req) (status op : Nat) : (capAnswerNone s req status op).bsn = s.bsn :=
  complete_bsn _ _ _ _ _ _

end Sys2Proof.Machine
end

section
/-! PROOF. O45: the commands of Basin and of the capture pool. -/

namespace Sys2Proof.Machine

/-- The answer to a capture request that tells of no record, RSEQ `k`. -/
def capTellsNone (s : State) (req : Req) (status op k : Nat) : State :=
  complete { s with free := s.free + 1 } 7 0 req 0x0B ([byte status, byte op, 0#8, 0#8] ++ leBytes 4 k ++ leBytes 4 0 ++ [])

theorem capAnswerNone_eq (s : State) (req : Req) (status op : Nat) : ∃ k, capAnswerNone s req status op = capTellsNone s req status op k :=
  ⟨_, rfl⟩

/-- A request that is carried out at once and answered without a record. -/
theorem capArrive_tellsNone (s u : State) (op : Nat) (req : Req) (p : List Byte) (status o : Nat) (runs : noNewWork s 14 = false)
    (hop : leAt p 0 1 = op) (none_ : s.bsn.capWait = []) (h : capTry s req p = (true, capAnswerNone u req status o))
    (hu : u.bsn.capWait = []) : ∃ k, capArrive s op req p = capTellsNone u req status o k := by
  rw [capArrive_done s op req p runs hop none_ _ h (by rw [capAnswerNone_bsn]; exact hu)]
  exact capAnswerNone_eq _ _ _ _

/-- The bytes of a STORE's record (R460). -/
def capRecord (s : State) (req : Req) (p : List Byte) : List Byte :=
  leBytes 4 s.bsn.rseq ++ leBytes 4 s.rtcSec ++ [byte req.port, byte req.sub, byte req.dev, 0#8] ++ leBytes 4 (p.length - 8) ++ p.drop 8

theorem length_capRecord (s : State) (req : Req) (p : List Byte) : (capRecord s req p).length = 16 + (p.length - 8) := by
  simp [capRecord, length_leBytes]
  omega

/-- The pool after a record of `n` data bytes went to the ring: its bytes, the list of unread records, the next place and RSEQ. -/
def capAdded (b : Bsn) (size n : Nat) (mem : List Host.Cell) : Bsn :=
  { b with mem, cap := b.cap ++ [⟨b.capPos, capRecSize n, b.rseq, n⟩], capPos := (b.capPos + capRecSize n) % size, rseq := (b.rseq + 1) % 2 ^ 32 }

theorem capStore_eq (s : State) (req : Req) (p : List Byte) : capStore s req p = capAnswer
    { s with bsn := capAdded s.bsn (capSize s) (p.length - 8) (ringWrite (capBase s) (capSize s) s.bsn.mem s.bsn.capPos (capRecord s req p)) }
    req St.ok 1 s.bsn.rseq (p.length - 8) [] := by
  simp only [capStore, List.length_drop, capPut_eq]
  rfl

/-- What a STORE leaves where the unread records before it are `held` (R460). -/
def CapStored (s : State) (req : Req) (p : List Byte) (held : List CapRec) (t : State) : Prop := ∃ mem,
  (∀ i, i < 16 + (p.length - 8) → memGet mem (capBase s + (s.bsn.capPos + i) % capSize s) = (capRecord s req p).getD i 0#8) ∧
  (∀ a, (∀ i, i < 16 + (p.length - 8) → a ≠ capBase s + (s.bsn.capPos + i) % capSize s) → memGet mem a = memGet s.bsn.mem a) ∧
  t.bsn = capAdded { s.bsn with cap := held } (capSize s) (p.length - 8) mem ∧
  ∃ v, v.sw = s.sw ∧ t = capAnswer v req St.ok 1 s.bsn.rseq (p.length - 8) []

theorem capStore_stored (s : State) (regs : List (Nat × W32)) (held : List CapRec) (req : Req) (p : List Byte)
    (fits : capRecSize (p.length - 8) ≤ capSize s) :
    CapStored s req p held (capStore { s with regs, bsn := { s.bsn with cap := held } } req p) := by
  have room := Nat.le_trans (le_capRecSize (p.length - 8)) fits
  refine ⟨ringWrite (capBase s) (capSize s) s.bsn.mem s.bsn.capPos (capRecord s req p), fun i hi => ?_, fun a ha => ?_, ?_, ?_⟩
  · exact memGet_ringWrite _ _ _ _ _ _ (by rw [length_capRecord]; exact room) (by rw [length_capRecord]; exact hi)
  · exact memGet_ringWrite_of_ne _ _ _ _ _ _ (by rw [length_capRecord]; exact ha)
  · rw [capStore_eq, capAnswer, complete_bsn]
    rfl
  · rw [capStore_eq]
    refine ⟨_, ?_, rfl⟩
    rfl

theorem capStore_capWait (s : State) (req : Req) (p : List Byte) : (capStore s req p).bsn.capWait = s.bsn.capWait := by
  rw [capStore_eq, capAnswer, complete_bsn]
  rfl

/-- Settles O45: every clause by the lemma about its command; a capture request by what `capTry` does with it. -/
theorem basinAndCapture : Obligations.BasinAndCapture := by
  unfold Obligations.BasinAndCapture
  intro s src req payload r rs old new next n badOp rows cls wellFormed open_ tells rejected stored
  have rowRuns : ∀ q ∈ rows, q.1 ∈ [1, 2, 3] ∧ exec q.2 s = .next (capArrive s q.1 req payload) := by
    intro q hq
    simp only [rows, List.mem_cons, List.not_mem_nil, or_false] at hq
    rcases hq with rfl | rfl | rfl <;> exact ⟨by simp, rfl⟩
  have isOk : ∀ op ∈ [1, 2, 3], wellFormed op → leAt payload 0 1 = op ∧ capFormOk req payload = true := by
    rintro op hop ⟨hb, form⟩
    exact ⟨hb, (capFormOk_iff req payload op hop hb).mpr form⟩
  refine ⟨?apply, ?refused, ?idle, ?applyDone, ?save, ?capFlush, ?clrCnt, ?anyRequest, ?behind, ?store, ?read, ?flush⟩
  case apply =>
    intro h1 h2 h3 h4 h5 h6 h7 h8
    exact bsnApply_accepted s src ((applyOk_iff s).mpr ⟨h1, h2, h3, h4, h5, h6, h7, h8⟩)
  case refused =>
    intro refused
    refine bsnApply_rejected s src (Bool.eq_false_iff.mpr fun ok => ?_)
    obtain ⟨sum, cfg, pool3, pool4, stopped, keep0, keep1, keep4⟩ := (applyOk_iff s).mp ok
    grind
  case idle =>
    intro idle
    exact ⟨s, by simp [exec, execBsnApplyDone, idle], rfl⟩
  case applyDone =>
    intro applying
    obtain ⟨size, off, done, flag, cap, mem⟩ := applyEnd_leaves s
    refine ⟨applyEnd s, by simp [exec, execBsnApplyDone, applying], size, off, done, flag, cap, fun k a hk lo hi => ?_⟩
    rw [mem]
    exact memGet_keepSame _ _ _ _ _ hk ⟨lo, hi⟩
  case save => exact fun takes => ⟨_, rfl, nvSubmit_ord _ _ _ _ _ takes⟩
  case capFlush => exact fun h => ⟨_, rfl, capRetry_nil _ h⟩
  case clrCnt => exact ⟨_, rfl, rfl⟩
  case anyRequest =>
    intro q hq
    obtain ⟨hop, run⟩ := rowRuns q hq
    refine ⟨fun stopped => ⟨_, run, capArrive_stopped _ _ _ _ stopped⟩, fun ⟨runs, idle⟩ bad => ⟨_, run, ?_⟩⟩
    by_cases hb : leAt payload 0 1 = q.1
    · have form : capFormOk req payload = false := by
        rw [Bool.eq_false_iff, ne_eq, capFormOk_iff req payload q.1 hop hb]
        exact fun form => bad ⟨hb, form⟩
      exact capArrive_tellsNone s s q.1 req payload _ _ runs hb idle (capTry_bad s req payload form) idle
    · rw [capArrive_wrongOp s _ _ _ runs hb]
      exact capAnswerNone_eq _ _ _ _
  case behind => exact fun runs hb busy => ⟨_, rfl, capArrive_behind s req payload runs hb busy⟩
  case store =>
    rintro ⟨runs, idle⟩ wf
    obtain ⟨hb, form⟩ := isOk 1 (by decide) wf
    have done := capArrive_done s 1 req payload runs hb idle
    refine ⟨fun long => ?_, fun fits => ?_, fun room full stop => ?_, fun room hcap full after ring => ?_⟩
    · exact ⟨_, rfl, capArrive_tellsNone s s 1 req payload _ _ runs hb idle (capTry_tooLong s req payload hb long) idle⟩
    · refine ⟨_, rfl, ?_⟩
      rw [done _ (capTry_fits s req payload form hb fits) ((capStore_capWait _ _ _).trans idle)]
      exact capStore_stored s s.regs s.bsn.cap req payload (Nat.le_trans (Nat.le_add_left _ _) fits)
    · refine ⟨_, rfl, ?_⟩
      rw [capArrive_full s req payload runs hb idle (capTry_waits s req payload form hb room full stop)]
      exact ⟨raise_flag _ _ _ (by decide) (by decide) (by decide) (by decide) (by decide), raise_bsn _ _ _⟩
    · have freed := capMakeRoom_one s _ r rs hcap full after
      have try_ := capTry_ring s req payload form hb room full ring
      rw [freed] at try_
      refine ⟨_, rfl, ?_⟩
      rw [done _ try_ ((capStore_capWait _ _ _).trans idle)]
      refine ⟨capStore_stored s _ rs req payload room, ?_⟩
      rw [capStore_eq, capAnswer, (complete_blockRegsKept _ _ _ _ _ _).get _ (by decide) (by decide)]
      exact get_bump_same s _ 1 (by decide) (by decide)
  case read =>
    rintro ⟨runs, idle⟩ wf
    obtain ⟨hb, form⟩ := isOk 2 (by decide) wf
    refine ⟨fun empty => ⟨_, rfl, ?_⟩, fun hcap => ⟨_, rfl, ?_⟩⟩
    · exact capArrive_tellsNone s s 2 req payload _ _ runs hb idle (capTry_read_nil s req payload form hb empty) idle
    · exact capArrive_done s 2 req payload runs hb idle _ (capTry_read_cons s req payload form r rs hb hcap)
        ((congrArg Bsn.capWait (complete_bsn _ _ _ _ _ _)).trans idle)
  case flush =>
    rintro ⟨runs, idle⟩ wf
    obtain ⟨hb, form⟩ := isOk 3 (by decide) wf
    exact ⟨_, rfl, capArrive_tellsNone s { s with bsn := { s.bsn with cap := [] } } 3 req payload _ _ runs hb idle (capTry_flush s req payload form hb) idle⟩

end Sys2Proof.Machine
end

section
/-! PROOF. O49 fails: its clause on MGMT START of the random number unit leaves out the frame requests that the unit kept queued
while it was stopped (R371). -/

namespace Sys2Proof.Machine

/-- A MGMT START of the random number unit, P15 sub-port 26, from the host. -/
def rngStartReq : Req := ⟨8, 0, 0, 3, 0, false⟩
def rngStartFrame : List Byte := 4#8 :: zeros 15

/-- A request for 4 random bytes that came from the host while the unit was stopped. -/
def rngHeldFrame : Req × List Byte := (⟨8, 0, 0, 1, 1, false⟩, [4#8, 0#8, 0#8, 0#8])

/-- The device as reset leaves it, but for a stopped random number unit that keeps a frame request queued (R24). -/
def rngStopped : State :=
  { State.reset with stops := ⟨[], [26], []⟩, rng := { State.reset.rng with held := [rngHeldFrame] } }

/-- The start takes the request that was kept queued. -/
theorem rngStart_takes_held :
    ∃ t, exec (.hostMgmtStart rngStartReq 26 rngStartFrame) rngStopped = .next t ∧ t.rng.held = [] :=
  ⟨_, rfl, by decide⟩

/-- Refutes O49: MGMT START of a stopped random number unit with a frame request kept queued takes that request, where the
statement says that nothing but the stop state and the completion changes. -/
theorem not_hostStopsRecordsAndQspi : ¬ Obligations.HostStopsRecordsAndQspi := by
  unfold Obligations.HostStopsRecordsAndQspi
  intro h
  obtain ⟨-, -, -, -, -, -, -, start, -⟩ := h rngStopped rngStopped rngStartReq rngStartFrame [] 26 0 ⟨26, none, none, 0, 0, 0⟩
    (mkFrame 0 0 0 0 0 0 []) 0#32 [] false false false
  obtain ⟨-, started⟩ := start (by decide) (by decide)
  obtain ⟨t, run, same⟩ := started (by decide) (by decide) rfl rfl
  obtain ⟨t', run', taken⟩ := rngStart_takes_held
  have hold : t.rng.held = [rngHeldFrame] := by rw [same, complete_rng]; rfl
  rw [run, Host.Outcome.next.injEq] at run'
  rw [← run', hold] at taken
  exact List.cons_ne_nil _ _ taken

end Sys2Proof.Machine
end

section
/-! SUPPORT. Registers around a completion: one leaves every set-up register from Basin's on alone, but for the counter of refused
writes and that of frames no link takes. -/

namespace Sys2Proof.Machine

/-- `t` holds the words of `s` in the registers from 0x3800 on (Table 25.1), but for NV_CNT and PL_CNT1. -/
def HighRegsKept (s t : State) : Prop := ∀ o, 0x3800 ≤ o → o ≠ W.nvCnt → o ≠ W.plCnt1 → t.getW o = s.getW o

theorem HighRegsKept.refl (s : State) : HighRegsKept s s := fun _ _ _ _ => rfl

theorem HighRegsKept.trans {s t u : State} (h : HighRegsKept s t) (h' : HighRegsKept t u) : HighRegsKept s u :=
  fun o lo hn hp => (h' o lo hn hp).trans (h o lo hn hp)

theorem set_highRegsKept (s : State) (f : Fd) (v : Nat) (h : f.off < 0x3800 ∨ f.off = W.nvCnt ∨ f.off = W.plCnt1) :
    HighRegsKept s (s.set f v) :=
  fun o _ _ _ => getW_set_ne s f v o (by omega)

theorem raise_highRegsKept (s : State) (e b : Nat) (h : (evField e b).off < 0x3800) : HighRegsKept s (raise s e b) :=
  fun o _ hn _ => raise_getW s e b o (by omega) (by omega) (by simp only [W.hrEqStat]; omega) hn

theorem pmNote_highRegsKept (s : State) (w : Nat) : HighRegsKept s (pmNote s w) :=
  (set_highRegsKept _ _ _ (by decide)).trans (raise_highRegsKept _ _ _ (by decide))

theorem pmUpd_highRegsKept (s : State) (f : Pm → Pm) : HighRegsKept s (pmUpd s f) := fun _ _ _ _ => rfl

theorem pmListen_highRegsKept (s : State) : HighRegsKept s (pmListen s) := by
  unfold pmListen
  split
  · exact pmUpd_highRegsKept _ _
  · exact .refl s

theorem pmAbandon_highRegsKept (s : State) (ap : Nat) (w : Option Nat) : HighRegsKept s (pmAbandon s ap w) :=
  ((set_highRegsKept _ _ _ (by decide)).trans (set_highRegsKept _ _ _ (by decide))).trans
    ((pmUpd_highRegsKept _ _).trans ((raise_highRegsKept _ _ _ (by decide)).trans (pmListen_highRegsKept _)))

theorem pmEntryWake_highRegsKept (s : State) (w : Nat) : HighRegsKept s (pmEntryWake s w) := by
  unfold pmEntryWake
  split
  · exact (pmNote_highRegsKept _ _).trans (pmAbandon_highRegsKept _ _ _)
  · split
    · exact pmNote_highRegsKept _ _
    · exact .refl s

theorem swQueue_highRegsKept (s : State) (f : Frame) (o p k : Nat) (g : Option Nat) : HighRegsKept s (swQueue s f o p k g) := by
  unfold swQueue
  dsimp only
  split
  · refine HighRegsKept.trans ?_ (pmEntryWake_highRegsKept _ _)
    exact fun _ _ _ _ => rfl
  · exact fun _ _ _ _ => rfl

/-- A unicast frame of a completion's type is queued or lost with a count; a lost one is not completed in turn (Table 12.4). -/
theorem swIngress_highRegsKept (s : State) (p k o : Nat) (ok : Bool) (f : Frame) (ht : 0x80 ≤ f.typ) (hm : f.mc = false) :
    HighRegsKept s (swIngress s p k o ok f) := by
  have lost : HighRegsKept s (s.bump F.swCnt0_baddesc 1) := set_highRegsKept _ _ _ (by decide)
  unfold swIngress
  simp only [ht, hm, or_true, if_true, Bool.false_eq_true, if_false]
  split
  · exact lost
  · split
    · split
      · exact lost.trans (set_highRegsKept _ _ _ (by decide))
      · split
        · exact lost
        · exact swQueue_highRegsKept _ _ _ _ _ _
    · split
      · exact lost
      · split
        · split
          · exact .refl s
          · exact lost
        · exact swQueue_highRegsKept _ _ _ _ _ _

/-- A completion leaves the registers from Basin's on alone, but for two counters. -/
theorem complete_highRegsKept (s : State) (p k : Nat) (r : Req) (t : Nat) (d : List Byte) : HighRegsKept s (complete s p k r t d) := by
  unfold complete
  split
  · exact .refl s
  · exact swIngress_highRegsKept _ _ _ _ _ _ (Nat.le_add_left _ _) rfl

end Sys2Proof.Machine
end

section
/-! SUPPORT. Words of the ledger: fields that fill their register, pairs of registers, signed Wh, and numbers in keep RAM. -/

namespace Sys2Proof.Machine

-- Whole words -----------------------------------------------------------------------------------------------------------------------

/-- Setting a field that fills its register replaces the word. -/
theorem set_word (s : State) (o v : Nat) : s.set ⟨o, 31, 0⟩ v = s.setW o (BitVec.ofNat 32 v) := by
  have full : wPut (s.getW o) 31 0 v = BitVec.ofNat 32 v := by
    apply BitVec.eq_of_getLsbD_eq
    intro i hi
    have : i ≤ 31 := by omega
    rw [getLsbD_wPut _ _ _ _ _ (by decide), BitVec.getLsbD_ofNat]
    simp [hi, this]
  simp [State.set, full]

/-- A field that is wide enough for a value holds it whole. -/
theorem get_set_of_lt (s : State) (f : Fd) (v : Nat) (h : f.lo ≤ f.hi) (h32 : f.hi < 32) (hv : v < 2 ^ (f.hi - f.lo + 1)) :
    (s.set f v).get f = v := by
  rw [get_set_same s f v h h32, Nat.mod_eq_of_lt hv]

theorem getW_set64_ne (s : State) (lo hi v o : Nat) (hl : o ≠ lo) (hh : o ≠ hi) : (set64 s lo hi v).getW o = s.getW o := by
  rw [set64, getW_setW_ne _ _ _ _ hh, getW_setW_ne _ _ _ _ hl]

/-- A 64-bit value after it was written. -/
theorem get64_set64_same (s : State) (lo hi v : Nat) (h : lo ≠ hi) : get64 (set64 s lo hi v) lo hi = v % 2 ^ 64 := by
  rw [get64, set64, getW_setW_same, getW_setW_ne _ _ _ _ h, getW_setW_same, BitVec.toNat_ofNat, BitVec.toNat_ofNat]
  omega

theorem get64_congr {s t : State} {lo hi : Nat} (hl : t.getW lo = s.getW lo) (hh : t.getW hi = s.getW hi) :
    get64 t lo hi = get64 s lo hi := by
  rw [get64, get64, hl, hh]

theorem leNat_lt (bs : List Byte) : leNat bs < 256 ^ bs.length := by
  induction bs with
  | nil => decide
  | cons b bs ih =>
    have := b.isLt
    simp only [leNat, List.length_cons, Nat.pow_succ]
    omega

theorem leAt_lt (bs : List Byte) (o n : Nat) : leAt bs o n < 256 ^ n := by
  have := leNat_lt (slice bs o n)
  rwa [length_slice] at this

-- Signed Wh (R77) -------------------------------------------------------------------------------------------------------------------

/-- Saturation at the bounds of a signed 32-bit value. -/
def whClamp (x : Int) : Int := max (-(2 ^ 31)) (min (2 ^ 31 - 1) x)

theorem whClamp_bounds (x : Int) : -2 ^ 31 ≤ whClamp x ∧ whClamp x < 2 ^ 31 := by
  unfold whClamp
  omega

theorem whClamp_of_bounds {x : Int} (lo : -2 ^ 31 ≤ x) (hi : x < 2 ^ 31) : whClamp x = x := by
  unfold whClamp
  omega

theorem wh_bounds (w : W32) : -2 ^ 31 ≤ wh w ∧ wh w < 2 ^ 31 := ⟨w.le_toInt, w.toInt_lt⟩

/-- Two's complement gives a value in range back. -/
theorem wh_unsigned {x : Int} (lo : -2 ^ 31 ≤ x) (hi : x < 2 ^ 31) : wh (BitVec.ofNat 32 (unsigned 32 x)) = x := by
  have code : BitVec.ofNat 32 (unsigned 32 x) = BitVec.ofInt 32 x := by
    apply BitVec.eq_of_toNat_eq
    rw [BitVec.toNat_ofInt, BitVec.toNat_ofNat, unsigned]
    omega
  rw [wh, code]
  exact BitVec.toInt_ofInt_eq_self (by decide) lo hi

theorem wh_whSat (x : Int) : wh (BitVec.ofNat 32 (whSat x)) = whClamp x :=
  wh_unsigned (whClamp_bounds x).1 (whClamp_bounds x).2

/-- CREDIT after it was set. -/
theorem ledCredit_ledSetCredit (s : State) (x : Int) : ledCredit (ledSetCredit s x) = whClamp x := by
  rw [ledCredit, ledSetCredit, set_word, getW_setW_same, wh_whSat]

-- Keep RAM --------------------------------------------------------------------------------------------------------------------------

theorem keepTouch_getW (s : State) (o : Nat) (h : o ≠ W.pmStat) : (keepTouch s).getW o = s.getW o := getW_set_ne _ _ _ _ h

theorem kPut_getW (s : State) (a n v o : Nat) (h : o ≠ W.pmStat) : (kPut s a n v).getW o = s.getW o := keepTouch_getW _ _ h

theorem kPut_keep (s : State) (a n v : Nat) : (kPut s a n v).keep = memWrite s.keep a (leBytes n v) := rfl

theorem kGet_congr {s t : State} (h : t.keep = s.keep) (a n : Nat) : kGet t a n = kGet s a n := by rw [kGet, kGet, h]

/-- A number in keep RAM after it was written. -/
theorem kGet_kPut_same (s : State) (a n v : Nat) : kGet (kPut s a n v) a n = v % 256 ^ n := by
  have read := memRead_memWrite s.keep a (leBytes n v)
  rw [length_leBytes] at read
  rw [kGet, kPut_keep, read, leNat_leBytes]

/-- A number in keep RAM apart from the one written. -/
theorem kGet_kPut_ne (s : State) (a n v b m : Nat) (h : b + m ≤ a ∨ a + n ≤ b) : kGet (kPut s a n v) b m = kGet s b m := by
  have read : memRead (memWrite s.keep a (leBytes n v)) b m = memRead s.keep b m := by
    refine List.map_congr_left fun i hi => memGet_memWrite_of_outside _ _ _ _ ?_
    have := List.mem_range.mp hi
    rw [length_leBytes]
    omega
  rw [kGet, kPut_keep, read, kGet]

end Sys2Proof.Machine
end

section
/-! SUPPORT. Checkpoints of the ledger (R88, R89): the three ways one can start, and the account that one leaves alone, as the
completion of a token and an event of the ledger do. -/

namespace Sys2Proof.Machine

-- The account -----------------------------------------------------------------------------------------------------------------------

/-- `t` keeps the account of `s`: every register from the passport tag's on and block protect, but for KSEQ, the ledger's event flags,
the counter of lost frames and, of LED_STAT, CKPT_BUSY and TOKEN_STATUS; keep RAM and the pulses taken. -/
structure AccountKept (s t : State) : Prop where
  getW   : ∀ o, 0x7800 ≤ o ∨ o = W.nvProt → o ∉ [W.ledStat, W.ledKseq, W.ledEvf, W.plCnt1] → t.getW o = s.getW o
  flag   : ∀ i, i < 7 → t.on ⟨W.ledStat, i, i⟩ = s.on ⟨W.ledStat, i, i⟩
  keep   : t.keep = s.keep
  takenD : t.led.takenD = s.led.takenD
  takenC : t.led.takenC = s.led.takenC

namespace AccountKept

theorem refl (s : State) : AccountKept s s := ⟨fun _ _ _ => rfl, fun _ _ => rfl, rfl, rfl, rfl⟩

theorem trans {s t u : State} (h : AccountKept s t) (h' : AccountKept t u) : AccountKept s u :=
  ⟨fun o lo ne => (h'.getW o lo ne).trans (h.getW o lo ne), fun i hi => (h'.flag i hi).trans (h.flag i hi), h'.keep.trans h.keep,
    h'.takenD.trans h.takenD, h'.takenC.trans h.takenC⟩

/-- An update outside the registers, keep RAM and the pulses taken. -/
theorem of_regs {s t : State} (h : t.regs = s.regs) (keep : t.keep = s.keep) (takenD : t.led.takenD = s.led.takenD)
    (takenC : t.led.takenC = s.led.takenC) : AccountKept s t :=
  ⟨fun o _ _ => by rw [State.getW, State.getW, h], fun i _ => by rw [State.on, State.on, State.get, State.get, State.getW, State.getW, h],
    keep, takenD, takenC⟩

/-- The words the account leaves alone, and LED_STAT with them. -/
theorem of_words {s t : State} (getW : ∀ o, 0x7800 ≤ o ∨ o = W.nvProt → o ∉ [W.ledKseq, W.ledEvf, W.plCnt1] → t.getW o = s.getW o)
    (keep : t.keep = s.keep) (led : t.led = s.led) : AccountKept s t := by
  refine ⟨fun o lo ne => getW o lo fun mem => ne (List.mem_cons_of_mem _ mem), fun i _ => ?_, keep, by rw [led], by rw [led]⟩
  rw [State.on, State.on, State.get, State.get, getW W.ledStat (by decide) (by decide)]

theorem get {s t : State} (h : AccountKept s t) (f : Fd) (lo : 0x7800 ≤ f.off ∨ f.off = W.nvProt)
    (ne : f.off ∉ [W.ledStat, W.ledKseq, W.ledEvf, W.plCnt1]) : t.get f = s.get f := by
  rw [State.get, State.get, h.getW _ lo ne]

theorem credit {s t : State} (h : AccountKept s t) : ledCredit t = ledCredit s := by
  rw [ledCredit, ledCredit, h.getW _ (by decide) (by decide)]

theorem foldl {α : Type} {f : State → α → State} (hf : ∀ s a, AccountKept s (f s a)) (l : List α) (s : State) :
    AccountKept s (l.foldl f s) := by
  induction l generalizing s with
  | nil => exact .refl s
  | cons a l ih => exact (hf s a).trans (ih _)

end AccountKept

/-- The registers of the account lie above Basin's, and none of them counts what is lost or refused. -/
theorem account_register {o : Nat} (lo : 0x7800 ≤ o ∨ o = W.nvProt) (ne : o ∉ [W.ledKseq, W.ledEvf, W.plCnt1]) :
    0x3800 ≤ o ∧ o ≠ W.nvCnt ∧ o ≠ W.hrEqStat ∧ o ≠ W.ledKseq ∧ o ≠ W.ledEvf ∧ o ≠ W.plCnt1 := by
  simp only [List.mem_cons, List.not_mem_nil, or_false, W.nvProt, W.nvCnt, W.hrEqStat, W.ledKseq, W.ledEvf, W.plCnt1] at *
  omega

theorem setW_accountKept (s : State) (o : Nat) (w : W32) (h : (o < 0x7800 ∧ o ≠ W.nvProt) ∨ o = W.ledKseq) :
    AccountKept s (s.setW o w) := by
  refine .of_words (fun p lo ne => getW_setW_ne _ _ _ _ ?_) rfl rfl
  obtain ⟨-, -, -, notKseq, -, -⟩ := account_register lo ne
  omega

/-- CKPT_BUSY and TOKEN_STATUS lie above the flags of LED_STAT. -/
theorem set_ledStat_accountKept (s : State) (hi lo v : Nat) (h : lo ≤ hi) (h7 : 7 ≤ lo) : AccountKept s (s.set ⟨W.ledStat, hi, lo⟩ v) := by
  refine ⟨fun o _ ne => getW_set_ne _ _ _ _ fun e => ne (List.mem_cons.mpr (.inl e)), fun i hi' => ?_,
    State.set_keep _ _ _, by rw [State.set_led], by rw [State.set_led]⟩
  rw [State.on, State.on, get_set_disjoint s ⟨W.ledStat, hi, lo⟩ ⟨W.ledStat, i, i⟩ v h (Nat.le_refl i) (by dsimp only; omega) rfl
    (.inl (by dsimp only; omega))]

/-- An event of the ledger. -/
theorem raise_accountKept (s : State) (e b : Nat) (h : (evField e b).off = W.ledEvf) : AccountKept s (raise s e b) := by
  refine .of_words (fun o lo ne => ?_) (raise_keep _ _ _) (raise_led _ _ _)
  obtain ⟨high, notCnt, notRing, -, notEvf, -⟩ := account_register lo ne
  exact raise_getW s e b o (h ▸ notEvf) (.inr (by omega)) notRing notCnt

theorem complete_accountKept (s : State) (p k : Nat) (r : Req) (t : Nat) (d : List Byte) : AccountKept s (complete s p k r t d) := by
  refine .of_words (fun o lo ne => ?_) (complete_keep _ _ _ _ _ _) (complete_led _ _ _ _ _ _)
  obtain ⟨high, notCnt, -, -, -, notLost⟩ := account_register lo ne
  exact complete_highRegsKept s p k r t d o high notCnt notLost

theorem nvSubmit_accountKept (s : State) (k : NvKind) (c o : Bool) (src : Nat) (cont : NvCont) :
    AccountKept s (nvSubmit s k c o src cont).2 :=
  .of_words (fun p lo ne => nvSubmit_getW s k c o src cont p (account_register lo ne).2.1) (nvSubmit_keep _ _ _ _ _ _)
    (nvSubmit_led _ _ _ _ _ _)

-- Token completions -----------------------------------------------------------------------------------------------------------------

theorem tokComplete_accountKept (s : State) (x : TokWait) : AccountKept s (tokComplete s x) :=
  ((set_ledStat_accountKept s 15 8 _ (by decide) (by decide)).trans (raise_accountKept _ _ _ rfl)).trans (complete_accountKept _ _ _ _ _ _)

/-- TOKEN_STATUS shows the code of the token that completed last. -/
theorem tokComplete_status (s : State) (x : TokWait) (h : x.status < 256) : (tokComplete s x).get F.ledStat_tokenStatus = x.status := by
  rw [State.get, tokComplete, complete_highRegsKept _ _ _ _ _ _ _ (by decide) (by decide) (by decide),
    raise_getW _ _ _ _ (by decide) (by decide) (by decide) (by decide)]
  exact get_set_of_lt s F.ledStat_tokenStatus _ (by decide) (by decide) h

-- The three ways --------------------------------------------------------------------------------------------------------------------

/-- The wish for the passport pages noted (R204). -/
def ckptWanted (s : State) (pages : Bool) : State := ledUpd s fun l => { l with pageWant := l.pageWant || pages }

/-- A checkpoint begun: its KSEQ and CKPT_BUSY stand, and the tokens that waited wait for its end. -/
def ckptBegun (s : State) : State :=
  let s := (keepSaveBegin s).set F.ledStat_ckptBusy 1
  let s := ledUpd s fun l => { l with
    tokNow := l.tokNext, tokNext := [], again := false, touched := false, pageNow := l.pageWant, pageWant := false, page3 := savePage s
    lifeSaved := kGet s K.life 8, savedAt := s.rtcSec }
  { s with cph := { s.cph with ncCap := (List.range 64).map (ncInv s) } }

theorem ckptStart_busy (s : State) (pages : Bool) (busy : s.on F.ledStat_ckptBusy = true) :
    ckptStart s pages = ledUpd (ckptWanted s pages) fun l => { l with again := true } := by
  simp [ckptStart, ckptWanted, busy]

theorem ckptStart_refused (s : State) (pages : Bool) (idle : s.on F.ledStat_ckptBusy = false) (bp : s.get F.nvProt_bp = 3) :
    ckptStart s pages = s.led.tokNext.foldl (fun s x => tokComplete s { x with status := St.nvProtected })
      (ledUpd ((ckptWanted s pages).bump F.nvCnt_refused 1) fun l => { l with tokNext := [] }) := by
  simp [ckptStart, ckptWanted, idle, bp]

theorem ckptStart_begins (s : State) (pages : Bool) (idle : s.on F.ledStat_ckptBusy = false) (bp : s.get F.nvProt_bp ≠ 3) :
    ckptStart s pages = nvOwn (ckptBegun (ckptWanted s pages))
      (.both (recKeep ((ckptBegun (ckptWanted s pages)).get F.ledKseq_kseq % 16)) ((ckptBegun (ckptWanted s pages)).get F.ledKseq_kseq)
        (keepBytes (ckptBegun (ckptWanted s pages)))) true 14 .checkpoint := by
  simp only [ckptStart, ledUpd_on, ledUpd_get, idle, bp, beq_iff_eq, Bool.false_eq_true, if_false]
  rfl

/-- Registers set one after another. -/
theorem foldl_setW_keeps (g : Nat → Nat) (w : W32) (l : List Nat) (s : State) :
    (∀ o, (∀ i ∈ l, o ≠ g i) → (l.foldl (fun s i => s.setW (g i) w) s).getW o = s.getW o) ∧
    l.foldl (fun s i => s.setW (g i) w) s = { s with regs := (l.foldl (fun s i => s.setW (g i) w) s).regs } := by
  induction l generalizing s with
  | nil => exact ⟨fun _ _ => rfl, rfl⟩
  | cons i l ih =>
    obtain ⟨words, only⟩ := ih (s.setW (g i) w)
    refine ⟨fun o ne => ?_, only⟩
    exact (words o fun j hj => ne j (List.mem_cons_of_mem _ hj)).trans (getW_setW_ne _ _ _ _ (ne i List.mem_cons_self))

/-- A save begins in the registers alone. -/
theorem keepSaveBegin_only (s : State) : keepSaveBegin s = { s with regs := (keepSaveBegin s).regs } := by
  unfold keepSaveBegin
  exact (foldl_setW_keeps W.nvAbandon 0#32 (List.range 8) _).2

theorem keepSaveBegin_getW_wrapInc (s : State) (o : Nat) (h : o < W.nvAbcnt ∨ W.nvRecdA 0 ≤ o) :
    (keepSaveBegin s).getW o = (s.wrapInc F.ledKseq_kseq).getW o := by
  unfold keepSaveBegin
  simp only [W.nvAbcnt, W.nvRecdA] at h
  refine ((foldl_setW_keeps W.nvAbandon 0#32 (List.range 8) _).1 o fun i hi => ?_).trans (getW_setW_ne _ _ _ _ ?_)
  · have := List.mem_range.mp hi
    simp only [W.nvAbandon]
    omega
  · simp only [W.nvAbcnt]
    omega

/-- KSEQ advances (R89). -/
theorem keepSaveBegin_kseq (s : State) : (keepSaveBegin s).get F.ledKseq_kseq = (s.get F.ledKseq_kseq + 1) % 2 ^ 32 := by
  rw [State.get, keepSaveBegin_getW_wrapInc s _ (by decide)]
  exact get_wrapInc_same s F.ledKseq_kseq (by decide) (by decide)

theorem keepSaveBegin_getW (s : State) (o : Nat) (h : o < W.nvAbcnt ∨ W.nvRecdA 0 ≤ o) (ne : o ≠ W.ledKseq) :
    (keepSaveBegin s).getW o = s.getW o := by
  rw [keepSaveBegin_getW_wrapInc s o h, State.wrapInc, getW_set_ne _ _ _ _ ne]

@[simp] theorem keepSaveBegin_led (s : State) : (keepSaveBegin s).led = s.led := by rw [keepSaveBegin_only]

@[simp] theorem keepSaveBegin_nv (s : State) : (keepSaveBegin s).nv = s.nv := by rw [keepSaveBegin_only]

theorem keepSaveBegin_accountKept (s : State) : AccountKept s (keepSaveBegin s) := by
  refine .of_words (fun o lo ne => ?_) (by rw [keepSaveBegin_only]) (keepSaveBegin_led s)
  obtain ⟨-, -, -, notKseq, -, -⟩ := account_register lo ne
  simp only [W.nvProt] at lo
  exact keepSaveBegin_getW s o (by simp only [W.nvAbcnt, W.nvRecdA]; omega) notKseq

theorem ckptBegun_regs (s : State) : (ckptBegun s).regs = ((keepSaveBegin s).set F.ledStat_ckptBusy 1).regs := by
  simp only [ckptBegun, ledUpd_regs]

theorem ckptBegun_getW (s : State) (o : Nat) : (ckptBegun s).getW o = ((keepSaveBegin s).set F.ledStat_ckptBusy 1).getW o := by
  rw [State.getW, State.getW, ckptBegun_regs]

theorem ckptBegun_accountKept (s : State) : AccountKept s (ckptBegun s) :=
  ((keepSaveBegin_accountKept s).trans (set_ledStat_accountKept _ 7 7 1 (by decide) (by decide))).trans
    (.of_regs (ckptBegun_regs s) (by simp [ckptBegun]) (by simp [ckptBegun]) (by simp [ckptBegun]))

theorem ckptBegun_kseq (s : State) : (ckptBegun s).get F.ledKseq_kseq = (s.get F.ledKseq_kseq + 1) % 2 ^ 32 := by
  rw [State.get, ckptBegun_getW, getW_set_ne _ _ _ _ (by decide)]
  exact keepSaveBegin_kseq s

theorem ckptBegun_busy (s : State) : (ckptBegun s).on F.ledStat_ckptBusy = true := by
  have one : (ckptBegun s).get F.ledStat_ckptBusy = 1 := by
    rw [State.get, ckptBegun_getW]
    exact get_set_of_lt _ F.ledStat_ckptBusy 1 (by decide) (by decide) (by decide)
  rw [State.on, one]
  rfl

theorem ckptBegun_nv (s : State) : (ckptBegun s).nv = s.nv := by simp [ckptBegun]

/-- The tokens that waited for a checkpoint wait for the end of this one. -/
theorem ckptBegun_tokNow (s : State) : (ckptBegun s).led.tokNow = s.led.tokNext := by
  simp [ckptBegun]

/-- A checkpoint leaves the account alone, whichever way it goes. -/
theorem ckptStart_accountKept (s : State) (pages : Bool) : AccountKept s (ckptStart s pages) := by
  have wanted : AccountKept s (ckptWanted s pages) := .of_regs rfl rfl rfl rfl
  cases busy : s.on F.ledStat_ckptBusy with
  | true =>
    rw [ckptStart_busy s pages busy]
    exact wanted.trans (.of_regs rfl rfl rfl rfl)
  | false =>
    by_cases bp : s.get F.nvProt_bp = 3
    · rw [ckptStart_refused s pages busy bp]
      have counted : AccountKept (ckptWanted s pages) ((ckptWanted s pages).bump F.nvCnt_refused 1) :=
        setW_accountKept _ W.nvCnt _ (.inl (by decide))
      have cleared : ∀ u, AccountKept u (ledUpd u fun l => { l with tokNext := [] }) := fun _ => .of_regs rfl rfl rfl rfl
      refine (wanted.trans (counted.trans (cleared _))).trans ?_
      exact .foldl (fun s x => tokComplete_accountKept s _) _ _
    · rw [ckptStart_begins s pages busy bp]
      exact (wanted.trans (ckptBegun_accountKept _)).trans (nvSubmit_accountKept _ _ _ _ _ _)

/-- Where block protect lets it be written, a checkpoint or the one after it carries every token that waits (R84). -/
theorem ckptStart_tokens (s : State) (pages : Bool) (bp : s.get F.nvProt_bp ≠ 3) {x : TokWait} (hx : x ∈ s.led.tokNext) :
    x ∈ (ckptStart s pages).led.tokNow ++ (ckptStart s pages).led.tokNext := by
  cases busy : s.on F.ledStat_ckptBusy with
  | true =>
    rw [ckptStart_busy s pages busy]
    exact List.mem_append_right _ hx
  | false =>
    rw [ckptStart_begins s pages busy bp, nvOwn, nvSubmit_led]
    exact List.mem_append_left _ (ckptBegun_tokNow _ ▸ hx)

end Sys2Proof.Machine
end

section
/-! SUPPORT. AVAIL and the flags of R74, and pulses (R67 to R71): what an evaluation shows, and what pulses of one kind change. -/

namespace Sys2Proof.Machine

/-- A flag apart from the one set. -/
theorem on_setB_ne (s : State) (f g : Fd) (b : Bool) (hf : f.lo ≤ f.hi) (hg : g.lo ≤ g.hi) (h32 : g.hi < 32)
    (hd : g.off ≠ f.off ∨ g.hi < f.lo ∨ f.hi < g.lo) : (s.setB f b).on g = s.on g := by
  rw [State.on, State.on, State.setB, get_set_ne s f g _ hf hg h32 hd]

-- Flags -----------------------------------------------------------------------------------------------------------------------------

/-- AVAIL and its flags stand as R73 and R74 say of CREDIT and GRACE_EFF. -/
structure AvailShown (s : State) : Prop where
  avail     : wh (s.getW W.ledAvail) = whClamp (ledCredit s + graceEff s)
  exhausted : s.on F.ledStat_exhausted = true ↔ wh (s.getW W.ledAvail) ≤ 0
  low       : s.on F.ledStat_low = true ↔ wh (s.getW W.ledAvail) ≤ s.get F.ledLowmark_lowmark
  inGrace   : s.on F.ledStat_inGrace = true ↔ ledCredit s < 0 ∧ 0 < wh (s.getW W.ledAvail)

theorem AccountKept.graceEff {s t : State} (h : AccountKept s t) : graceEff t = graceEff s := by
  rw [Machine.graceEff, Machine.graceEff, h.get F.ledGrace_graceWh (by decide) (by decide), h.get F.ledGcap_cap (by decide) (by decide)]

theorem AccountKept.availShown {s t : State} (h : AccountKept s t) (shown : AvailShown s) : AvailShown t := by
  have avail := h.getW W.ledAvail (by decide) (by decide)
  obtain ⟨value, ex, low, inGrace⟩ := shown
  refine ⟨?_, ?_, ?_, ?_⟩
  · rw [avail, h.credit, h.graceEff, value]
  · rw [avail, h.flag 2 (by decide), ex]
  · rw [avail, h.flag 3 (by decide), low, h.get F.ledLowmark_lowmark (by decide) (by decide)]
  · rw [avail, h.flag 1 (by decide), h.credit, inGrace]

/-- AVAIL and the flags evaluated, before their events. -/
def ledFlagged (s : State) : State :=
  let avail : Int := wh (BitVec.ofNat 32 (whSat (ledCredit s + graceEff s)))
  let t := s.set F.ledAvail_avail (unsigned 32 avail)
  let t := ((t.setB F.ledStat_exhausted (decide (avail ≤ 0))).setB F.ledStat_low (decide (avail ≤ (s.get F.ledLowmark_lowmark : Int)))).setB
    F.ledStat_inGrace (decide (ledCredit t < 0) && decide (0 < avail))
  ledUpd t fun l => { l with evaluated := true }

theorem ledFlagged_getW (s : State) (o : Nat) (ha : o ≠ W.ledAvail) (hs : o ≠ W.ledStat) : (ledFlagged s).getW o = s.getW o := by
  unfold ledFlagged
  dsimp only
  rw [ledUpd_getW, State.setB, getW_set_ne _ _ _ _ hs, State.setB, getW_set_ne _ _ _ _ hs, State.setB, getW_set_ne _ _ _ _ hs,
    getW_set_ne _ _ _ _ ha]

theorem ledFlagged_get (s : State) (f : Fd) (ha : f.off ≠ W.ledAvail) (hs : f.off ≠ W.ledStat) : (ledFlagged s).get f = s.get f := by
  rw [State.get, State.get, ledFlagged_getW s f.off ha hs]

theorem ledFlagged_credit (s : State) : ledCredit (ledFlagged s) = ledCredit s := by
  rw [ledCredit, ledCredit, ledFlagged_getW s _ (by decide) (by decide)]

theorem ledFlagged_open (s : State) : (ledFlagged s).on F.ledStat_open = s.on F.ledStat_open := by
  simp [ledFlagged, State.on, State.setB, get_set_ne]

@[simp] theorem ledFlagged_keep (s : State) : (ledFlagged s).keep = s.keep := by simp [ledFlagged]

@[simp] theorem ledFlagged_led (s : State) : (ledFlagged s).led = { s.led with evaluated := true } := by simp [ledFlagged]

theorem ledFlagged_availShown (s : State) : AvailShown (ledFlagged s) := by
  obtain ⟨lo, hi⟩ := whClamp_bounds (ledCredit s + graceEff s)
  have grace : graceEff (ledFlagged s) = graceEff s := by
    rw [graceEff, graceEff, ledFlagged_get _ _ (by decide) (by decide), ledFlagged_get _ _ (by decide) (by decide)]
  have credit : ∀ v, ledCredit (s.set F.ledAvail_avail v) = ledCredit s := fun v => congrArg wh (getW_set_ne _ _ _ _ (by decide))
  have avail : wh ((ledFlagged s).getW W.ledAvail) = whClamp (ledCredit s + graceEff s) := by
    simp only [ledFlagged, ledUpd_getW, State.setB]
    rw [getW_set_ne _ _ _ _ (by decide), getW_set_ne _ _ _ _ (by decide), getW_set_ne _ _ _ _ (by decide), set_word, getW_setW_same,
      wh_whSat, wh_unsigned lo hi]
  refine ⟨by rw [avail, ledFlagged_credit, grace], ?exhausted, ?low, ?inGrace⟩ <;> rw [avail]
  case exhausted =>
    simp only [ledFlagged, ledUpd_on, wh_whSat]
    rw [on_setB_ne _ _ _ _ (by decide) (by decide) (by decide) (by decide), on_setB_ne _ _ _ _ (by decide) (by decide) (by decide) (by decide),
      on_setB_same _ _ _ (by decide) (by decide), decide_eq_true_eq]
  case low =>
    rw [ledFlagged_get _ F.ledLowmark_lowmark (by decide) (by decide)]
    simp only [ledFlagged, ledUpd_on, wh_whSat]
    rw [on_setB_ne _ _ _ _ (by decide) (by decide) (by decide) (by decide), on_setB_same _ _ _ (by decide) (by decide), decide_eq_true_eq]
  case inGrace =>
    rw [ledFlagged_credit]
    simp only [ledFlagged, ledUpd_on, wh_whSat]
    rw [on_setB_same _ _ _ (by decide) (by decide), credit, Bool.and_eq_true, decide_eq_true_eq, decide_eq_true_eq]

/-- What follows the flags: their events, and the checkpoint on entry to EXHAUSTED (R74, R88). -/
def ledFlagEvents (ex low first : Bool) (s : State) : State :=
  let s := if low then raise s 100 0 else s
  if ex then
    let s := raise s 101 0
    if first || isStopped s 34 then s else ckptStart s true
  else s

theorem ledEval_eq (s : State) : ∃ ex low first, ledEval s = ledFlagEvents ex low first (ledFlagged s) := ⟨_, _, _, rfl⟩

theorem ledFlagEvents_accountKept (ex low first : Bool) (s : State) : AccountKept s (ledFlagEvents ex low first s) := by
  have warned : AccountKept s (if low then raise s 100 0 else s) := by
    split
    · exact raise_accountKept s 100 0 rfl
    · exact .refl s
  unfold ledFlagEvents
  generalize (if low then raise s 100 0 else s) = t at warned ⊢
  dsimp only
  split
  · have raised := warned.trans (raise_accountKept _ 101 0 rfl)
    split
    · exact raised
    · exact raised.trans (ckptStart_accountKept _ _)
  · exact warned

/-- The events of an evaluation and the checkpoint it starts leave the account as the flags were evaluated on it. -/
theorem ledEval_accountKept (s : State) : AccountKept (ledFlagged s) (ledEval s) := by
  obtain ⟨ex, low, first, eval⟩ := ledEval_eq s
  exact eval ▸ ledFlagEvents_accountKept ex low first _

/-- So does the checkpoint due after them. -/
theorem ledSettle_accountKept (s : State) : AccountKept (ledFlagged s) (ledSettle s) := by
  unfold ledSettle
  dsimp only
  split
  · exact (ledEval_accountKept s).trans (ckptStart_accountKept _ _)
  · exact ledEval_accountKept s

-- Pulses ----------------------------------------------------------------------------------------------------------------------------

/-- `n` discharge pulses in the lifetime counter, the remainder and life_wh. -/
def dischargeMetered (s : State) (n : Nat) : State :=
  kPut (kPut (set64 (keepTouch s) W.ledDpulseLo W.ledDpulseHi (get64 s W.ledDpulseLo W.ledDpulseHi + n)) K.accD 4
    ((kGet s K.accD 4 + 1000 * n) % meterK s)) K.life 8 (kGet s K.life 8 + (kGet s K.accD 4 + 1000 * n) / meterK s)

/-- `n` charge pulses in the lifetime counter and the remainder. -/
def chargeMetered (s : State) (n : Nat) : State :=
  kPut (set64 (keepTouch s) W.ledCpulseLo W.ledCpulseHi (get64 s W.ledCpulseLo W.ledCpulseHi + n)) K.accC 4
    ((kGet s K.accC 4 + 1000 * n) % meterK s)

theorem dischargeMetered_getW (s : State) (n o : Nat) (h : o ∉ [W.pmStat, W.ledDpulseLo, W.ledDpulseHi]) :
    (dischargeMetered s n).getW o = s.getW o := by
  simp only [List.mem_cons, List.not_mem_nil, or_false, not_or] at h
  obtain ⟨pm, lo, hi⟩ := h
  rw [dischargeMetered, kPut_getW _ _ _ _ _ pm, kPut_getW _ _ _ _ _ pm, getW_set64_ne _ _ _ _ _ lo hi, keepTouch_getW _ _ pm]

theorem chargeMetered_getW (s : State) (n o : Nat) (h : o ∉ [W.pmStat, W.ledCpulseLo, W.ledCpulseHi]) :
    (chargeMetered s n).getW o = s.getW o := by
  simp only [List.mem_cons, List.not_mem_nil, or_false, not_or] at h
  obtain ⟨pm, lo, hi⟩ := h
  rw [chargeMetered, kPut_getW _ _ _ _ _ pm, getW_set64_ne _ _ _ _ _ lo hi, keepTouch_getW _ _ pm]

/-- Counting pulses leaves what their conversion reads as it stood. -/
theorem counted_reads (s : State) (lo hi v : Nat) (h : W.ledDpulseLo ≤ lo ∧ lo ≤ W.ledCpulseHi) (h' : W.ledDpulseLo ≤ hi ∧ hi ≤ W.ledCpulseHi) :
    meterK (set64 (keepTouch s) lo hi v) = meterK s ∧ ∀ a n, kGet (set64 (keepTouch s) lo hi v) a n = kGet s a n := by
  have ctrl : (set64 (keepTouch s) lo hi v).getW W.ledCtrl = s.getW W.ledCtrl := by
    simp only [W.ledDpulseLo, W.ledCpulseHi] at h h'
    rw [getW_set64_ne _ _ _ _ _ (by simp only [W.ledCtrl]; omega) (by simp only [W.ledCtrl]; omega), keepTouch_getW _ _ (by decide)]
  have perKwh : (set64 (keepTouch s) lo hi v).get F.ledCtrl_meterK = s.get F.ledCtrl_meterK := congrArg (wBits · 31 16) ctrl
  exact ⟨by rw [meterK, meterK, perKwh], fun a n => kGet_congr rfl a n⟩

/-- Discharge pulses, every value read before them. -/
theorem ledDischarge_eq (s : State) (n : Nat) (pos : n ≠ 0) : ledDischarge s n =
    if s.on F.ledStat_open then
      ledSetCredit ((dischargeMetered s n).bump F.ledLeasewh_leaseWh ((kGet s K.accD 4 + 1000 * n) / meterK s))
        (ledCredit s - ((kGet s K.accD 4 + 1000 * n) / meterK s : Nat))
    else dischargeMetered s n := by
  obtain ⟨k, keep⟩ := counted_reads s W.ledDpulseLo W.ledDpulseHi (get64 s W.ledDpulseLo W.ledDpulseHi + n) (by decide) (by decide)
  have open_ : (dischargeMetered s n).on F.ledStat_open = s.on F.ledStat_open := by
    rw [State.on, State.on, State.get, State.get, dischargeMetered_getW s n _ (by decide)]
  have credit : ledCredit (dischargeMetered s n) = ledCredit s := congrArg wh (dischargeMetered_getW s n _ (by decide))
  unfold dischargeMetered at *
  unfold ledDischarge
  simp only [pos, if_false, k, keep, open_, credit]

/-- Charge pulses, every value read before them. -/
theorem ledCharge_eq (s : State) (n : Nat) (pos : n ≠ 0) : ledCharge s n =
    if s.on F.ledStat_open ∧ s.on F.ledCtrl_net then
      let back := min ((kGet s K.accC 4 + 1000 * n) / meterK s) (s.get F.ledLeasewh_leaseWh)
      ledSetCredit ((chargeMetered s n).set F.ledLeasewh_leaseWh (s.get F.ledLeasewh_leaseWh - back)) (ledCredit s + back)
    else chargeMetered s n := by
  obtain ⟨k, keep⟩ := counted_reads s W.ledCpulseLo W.ledCpulseHi (get64 s W.ledCpulseLo W.ledCpulseHi + n) (by decide) (by decide)
  have read : ∀ f : Fd, f.off ∉ [W.pmStat, W.ledCpulseLo, W.ledCpulseHi] → (chargeMetered s n).get f = s.get f := fun f h => by
    rw [State.get, State.get, chargeMetered_getW s n _ h]
  have open_ : (chargeMetered s n).on F.ledStat_open = s.on F.ledStat_open := congrArg (· != 0) (read _ (by decide))
  have net : (chargeMetered s n).on F.ledCtrl_net = s.on F.ledCtrl_net := congrArg (· != 0) (read _ (by decide))
  have released := read F.ledLeasewh_leaseWh (by decide)
  have credit : ledCredit (chargeMetered s n) = ledCredit s := congrArg wh (chargeMetered_getW s n _ (by decide))
  unfold chargeMetered at *
  unfold ledCharge
  simp only [pos, if_false, k, keep, open_, net, released, credit]

end Sys2Proof.Machine
end

section
/-! SUPPORT. What pulses leave alone, and what PULSE_APPLY comes to (R67 to R71). -/

namespace Sys2Proof.Machine

theorem meterK_bounds (s : State) : 0 < meterK s ∧ meterK s < 2 ^ 16 := by
  have : s.get F.ledCtrl_meterK < 2 ^ 16 := get_lt s F.ledCtrl_meterK
  unfold meterK
  split <;> omega

-- Discharge -------------------------------------------------------------------------------------------------------------------------

theorem ledSetCredit_getW (s : State) (x : Int) (o : Nat) (h : o ≠ W.ledCredit) : (ledSetCredit s x).getW o = s.getW o :=
  getW_set_ne _ _ _ _ h

theorem ledDischarge_getW (s : State) (n o : Nat) (h : o ∉ [W.pmStat, W.ledDpulseLo, W.ledDpulseHi, W.ledLeasewh, W.ledCredit]) :
    (ledDischarge s n).getW o = s.getW o := by
  by_cases pos : n = 0
  · simp [ledDischarge, pos]
  · rw [ledDischarge_eq s n pos]
    simp only [List.mem_cons, List.not_mem_nil, or_false, not_or] at h
    obtain ⟨pm, lo, hi, released, credit⟩ := h
    have metered := dischargeMetered_getW s n o (by simp [pm, lo, hi])
    split
    · rw [ledSetCredit_getW _ _ _ credit, State.bump, getW_set_ne _ _ _ _ released, metered]
    · exact metered

theorem ledCharge_getW (s : State) (n o : Nat) (h : o ∉ [W.pmStat, W.ledCpulseLo, W.ledCpulseHi, W.ledLeasewh, W.ledCredit]) :
    (ledCharge s n).getW o = s.getW o := by
  by_cases pos : n = 0
  · simp [ledCharge, pos]
  · rw [ledCharge_eq s n pos]
    simp only [List.mem_cons, List.not_mem_nil, or_false, not_or] at h
    obtain ⟨pm, lo, hi, released, credit⟩ := h
    have metered := chargeMetered_getW s n o (by simp [pm, lo, hi])
    split
    · rw [ledSetCredit_getW _ _ _ credit, getW_set_ne _ _ _ _ released, metered]
    · exact metered

/-- Of the ledger's part, pulses touch the mark of an unsaved change alone. -/
theorem ledDischarge_led (s : State) (n : Nat) : ∃ b, (ledDischarge s n).led = { s.led with touched := b } := by
  by_cases pos : n = 0
  · exact ⟨s.led.touched, by simp [ledDischarge, pos]⟩
  · refine ⟨true, ?_⟩
    rw [ledDischarge_eq s n pos]
    split <;> rfl

theorem ledCharge_led (s : State) (n : Nat) : ∃ b, (ledCharge s n).led = { s.led with touched := b } := by
  by_cases pos : n = 0
  · exact ⟨s.led.touched, by simp [ledCharge, pos]⟩
  · refine ⟨true, ?_⟩
    rw [ledCharge_eq s n pos]
    split <;> rfl

-- What pulses of one kind come to ------------------------------------------------------------------------------------------------------

/-- Discharge pulses: the lifetime count, the remainder, life_wh and CREDIT (R68, R71, R77). -/
theorem ledDischarge_leaves (s : State) (n : Nat) (pos : n ≠ 0) :
    let acc := kGet s K.accD 4 + 1000 * n
    let t := ledDischarge s n
    get64 t W.ledDpulseLo W.ledDpulseHi = (get64 s W.ledDpulseLo W.ledDpulseHi + n) % 2 ^ 64 ∧
    kGet t K.accD 4 = acc % meterK s ∧ kGet t K.life 8 = (kGet s K.life 8 + acc / meterK s) % 2 ^ 64 ∧
    ledCredit t = (if s.on F.ledStat_open then whClamp (ledCredit s - (acc / meterK s : Nat)) else ledCredit s) := by
  intro acc t
  let m := dischargeMetered s n
  have cases_ : t.keep = m.keep ∧ (∀ o ∈ [W.ledDpulseLo, W.ledDpulseHi], t.getW o = m.getW o) ∧
      ledCredit t = (if s.on F.ledStat_open then whClamp (ledCredit s - (acc / meterK s : Nat)) else ledCredit s) := by
    simp only [t, ledDischarge_eq s n pos]
    split
    · refine ⟨rfl, fun o mem => ?_, ledCredit_ledSetCredit _ _⟩
      have apart : o ≠ W.ledCredit ∧ o ≠ W.ledLeasewh := by
        revert o
        decide
      rw [ledSetCredit_getW _ _ _ apart.1, State.bump, getW_set_ne _ _ _ _ apart.2]
    · exact ⟨rfl, fun _ _ => rfl, congrArg wh (dischargeMetered_getW s n _ (by decide))⟩
  obtain ⟨keep, words, credit⟩ := cases_
  refine ⟨?count, ?remainder, ?life, credit⟩
  case count =>
    rw [get64_congr (words _ (by decide)) (words _ (by decide)),
      ← get64_set64_same (keepTouch s) W.ledDpulseLo W.ledDpulseHi _ (by decide)]
    refine get64_congr ?_ ?_ <;> simp only [m, dischargeMetered] <;>
      rw [kPut_getW _ _ _ _ _ (by decide), kPut_getW _ _ _ _ _ (by decide)]
  case remainder =>
    obtain ⟨some_, small⟩ := meterK_bounds s
    have fits : acc % meterK s < 256 ^ 4 := Nat.lt_trans (Nat.mod_lt _ some_) (Nat.lt_trans small (by decide))
    calc kGet t K.accD 4 = kGet m K.accD 4 := kGet_congr keep _ _
      _ = acc % meterK s % 256 ^ 4 := (kGet_kPut_ne _ K.life 8 _ K.accD 4 (by decide)).trans (kGet_kPut_same _ K.accD 4 _)
      _ = acc % meterK s := Nat.mod_eq_of_lt fits
  case life => exact (kGet_congr keep _ _).trans (kGet_kPut_same _ K.life 8 _)

/-- Charge pulses: the lifetime count and CREDIT (R68, R69, R71). -/
theorem ledCharge_leaves (s : State) (n : Nat) (pos : n ≠ 0) :
    let back := min ((kGet s K.accC 4 + 1000 * n) / meterK s) (s.get F.ledLeasewh_leaseWh)
    get64 (ledCharge s n) W.ledCpulseLo W.ledCpulseHi = (get64 s W.ledCpulseLo W.ledCpulseHi + n) % 2 ^ 64 ∧
    ledCredit (ledCharge s n) = (if s.on F.ledStat_open ∧ s.on F.ledCtrl_net then whClamp (ledCredit s + back) else ledCredit s) := by
  intro back
  have count : get64 (chargeMetered s n) W.ledCpulseLo W.ledCpulseHi = (get64 s W.ledCpulseLo W.ledCpulseHi + n) % 2 ^ 64 := by
    rw [← get64_set64_same (keepTouch s) W.ledCpulseLo W.ledCpulseHi _ (by decide)]
    refine get64_congr ?_ ?_ <;> exact kPut_getW _ _ _ _ _ (by decide)
  rw [ledCharge_eq s n pos]
  split
  · refine ⟨?_, ledCredit_ledSetCredit _ _⟩
    rw [← count]
    refine get64_congr ?_ ?_ <;> rw [ledSetCredit_getW _ _ _ (by decide), getW_set_ne _ _ _ _ (by decide)]
  · exact ⟨count, congrArg wh (chargeMetered_getW s n _ (by decide))⟩

-- Every pulse taken -----------------------------------------------------------------------------------------------------------------

/-- The pulses of the meter counters noted as taken. -/
def pulsesTaken (s : State) : State := ledUpd s fun l => { l with takenD := s.get F.vioEpdcnt_count, takenC := s.get F.vioEpccnt_count }

theorem ledCatchUp_of_counts (s : State) (counts : ledCounts s = true) :
    ledCatchUp s = ledCharge (ledDischarge (pulsesTaken s) (ledNew s).1) (ledNew s).2 := by
  simp [ledCatchUp, counts, pulsesTaken]

theorem ledCatchUp_of_not_counts (s : State) (rests : ledCounts s = false) : ledCatchUp s = s := by simp [ledCatchUp, rests]

theorem ledCatchUp_getW (s : State) (o : Nat)
    (h : o ∉ [W.pmStat, W.ledDpulseLo, W.ledDpulseHi, W.ledCpulseLo, W.ledCpulseHi, W.ledLeasewh, W.ledCredit]) :
    (ledCatchUp s).getW o = s.getW o := by
  cases counts : ledCounts s with
  | false => rw [ledCatchUp_of_not_counts s counts]
  | true =>
    simp only [List.mem_cons, List.not_mem_nil, or_false, not_or] at h
    rw [ledCatchUp_of_counts s counts, ledCharge_getW _ _ _ (by simp [h]), ledDischarge_getW _ _ _ (by simp [h])]
    rfl

theorem ledCatchUp_taken (s : State) (counts : ledCounts s = true) :
    (ledCatchUp s).led.takenD = s.get F.vioEpdcnt_count ∧ (ledCatchUp s).led.takenC = s.get F.vioEpccnt_count := by
  rw [ledCatchUp_of_counts s counts]
  obtain ⟨_, discharged⟩ := ledDischarge_led (pulsesTaken s) (ledNew s).1
  obtain ⟨_, charged⟩ := ledCharge_led (ledDischarge (pulsesTaken s) (ledNew s).1) (ledNew s).2
  rw [charged, discharged]
  exact ⟨rfl, rfl⟩

/-- No pulse is new where both counters stand as they were taken. -/
theorem ledNew_of_taken (s : State) (hd : s.led.takenD = s.get F.vioEpdcnt_count) (hc : s.led.takenC = s.get F.vioEpccnt_count) :
    ledNew s = (0, 0) := by
  have none_ : ∀ n : Nat, (n + 2 ^ 32 - n) % 2 ^ 32 = 0 := fun n => by rw [Nat.add_sub_cancel_left, Nat.mod_self]
  rw [ledNew, hd, hc, none_, none_]

theorem ledApplyAll_of_none (s : State) (h : ledNew s = (0, 0)) : ledApplyAll s = s := by simp [ledApplyAll, h]

theorem ledApplyAll_of_rests (s : State) (h : ledCounts s = false) : ledApplyAll s = s := by simp [ledApplyAll, h]

theorem ledApplyAll_of_new (s : State) (new : ledNew s ≠ (0, 0)) (counts : ledCounts s = true) :
    ledApplyAll s = ledSettle (ledCatchUp s) := by simp [ledApplyAll, new, counts]

/-- Once the pulses are taken none is new (R67). -/
theorem ledNew_ledSettle (s : State) (counts : ledCounts s = true) : ledNew (ledSettle (ledCatchUp s)) = (0, 0) := by
  have account := ledSettle_accountKept (ledCatchUp s)
  obtain ⟨hd, hc⟩ := ledCatchUp_taken s counts
  have counter : ∀ o ∈ [W.vioEpdcnt, W.vioEpccnt], (ledSettle (ledCatchUp s)).getW o = s.getW o := by
    intro o mem
    have apart : (0x7800 ≤ o ∨ o = W.nvProt) ∧ o ∉ [W.ledStat, W.ledKseq, W.ledEvf, W.plCnt1] ∧ o ≠ W.ledAvail ∧ o ≠ W.ledStat ∧
        o ∉ [W.pmStat, W.ledDpulseLo, W.ledDpulseHi, W.ledCpulseLo, W.ledCpulseHi, W.ledLeasewh, W.ledCredit] := by
      revert o
      decide
    obtain ⟨lo, ne, avail, stat, pulses⟩ := apart
    rw [account.getW o lo ne, ledFlagged_getW _ _ avail stat, ledCatchUp_getW s o pulses]
  refine ledNew_of_taken _ ?_ ?_
  · rw [account.takenD, ledFlagged_led, hd, State.get, State.get, counter _ (by decide)]
  · rw [account.takenC, ledFlagged_led, hc, State.get, State.get, counter _ (by decide)]

/-- Applying pulses twice applies them once (R67). -/
theorem ledApplyAll_idempotent (s : State) : ledApplyAll (ledApplyAll s) = ledApplyAll s := by
  by_cases new : ledNew s = (0, 0)
  · rw [ledApplyAll_of_none s new, ledApplyAll_of_none s new]
  · cases counts : ledCounts s with
    | false => rw [ledApplyAll_of_rests s counts, ledApplyAll_of_rests s counts]
    | true => rw [ledApplyAll_of_new s new counts, ledApplyAll_of_none _ (ledNew_ledSettle s counts)]

theorem ledApply_idempotent (s : State) : ledApply (ledApply s) = ledApply s := by
  cases stopped : isStopped s 34 with
  | true => simp [ledApply, stopped]
  | false =>
    have once : ledApply s = ledApplyAll s := by simp [ledApply, stopped]
    rw [once, ledApply, ledApplyAll_idempotent, ite_self]

/-- What a running ledger shows after pulses: the account that they come to, with AVAIL and its flags evaluated on it. -/
theorem ledApply_of_new (s : State) (runs : isStopped s 34 = false) (new : ledNew s ≠ (0, 0)) (counts : ledCounts s = true) :
    AccountKept (ledFlagged (ledCatchUp s)) (ledApply s) := by
  have applied : ledApply s = ledSettle (ledCatchUp s) := by rw [← ledApplyAll_of_new s new counts]; simp [ledApply, runs]
  exact applied ▸ ledSettle_accountKept _

theorem ledFlagged_word {s t : State} (account : AccountKept (ledFlagged s) t) (o : Nat) (lo : 0x7800 ≤ o ∨ o = W.nvProt)
    (ne : o ∉ [W.ledStat, W.ledKseq, W.ledEvf, W.plCnt1, W.ledAvail]) : t.getW o = s.getW o := by
  simp only [List.mem_cons, List.not_mem_nil, or_false, not_or] at ne
  obtain ⟨stat, kseq, evf, lost, avail⟩ := ne
  rw [account.getW o lo (by simp [stat, kseq, evf, lost]), ledFlagged_getW s o avail stat]

theorem ledFlagged_field {s t : State} (account : AccountKept (ledFlagged s) t) (f : Fd) (lo : 0x7800 ≤ f.off ∨ f.off = W.nvProt)
    (ne : f.off ∉ [W.ledStat, W.ledKseq, W.ledEvf, W.plCnt1, W.ledAvail]) : t.get f = s.get f :=
  congrArg (wBits · f.hi f.lo) (ledFlagged_word account f.off lo ne)

/-- PULSE_APPLY with discharge pulses alone. -/
theorem ledApply_discharges (s : State) (runs : isStopped s 34 = false) (counts : ledCounts s = true) (d : Nat) (pos : d ≠ 0)
    (new : ledNew s = (d, 0)) :
    let acc := kGet s K.accD 4 + 1000 * d
    let t := ledApply s
    get64 t W.ledDpulseLo W.ledDpulseHi = (get64 s W.ledDpulseLo W.ledDpulseHi + d) % 2 ^ 64 ∧
    kGet t K.accD 4 = acc % meterK s ∧ kGet t K.life 8 = (kGet s K.life 8 + acc / meterK s) % 2 ^ 64 ∧
    ledCredit t = (if s.on F.ledStat_open then whClamp (ledCredit s - (acc / meterK s : Nat)) else ledCredit s) ∧ AvailShown t := by
  intro acc t
  have account : AccountKept (ledFlagged (ledCatchUp s)) t := ledApply_of_new s runs (by simp [new, pos]) counts
  have keep := account.keep.trans (ledFlagged_keep _)
  have caught : ledCatchUp s = ledDischarge (pulsesTaken s) d := by
    rw [ledCatchUp_of_counts s counts, new]
    simp [ledCharge]
  obtain ⟨count, remainder, life, credit⟩ := ledDischarge_leaves (pulsesTaken s) d pos
  rw [← caught] at count remainder life credit
  refine ⟨?_, (kGet_congr keep _ _).trans remainder, (kGet_congr keep _ _).trans life,
    (account.credit.trans (ledFlagged_credit _)).trans credit, account.availShown (ledFlagged_availShown _)⟩
  exact (get64_congr (ledFlagged_word account _ (by decide) (by decide)) (ledFlagged_word account _ (by decide) (by decide))).trans count

/-- PULSE_APPLY with charge pulses alone. -/
theorem ledApply_charges (s : State) (runs : isStopped s 34 = false) (counts : ledCounts s = true) (c : Nat) (pos : c ≠ 0)
    (new : ledNew s = (0, c)) :
    let back := min ((kGet s K.accC 4 + 1000 * c) / meterK s) (s.get F.ledLeasewh_leaseWh)
    let t := ledApply s
    get64 t W.ledCpulseLo W.ledCpulseHi = (get64 s W.ledCpulseLo W.ledCpulseHi + c) % 2 ^ 64 ∧
    ledCredit t = (if s.on F.ledStat_open ∧ s.on F.ledCtrl_net then whClamp (ledCredit s + back) else ledCredit s) := by
  intro back t
  have account : AccountKept (ledFlagged (ledCatchUp s)) t := ledApply_of_new s runs (by simp [new, pos]) counts
  have caught : ledCatchUp s = ledCharge (pulsesTaken s) c := by
    rw [ledCatchUp_of_counts s counts, new]
    simp [ledDischarge]
  obtain ⟨count, credit⟩ := ledCharge_leaves (pulsesTaken s) c pos
  rw [← caught] at count credit
  refine ⟨?_, (account.credit.trans (ledFlagged_credit _)).trans credit⟩
  exact (get64_congr (ledFlagged_word account _ (by decide) (by decide)) (ledFlagged_word account _ (by decide) (by decide))).trans count

end Sys2Proof.Machine
end


section
/-! PROOF. O22 and O23: PULSE_APPLY. -/

namespace Sys2Proof.Machine

/-- Settles O22: where pulses were applied the meter counters stand as taken, and nothing is new. -/
theorem ledgerPulsesOnce : Obligations.LedgerPulsesOnce := by
  unfold Obligations.LedgerPulsesOnce
  exact fun s => ⟨ledApply s, rfl, ledApply (ledApply s), rfl, ledApply_idempotent s⟩

/-- Settles O23: pulses of one kind by the lemma about them, and the flags by their evaluation. -/
theorem ledgerConvertsPulses : Obligations.LedgerConvertsPulses := by
  unfold Obligations.LedgerConvertsPulses
  intro s runs awake mode done copy closing d c accD whD whC sat
  have counts : ledCounts s = true := by
    have : (s.get F.pmStat_current == 7) = false := by simp; omega
    simp [ledCounts, nvHoldup, awake, this, done, copy, closing]
  refine ⟨fun hd hc => ⟨ledApply s, rfl, ?_⟩, fun hd hc => ⟨ledApply s, rfl, ?_⟩⟩
  · have new : ledNew s = (d, 0) := Prod.ext rfl hc
    obtain ⟨count, remainder, life, credit, avail, ex, low, inGrace⟩ := ledApply_discharges s runs counts d (Nat.ne_of_gt hd) new
    exact ⟨count, remainder, life, credit, avail, ex, low, inGrace⟩
  · have new : ledNew s = (0, c) := Prod.ext hd rfl
    obtain ⟨count, credit⟩ := ledApply_charges s runs counts c (Nat.ne_of_gt hc) new
    exact ⟨count, credit⟩

end Sys2Proof.Machine
end

section
/-! PROOF. O24: checkpoints. -/

namespace Sys2Proof.Machine

/-- A request that the NV store takes behind a page write in progress joins the custody queue. -/
theorem nvSubmit_cust (s : State) (k : NvKind) (own : Bool) (src : Nat) (cont : NvCont) (h : NvTakes s own k) :
    (nvSubmit s k true own src cont).2 = withCust s [nvJob k true own src cont] := by
  obtain ⟨open_, awake, busy⟩ := h
  simp [nvSubmit, open_, awake, nvKick, busy, withCust, nvJob]

/-- Of a write on the device's own account, the store looks at the device's state alone: the bytes, or where they go, make no
difference (R397). -/
theorem nvTakes_both {s t : State} {d d' : RecDesc} {q q' : Nat} {p p' : List Byte} (h : NvTakes s true (.both d q p))
    (bp : t.get F.nvProt_bp = s.get F.nvProt_bp) (mode : t.get F.pmStat_current = s.get F.pmStat_current) (nv : t.nv = s.nv) :
    NvTakes t true (.both d' q' p') := by
  obtain ⟨open_, awake, busy⟩ := h
  refine ⟨?_, ?_, nv ▸ busy⟩
  · simpa [nvProtected, bp] using open_
  · rwa [nvHoldup, mode]

/-- A checkpoint that the NV store takes (R88, R89). -/
theorem ckptStart_handsOver (s : State) (pages : Bool) (idle : s.on F.ledStat_ckptBusy = false) {d : RecDesc} {q : Nat} {p : List Byte}
    (takes : NvTakes s true (.both d q p)) :
    let k := (s.get F.ledKseq_kseq + 1) % 2 ^ 32
    let b := ckptBegun (ckptWanted s pages)
    ckptStart s pages = withCust b [nvJob (.both (recKeep (k % 16)) k (keepBytes b)) true true 14 .checkpoint] := by
  intro k b
  have bp : s.get F.nvProt_bp ≠ 3 := by
    obtain ⟨open_, -, -⟩ := takes
    simpa [nvProtected] using open_
  have prot : b.get F.nvProt_bp = s.get F.nvProt_bp := (ckptBegun_accountKept _).get F.nvProt_bp (by decide) (by decide)
  have mode : b.get F.pmStat_current = s.get F.pmStat_current := by
    rw [State.get, State.get, ckptBegun_getW, getW_set_ne _ _ _ _ (by decide), keepSaveBegin_getW _ _ (by decide) (by decide)]
    rfl
  have kseq : b.get F.ledKseq_kseq = k := ckptBegun_kseq _
  rw [ckptStart_begins s pages idle bp, nvOwn, nvSubmit_cust b _ _ _ _ (nvTakes_both takes prot mode (ckptBegun_nv _)), kseq]

/-- Settles O24: a checkpoint that begins, one that follows the running one, and one that block protect refuses. -/
theorem ledgerCheckpoints : Obligations.LedgerCheckpoints := by
  unfold Obligations.LedgerCheckpoints
  intro s c hc k
  obtain ⟨pages, run⟩ : ∃ pages, exec c s = .next (ckptStart s pages) := by
    simp only [List.mem_cons, List.not_mem_nil, or_false] at hc
    rcases hc with rfl | rfl
    · exact ⟨true, rfl⟩
    · exact ⟨false, rfl⟩
  refine ⟨fun idle takes => ⟨_, run, ?begins⟩, fun busy => ⟨_, run, ?again⟩, fun idle bp none_ => ⟨_, run, ?refused⟩⟩
  case begins =>
    rw [ckptStart_handsOver s pages idle takes]
    have kseq : (ckptBegun (ckptWanted s pages)).get F.ledKseq_kseq = k := ckptBegun_kseq _
    have busy := ckptBegun_busy (ckptWanted s pages)
    have tokens : (ckptBegun (ckptWanted s pages)).led.tokNow = s.led.tokNext := ckptBegun_tokNow _
    have nv : (ckptBegun (ckptWanted s pages)).nv = s.nv := ckptBegun_nv _
    generalize ckptBegun (ckptWanted s pages) = b at *
    exact ⟨kseq, busy, tokens, keepBytes b, by simp [keepBytes, memRead], by rw [withCust, nv]⟩
  case again =>
    rw [ckptStart_busy s pages busy]
    exact ⟨rfl, rfl⟩
  case refused =>
    rw [ckptStart_refused s pages idle bp, none_]
    exact ⟨rfl, get_bump_same (ckptWanted s pages) F.nvCnt_refused 1 (by decide) (by decide)⟩

end Sys2Proof.Machine
end

section
/-! SUPPORT. Tokens (R81 to R86): what takes a token that passes its checks, the effect of each type, and the account it leaves. -/

namespace Sys2Proof.Machine

-- The credit that pulses leave --------------------------------------------------------------------------------------------------------

/-- `t` agrees with `s` in what the conversion of pulses reads and in CREDIT. -/
structure SameMeter (s t : State) : Prop where
  ctrl     : t.getW W.ledCtrl = s.getW W.ledCtrl
  stat     : t.getW W.ledStat = s.getW W.ledStat
  credit   : t.getW W.ledCredit = s.getW W.ledCredit
  released : t.getW W.ledLeasewh = s.getW W.ledLeasewh
  keep     : t.keep = s.keep

namespace SameMeter

variable {s t : State} (h : SameMeter s t)
include h

theorem meterK_eq : meterK t = meterK s := by
  have perKwh : t.get F.ledCtrl_meterK = s.get F.ledCtrl_meterK := congrArg (wBits · 31 16) h.ctrl
  rw [meterK, meterK, perKwh]

theorem open_eq : t.on F.ledStat_open = s.on F.ledStat_open := congrArg (wBits · 0 0 != 0) h.stat

theorem net_eq : t.on F.ledCtrl_net = s.on F.ledCtrl_net := congrArg (wBits · 0 0 != 0) h.ctrl

theorem credit_eq : ledCredit t = ledCredit s := congrArg wh h.credit

theorem released_eq : t.get F.ledLeasewh_leaseWh = s.get F.ledLeasewh_leaseWh := congrArg (wBits · 31 0) h.released

theorem setW (o : Nat) (w : W32) : SameMeter (s.setW o w) (t.setW o w) := by
  have word : ∀ p, t.getW p = s.getW p → (t.setW o w).getW p = (s.setW o w).getW p := by
    intro p same
    by_cases e : p = o
    · rw [e, getW_setW_same, getW_setW_same]
    · rw [getW_setW_ne _ _ _ _ e, getW_setW_ne _ _ _ _ e, same]
  exact ⟨word _ h.ctrl, word _ h.stat, word _ h.credit, word _ h.released, h.keep⟩

theorem setReleased (n : Nat) : SameMeter (s.set F.ledLeasewh_leaseWh n) (t.set F.ledLeasewh_leaseWh n) := by
  rw [set_word, set_word]
  exact h.setW _ _

theorem ledSetCredit (x : Int) : SameMeter (Machine.ledSetCredit s x) (Machine.ledSetCredit t x) := by
  rw [Machine.ledSetCredit, Machine.ledSetCredit, set_word, set_word]
  exact h.setW _ _

theorem ledDischarge (n : Nat) : SameMeter (ledDischarge s n) (ledDischarge t n) := by
  have metered : SameMeter (dischargeMetered s n) (dischargeMetered t n) := by
    have words : ∀ o ∉ [W.pmStat, W.ledDpulseLo, W.ledDpulseHi], t.getW o = s.getW o →
        (dischargeMetered t n).getW o = (dischargeMetered s n).getW o := fun o ne same => by
      rw [dischargeMetered_getW t n o ne, dischargeMetered_getW s n o ne, same]
    refine ⟨words _ (by decide) h.ctrl, words _ (by decide) h.stat, words _ (by decide) h.credit, words _ (by decide) h.released, ?_⟩
    rw [dischargeMetered, dischargeMetered, kPut_keep, kPut_keep, kPut_keep, kPut_keep, kGet_congr h.keep, kGet_congr h.keep, h.meterK_eq]
    exact congrArg (fun m => memWrite (memWrite m _ _) _ _) h.keep
  by_cases pos : n = 0
  · simpa [Machine.ledDischarge, pos] using h
  · rw [ledDischarge_eq s n pos, ledDischarge_eq t n pos, kGet_congr h.keep, h.meterK_eq, h.open_eq, h.credit_eq]
    split
    · rw [State.bump, State.bump, metered.released_eq]
      exact (metered.setReleased _).ledSetCredit _
    · exact metered

theorem ledCharge (n : Nat) : SameMeter (ledCharge s n) (ledCharge t n) := by
  have metered : SameMeter (chargeMetered s n) (chargeMetered t n) := by
    have words : ∀ o ∉ [W.pmStat, W.ledCpulseLo, W.ledCpulseHi], t.getW o = s.getW o →
        (chargeMetered t n).getW o = (chargeMetered s n).getW o := fun o ne same => by
      rw [chargeMetered_getW t n o ne, chargeMetered_getW s n o ne, same]
    refine ⟨words _ (by decide) h.ctrl, words _ (by decide) h.stat, words _ (by decide) h.credit, words _ (by decide) h.released, ?_⟩
    rw [chargeMetered, chargeMetered, kPut_keep, kPut_keep, kGet_congr h.keep, h.meterK_eq]
    exact congrArg (fun m => memWrite m _ _) h.keep
  by_cases pos : n = 0
  · simpa [Machine.ledCharge, pos] using h
  · rw [ledCharge_eq s n pos, ledCharge_eq t n pos, kGet_congr h.keep, h.meterK_eq, h.open_eq, h.net_eq, h.credit_eq, h.released_eq]
    split
    · exact (metered.setReleased _).ledSetCredit _
    · exact metered

/-- Two ledgers that agree in what the conversion reads come to the same CREDIT when each takes the same pulses. -/
theorem ledCatchUp (counts : ledCounts t = ledCounts s) (new : ledNew t = ledNew s) : SameMeter (ledCatchUp s) (ledCatchUp t) := by
  have taken : SameMeter (pulsesTaken s) (pulsesTaken t) := ⟨h.ctrl, h.stat, h.credit, h.released, h.keep⟩
  cases c : ledCounts s with
  | false =>
    rw [ledCatchUp_of_not_counts s c, ledCatchUp_of_not_counts t (counts.trans c)]
    exact h
  | true =>
    rw [ledCatchUp_of_counts s c, ledCatchUp_of_counts t (counts.trans c), new]
    exact (taken.ledDischarge _).ledCharge _

end SameMeter

-- The way to an authentic token -------------------------------------------------------------------------------------------------------

/-- A token whose masks are drawn and whose tag verifies is taken as an authentic one (R81). -/
theorem ledFrame_authentic (s u : State) (req : Req) (token bits k body : List Byte) (runs : noNewWork s 34 = false)
    (free : s.led.policy = none) (check : tokCheck s token = none) (draws : maskDraws 2 s = .bits bits u) (key : lessorKey s "LTOK" = some k)
    (opens : gcmOpen k (slice token 44 12) (token.take 56) (slice token 56 (token.length - 72)) (token.drop (token.length - 16)) = some body) :
    ledFrame s req true token = tokAuthentic u req token body := by
  have key' : lessorKey u "LTOK" = some k := by
    rw [maskDraws_rng 2 draws]
    exact key
  simp [ledFrame, runs, free, ledTake, check, ledCrypto, draws, key', opens]

theorem tokAuthentic_replay (s : State) (req : Req) (token body : List Byte) (old : leAt token 24 8 ≤ get64 s W.ledSeqLo W.ledSeqHi) :
    tokAuthentic s req token body = tokComplete s ⟨req, leAt token 1 1, St.tokenReplay⟩ := by
  simp [tokAuthentic, old]

/-- LED_SEQ at the token's SEQ, which makes the token consumed (R82). -/
def tokConsumed (s : State) (token : List Byte) : State := set64 (keepTouch s) W.ledSeqLo W.ledSeqHi (leAt token 24 8)

@[simp] theorem tokConsumed_rtc (s : State) (token : List Byte) : (tokConsumed s token).rtc = s.rtc := by simp [tokConsumed, set64, keepTouch]

@[simp] theorem tokConsumed_keep (s : State) (token : List Byte) : (tokConsumed s token).keep = s.keep := by simp [tokConsumed, set64, keepTouch]

@[simp] theorem tokConsumed_led (s : State) (token : List Byte) : (tokConsumed s token).led = { s.led with touched := true } := by
  simp [tokConsumed, set64, keepTouch]

/-- A token that waits for its checkpoint (R84). -/
def tokQueued (s : State) (x : TokWait) : State := ledUpd s fun l => { l with tokNext := l.tokNext ++ [x] }

theorem tokConsumed_getW (s : State) (token : List Byte) (o : Nat) (h : o ∉ [W.pmStat, W.ledSeqLo, W.ledSeqHi]) :
    (tokConsumed s token).getW o = s.getW o := by
  simp only [List.mem_cons, List.not_mem_nil, or_false, not_or] at h
  obtain ⟨pm, lo, hi⟩ := h
  rw [tokConsumed, getW_set64_ne _ _ _ _ _ lo hi, keepTouch_getW _ _ pm]

theorem tokConsumed_seq (s : State) (token : List Byte) :
    get64 (tokConsumed s token) W.ledSeqLo W.ledSeqHi = leAt token 24 8 := by
  rw [tokConsumed, get64_set64_same _ _ _ _ (by decide)]
  exact Nat.mod_eq_of_lt (leAt_lt token 24 8)

/-- A fresh token in its window with a good body takes effect after the pulses not yet taken, and waits for its checkpoint. -/
theorem tokAuthentic_accepted (s : State) (req : Req) (token body : List Byte) (fresh : get64 s W.ledSeqLo W.ledSeqHi < leAt token 24 8)
    (sure : s.on F.ledStat_rtcUnsure = false) (after : leAt token 36 4 ≤ s.rtcSec) (before : s.rtcSec ≤ leAt token 40 4)
    (good : tokBodyOk (ledCatchUp (tokConsumed s token)) (leAt token 1 1) body = true) :
    tokAuthentic s req token body =
      ckptStart (tokQueued (tokApply (ledCatchUp (tokConsumed s token)) token body) ⟨req, leAt token 1 1, St.ok⟩) true := by
  have sure' : (tokConsumed s token).on F.ledStat_rtcUnsure = false := by
    rw [State.on, State.get, tokConsumed_getW s token _ (by decide)]
    exact sure
  have clock : (tokConsumed s token).rtcSec = s.rtcSec := by rw [State.rtcSec, State.rtcSec, tokConsumed_rtc]
  have window : ¬ (s.rtcSec < leAt token 36 4 ∨ leAt token 40 4 < s.rtcSec) := by omega
  unfold tokConsumed at *
  unfold tokAuthentic
  simp only [Nat.not_le_of_lt fresh, if_false]
  generalize set64 (keepTouch s) W.ledSeqLo W.ledSeqHi (leAt token 24 8) = v at *
  simp [sure', clock, window, good, tokQueued]

/-- Consuming a token changes nothing that pulses or their conversion depend on. -/
theorem tokConsumed_credit (s : State) (token : List Byte) :
    ledCredit (ledCatchUp (tokConsumed s token)) = ledCredit (ledCatchUp s) := by
  have words := fun o h => tokConsumed_getW s token o h
  have meter : SameMeter s (tokConsumed s token) :=
    ⟨words _ (by decide), words _ (by decide), words _ (by decide), words _ (by decide), tokConsumed_keep s token⟩
  have mode : (tokConsumed s token).get F.pmStat_current = s.get F.pmStat_current := by
    rw [State.get, tokConsumed, getW_set64_ne _ _ _ _ _ (by decide) (by decide)]
    exact get_set_disjoint _ F.pmStat_keepDirty F.pmStat_current 1 (by decide) (by decide) (by decide) rfl (by decide)
  have started : (tokConsumed s token).on F.clkStat_cfgDone = s.on F.clkStat_cfgDone := by
    rw [State.on, State.on, State.get, State.get, words _ (by decide)]
  have counts : ledCounts (tokConsumed s token) = ledCounts s := by
    rw [ledCounts, ledCounts, nvHoldup, nvHoldup, mode, started, tokConsumed_led]
  have new : ledNew (tokConsumed s token) = ledNew s := by
    rw [ledNew, ledNew, State.get, State.get, State.get, State.get, words _ (by decide), words _ (by decide), tokConsumed_led]
  exact (meter.ledCatchUp counts new).credit_eq

-- Effects -----------------------------------------------------------------------------------------------------------------------------

/-- The effect of a CREDIT_ADD, and of a LEASE_TERMS, before the flags follow (R78, R85). -/
def creditAdded (s : State) (b : List Byte) : State := (ledSetCredit s (ledCredit s + leAt b 0 4)).set F.ledGrace_graceWh (leAt b 4 4)

def termsTaken (s : State) (t b : List Byte) : State :=
  let s := ((s.set F.ledLease_leaseId (leAt t 20 4)).set F.ledWstart_leaseStart (leAt b 0 4)).set F.ledWend_leaseEnd (leAt b 4 4)
  ((s.set F.ledCtrl_meterK (leAt b 8 2)).set F.ledCtrl_net (leAt b 10 1)).set F.ledStat_open 1

theorem tokApply_credit (s : State) (t b : List Byte) (typ : leAt t 1 1 = 1) : tokApply s t b = ledEval (creditAdded s b) := by
  simp [tokApply, typ, creditAdded]

theorem tokApply_terms (s : State) (t b : List Byte) (typ : leAt t 1 1 = 2) : tokApply s t b = ledEval (termsTaken s t b) := by
  simp [tokApply, typ, termsTaken]

/-- What a token's effect leaves once its checkpoint is asked for: the account with its flags, and the token waiting for the checkpoint. -/
theorem ckptStart_queued (s : State) (x : TokWait) (bp : s.get F.nvProt_bp ≠ 3) :
    AccountKept (ledFlagged s) (ckptStart (tokQueued (ledEval s) x) true) ∧
    x ∈ (ckptStart (tokQueued (ledEval s) x) true).led.tokNow ++ (ckptStart (tokQueued (ledEval s) x) true).led.tokNext := by
  have queued : AccountKept (ledEval s) (tokQueued (ledEval s) x) := .of_regs rfl rfl rfl rfl
  have account := (ledEval_accountKept s).trans queued
  refine ⟨account.trans (ckptStart_accountKept _ _), ckptStart_tokens _ true ?_ ?_⟩
  · rwa [account.get F.nvProt_bp (by decide) (by decide), ledFlagged_get s _ (by decide) (by decide)]
  · simp [tokQueued]

/-- A good body of a CREDIT_ADD keeps CREDIT and GRACE_WH in range (R77). -/
theorem tokBodyOk_credit {s : State} {b : List Byte} (good : tokBodyOk s 1 b = true) :
    leAt b 4 4 < 2 ^ 31 ∧ ledCredit s + leAt b 0 4 < 2 ^ 31 := by
  simp only [tokBodyOk, if_true, Bool.and_eq_true, decide_eq_true_eq] at good
  obtain ⟨⟨⟨-, grace⟩, -⟩, credit⟩ := good
  exact ⟨grace, credit⟩

/-- A good body of a LEASE_TERMS has a NET of one bit. -/
theorem tokBodyOk_terms {s : State} {b : List Byte} (good : tokBodyOk s 2 b = true) : leAt b 10 1 ≤ 1 := by
  simp only [tokBodyOk, (by decide : (2 : Nat) ≠ 1), if_false, if_true, Bool.and_eq_true, decide_eq_true_eq] at good
  obtain ⟨⟨-, net⟩, -⟩ := good
  exact net

theorem creditAdded_leaves (s : State) (b : List Byte) (credit : ledCredit s + leAt b 0 4 < 2 ^ 31) :
    ledCredit (creditAdded s b) = ledCredit s + leAt b 0 4 ∧ (creditAdded s b).get F.ledGrace_graceWh = leAt b 4 4 := by
  obtain ⟨low, -⟩ := wh_bounds (s.getW W.ledCredit)
  have whole : whClamp (ledCredit s + leAt b 0 4) = ledCredit s + leAt b 0 4 := whClamp_of_bounds (by unfold ledCredit; omega) credit
  refine ⟨?_, get_set_of_lt _ F.ledGrace_graceWh _ (by decide) (by decide) (leAt_lt b 4 4)⟩
  rw [← whole, ← ledCredit_ledSetCredit s]
  exact congrArg wh (getW_set_ne _ _ _ _ (by decide))

theorem creditAdded_getW (s : State) (b : List Byte) (o : Nat) (hc : o ≠ W.ledCredit) (hg : o ≠ W.ledGrace) :
    (creditAdded s b).getW o = s.getW o := by
  rw [creditAdded, getW_set_ne _ _ _ _ hg, ledSetCredit_getW _ _ _ hc]

theorem termsTaken_getW (s : State) (t b : List Byte) (o : Nat) (h : o ∉ [W.ledLease, W.ledWstart, W.ledWend, W.ledCtrl, W.ledStat]) :
    (termsTaken s t b).getW o = s.getW o := by
  simp only [List.mem_cons, List.not_mem_nil, or_false, not_or] at h
  obtain ⟨lease, from_, till, ctrl, stat⟩ := h
  rw [termsTaken, getW_set_ne _ _ _ _ stat, getW_set_ne _ _ _ _ ctrl, getW_set_ne _ _ _ _ ctrl, getW_set_ne _ _ _ _ till,
    getW_set_ne _ _ _ _ from_, getW_set_ne _ _ _ _ lease]

theorem termsTaken_leaves (s : State) (t b : List Byte) (net : leAt b 10 1 ≤ 1) :
    let w := termsTaken s t b
    w.get F.ledLease_leaseId = leAt t 20 4 ∧ w.get F.ledWstart_leaseStart = leAt b 0 4 ∧ w.get F.ledWend_leaseEnd = leAt b 4 4 ∧
    w.get F.ledCtrl_meterK = leAt b 8 2 ∧ w.get F.ledCtrl_net = leAt b 10 1 ∧ w.on F.ledStat_open = true := by
  intro w
  have open_ : w.get F.ledStat_open = 1 := get_set_of_lt _ F.ledStat_open 1 (by decide) (by decide) (by decide)
  refine ⟨?_, ?_, ?_, ?_, ?_, by rw [State.on, open_]; rfl⟩ <;>
    simp (disch := decide) only [w, termsTaken, get_set_ne, get_set_same] <;> refine Nat.mod_eq_of_lt ?_
  · exact leAt_lt t 20 4
  · exact leAt_lt b 0 4
  · exact leAt_lt b 4 4
  · exact leAt_lt b 8 2
  · exact Nat.lt_of_le_of_lt net (by decide)

end Sys2Proof.Machine
end

section
/-! PROOF. O25: tokens and the report request. -/

namespace Sys2Proof.Machine

/-- Checks 1 to 3 answer codes of one byte. -/
theorem tokCheck_lt {s : State} {token : List Byte} {st : Nat} (h : tokCheck s token = some st) : st < 256 := by
  simp only [tokCheck] at h
  split at h
  · cases h; decide
  · split at h
    · cases h; decide
    · split at h
      · cases h; decide
      · split at h
        · cases h; decide
        · cases h

/-- Of the state, a body's check reads CREDIT alone. -/
theorem tokBodyOk_congr {s t : State} (h : ledCredit t = ledCredit s) (typ : Nat) (b : List Byte) : tokBodyOk t typ b = tokBodyOk s typ b := by
  simp only [tokBodyOk, h]

section
variable (s : State) (req : Req) (token body : List Byte) (fresh : get64 s W.ledSeqLo W.ledSeqHi < leAt token 24 8)
  (sure : s.on F.ledStat_rtcUnsure = false) (after : leAt token 36 4 ≤ s.rtcSec) (before : s.rtcSec ≤ leAt token 40 4)
  (bp : s.get F.nvProt_bp ≠ 3)
include fresh sure after before bp

/-- An accepted token whose effect is followed by the flags: its SEQ stands, it waits for its checkpoint, and the account is its effect's. -/
theorem tokAuthentic_leaves (typ : Nat) (w : State) (htyp : leAt token 1 1 = typ) (good : tokBodyOk (ledCatchUp s) typ body = true)
    (effect : tokApply (ledCatchUp (tokConsumed s token)) token body = ledEval w)
    (words : ∀ o ∈ [W.ledSeqLo, W.ledSeqHi, W.nvProt], w.getW o = (ledCatchUp (tokConsumed s token)).getW o) :
    let t := tokAuthentic s req token body
    AccountKept (ledFlagged w) t ∧ get64 t W.ledSeqLo W.ledSeqHi = leAt token 24 8 ∧ ⟨req, typ, St.ok⟩ ∈ t.led.tokNow ++ t.led.tokNext := by
  subst htyp
  have caught : ∀ o ∈ [W.ledSeqLo, W.ledSeqHi, W.nvProt], w.getW o = (tokConsumed s token).getW o := fun o mem => by
    rw [words o mem, ledCatchUp_getW]
    revert o
    decide
  have prot : w.get F.nvProt_bp = s.get F.nvProt_bp := by
    rw [State.get, State.get, caught _ (by decide), tokConsumed_getW _ _ _ (by decide)]
  have good' := (tokBodyOk_congr (tokConsumed_credit s token) _ _).trans good
  obtain ⟨account, waits⟩ := ckptStart_queued w ⟨req, leAt token 1 1, St.ok⟩ (prot ▸ bp)
  rw [tokAuthentic_accepted s req token body fresh sure after before good', effect]
  refine ⟨account, ?_, waits⟩
  rw [← tokConsumed_seq s token]
  exact get64_congr ((ledFlagged_word account _ (by decide) (by decide)).trans (caught _ (by decide)))
    ((ledFlagged_word account _ (by decide) (by decide)).trans (caught _ (by decide)))

/-- An accepted CREDIT_ADD (Table 3.2). -/
theorem tokAuthentic_credit (typ : leAt token 1 1 = 1) (good : tokBodyOk (ledCatchUp s) 1 body = true) :
    let t := tokAuthentic s req token body
    get64 t W.ledSeqLo W.ledSeqHi = leAt token 24 8 ∧ ledCredit t = ledCredit (ledCatchUp s) + leAt body 0 4 ∧
      t.get F.ledGrace_graceWh = leAt body 4 4 ∧ ⟨req, 1, St.ok⟩ ∈ t.led.tokNow ++ t.led.tokNext := by
  have words : ∀ o ∈ [W.ledSeqLo, W.ledSeqHi, W.nvProt], (creditAdded (ledCatchUp (tokConsumed s token)) body).getW o =
      (ledCatchUp (tokConsumed s token)).getW o := fun o mem => by
    rw [creditAdded_getW] <;> revert o <;> decide
  obtain ⟨account, seq, waits⟩ := tokAuthentic_leaves s req token body fresh sure after before bp 1 _ typ good
    (tokApply_credit _ _ _ typ) words
  have sum := (tokBodyOk_credit good).2
  rw [← tokConsumed_credit s token] at sum ⊢
  obtain ⟨credit, grace⟩ := creditAdded_leaves (ledCatchUp (tokConsumed s token)) body sum
  have credited := (account.credit.trans (ledFlagged_credit _)).trans credit
  have graced := (ledFlagged_field account F.ledGrace_graceWh (by decide) (by decide)).trans grace
  generalize tokAuthentic s req token body = t at *
  exact ⟨seq, credited, graced, waits⟩

/-- An accepted LEASE_TERMS (R85). -/
theorem tokAuthentic_terms (typ : leAt token 1 1 = 2) (good : tokBodyOk (ledCatchUp s) 2 body = true) :
    let t := tokAuthentic s req token body
    get64 t W.ledSeqLo W.ledSeqHi = leAt token 24 8 ∧ t.get F.ledLease_leaseId = leAt token 20 4 ∧
      t.get F.ledWstart_leaseStart = leAt body 0 4 ∧ t.get F.ledWend_leaseEnd = leAt body 4 4 ∧
      t.get F.ledCtrl_meterK = leAt body 8 2 ∧ t.get F.ledCtrl_net = leAt body 10 1 ∧ t.on F.ledStat_open = true ∧
      ledCredit t = ledCredit (ledCatchUp s) ∧ ⟨req, 2, St.ok⟩ ∈ t.led.tokNow ++ t.led.tokNext := by
  have words : ∀ o ∈ [W.ledSeqLo, W.ledSeqHi, W.nvProt, W.ledCredit], (termsTaken (ledCatchUp (tokConsumed s token)) token body).getW o =
      (ledCatchUp (tokConsumed s token)).getW o := fun o mem => by
    rw [termsTaken_getW]
    revert o
    decide
  obtain ⟨account, seq, waits⟩ := tokAuthentic_leaves s req token body fresh sure after before bp 2 _ typ good
    (tokApply_terms _ _ _ typ) fun o mem => words o (by revert o; decide)
  obtain ⟨lease, start, end_, k, net, open_⟩ := termsTaken_leaves (ledCatchUp (tokConsumed s token)) token body (tokBodyOk_terms good)
  have opened := (account.flag 0 (by decide)).trans ((ledFlagged_open _).trans open_)
  have credited := (account.credit.trans (ledFlagged_credit _)).trans
    ((congrArg wh (words W.ledCredit (by decide))).trans (tokConsumed_credit s token))
  have field := fun f => ledFlagged_field account f
  generalize tokAuthentic s req token body = t at *
  exact ⟨seq, (field F.ledLease_leaseId (by decide) (by decide)).trans lease,
    (field F.ledWstart_leaseStart (by decide) (by decide)).trans start, (field F.ledWend_leaseEnd (by decide) (by decide)).trans end_,
    (field F.ledCtrl_meterK (by decide) (by decide)).trans k, (field F.ledCtrl_net (by decide) (by decide)).trans net, opened, credited, waits⟩

end

/-- Settles O25: a held frame, a token that fails its first checks, an authentic token by what `tokAuthentic` does with it, and a report. -/
theorem ledgerTokensAndReports : Obligations.LedgerTokensAndReports := by
  unfold Obligations.LedgerTokensAndReports
  intro s u req token payload bits body k st
  refine ⟨?held, ?fails, ?authentic, ?report⟩
  case held =>
    intro stopped
    exact ⟨⟨_, rfl, by simp [ledFrame, stopped, ledUpd]⟩, ⟨_, rfl, by simp [ledFrame, stopped, ledUpd]⟩⟩
  case fails =>
    intro runs free check
    have answered : ledFrame s req true token = tokComplete s ⟨req, leAt token 1 1, st⟩ := by
      simp [ledFrame, runs, free, ledTake, check]
    refine ⟨_, rfl, ?_⟩
    rw [answered]
    exact ⟨tokComplete_status _ _ (tokCheck_lt check), (tokComplete_accountKept _ _).getW _ (by decide) (by decide), rfl⟩
  case authentic =>
    intro runs free check draws key opens seq v
    have taken := ledFrame_authentic s u req token bits k body runs free check draws key opens
    obtain ⟨r, rfl⟩ : ∃ r, u = { s with rng := r } := ⟨_, maskDraws_rng 2 draws⟩
    have meter : SameMeter s { s with rng := r } := ⟨rfl, rfl, rfl, rfl, rfl⟩
    have caught : ledCredit (ledCatchUp { s with rng := r }) = ledCredit v := (meter.ledCatchUp rfl rfl).credit_eq
    have run : exec (.ledTokenFrame req token) s = .next (tokAuthentic { s with rng := r } req token body) := congrArg Host.Outcome.next taken
    refine ⟨fun old => ⟨_, run, ?replay⟩, fun fresh sure after before bp =>
      ⟨fun typ good => ⟨_, run, ?credit⟩, fun typ good => ⟨_, run, ?terms⟩⟩⟩
    case replay =>
      have account : AccountKept { s with rng := r } (tokComplete { s with rng := r } ⟨req, leAt token 1 1, St.tokenReplay⟩) :=
        tokComplete_accountKept _ _
      rw [tokAuthentic_replay { s with rng := r } req token body old]
      exact ⟨tokComplete_status _ _ (show St.tokenReplay < 256 by decide), account.getW W.ledCredit (by decide) (by decide),
        get64_congr (account.getW W.ledSeqLo (by decide) (by decide)) (account.getW W.ledSeqHi (by decide) (by decide))⟩
    case credit =>
      rw [← caught]
      exact tokAuthentic_credit _ req token body fresh sure after before bp typ ((tokBodyOk_congr caught 1 body).trans good)
    case terms =>
      rw [← caught]
      exact tokAuthentic_terms _ req token body fresh sure after before bp typ ((tokBodyOk_congr caught 2 body).trans good)
  case report =>
    intro runs form length draws b
    have answers : ledFrame s req false payload = ledReport u req payload := by
      simp [ledFrame, runs, ledTake, form, length, ledCrypto, draws]
    obtain ⟨r, rfl⟩ : ∃ r, u = { s with rng := r } := ⟨_, maskDraws_rng 2 draws⟩
    have run : exec (.saddleReqReport req payload) s = .next (ledReport { s with rng := r } req payload) := congrArg Host.Outcome.next answers
    refine ⟨fun key => ⟨_, run, ?sealed⟩, fun key => ⟨_, run, ?none_⟩⟩
    case sealed =>
      have key' : lessorKey { s with rng := r } "LRPT" = some k := key
      simp only [ledReport, key']
      rfl
    case none_ =>
      have key' : lessorKey { s with rng := r } "LRPT" = none := key
      simp only [ledReport, key']
      rfl

end Sys2Proof.Machine
end
